-- ==== Sys2Proof/Word.lean ====
section
/-! DEFINITION. The word types of the head (Table 00-5, R174) and their plainest arithmetic. -/

namespace Sys2Proof

/-- A host register word (R7). -/
abbrev Word := BitVec 32

/-- A Loop Engine word, an electrical angle or a Q1.23 value (R8, R174). -/
abbrev W24 := BitVec 24

/-- One byte of the flash. -/
abbrev Byte := BitVec 8

/-- The Q1.23 value nearest to `x` inside the format's range (R9). -/
def satInt (bits : Nat) (x : Int) : Int :=
  max (-(2 ^ (bits - 1))) (min (2 ^ (bits - 1) - 1) x)

/-- Unsigned saturation to `bits` bits. -/
def satNat (bits : Nat) (x : Nat) : Nat := min (2 ^ bits - 1) x

end Sys2Proof
end

