-- ==== Sys2Proof/Syntax.lean ====
section
/-! DEFINITION. The commands of the head (spec/opcode_table.json) and the operands they carry: what arrives from outside
(frames, edges, host transactions, recipe contents) and the choices a command names. -/

namespace Sys2Proof

/-! ## Frames -/

/-- A frame as its words on a lane (Table 05-1): two header words, the payload, the CRC word. -/
structure Frame where
  w0 : Word
  w1 : Word
  payload : List Word
  crc : Word
  deriving DecidableEq, Repr

/-- A frame as a lane of the head receives it. `stamp` is the /S/ instant at the receive balls in units of 0.8 ns since
the main PLL locked (R138, R169); `badGroup` says that a code group or the framing breaks R83, `broken` that it is an invalid code group
or /V/ in the frame, which a forwarder passes on as /V/ (R86); `ended` says that /T/
follows directly after the word that LEN makes the CRC word (Table 05-3, check 3); `invalid` are the invalid code groups that
the lane has received since its last frame or loss (R81), those of this frame included; `freed` are the unread banks of the
lane that their reader has released since the lane's last frame (R14). -/
structure RxFrame where
  lane : Fin 10
  stamp : Nat
  badGroup : Bool
  broken : Bool
  ended : Bool
  invalid : Nat
  freed : Nat
  frame : Frame
  deriving DecidableEq, Repr

/-! ## Recipe contents

What the sections of a recipe image say to their targets (Table 03-5). The spec gives the byte layout of some sections
only; the contents therefore stand beside the image as an operand (notes/assumptions/12.md). -/

/-- A downstream cyclic slot of the Timetable (R117). `dueFirst` is the tick at which an express slot's first payload
word is due (R219). -/
structure CmdSlot where
  lane : Nat
  slot : Nat
  instant : Nat
  station : Nat
  kind : Nat
  len : Nat
  limp : Bool
  part : Nat
  express : Bool
  dueFirst : Nat
  deriving DecidableEq, Repr

/-- An upstream cyclic slot: its nominal arrival A at the head (R119, R122). `part` is the number of payload words that
travel here in split mode, 0 when the payload is whole (R127). -/
structure RepSlot where
  lane : Nat
  slot : Nat
  arrival : Nat
  station : Nat
  kind : Nat
  len : Nat
  limp : Bool
  part : Nat
  deriving DecidableEq, Repr

/-- The Recess table of one lane (R123). -/
structure LaneTable where
  lane : Nat
  recessStart : Nat
  lag : Nat
  pairs : List (Nat × Nat)
  deriving DecidableEq, Repr

/-- An expected position of the NODE section (R142). `prop` is the propagation figure of the hop toward the head, in ps per
metre. -/
structure Position where
  lane : Nat
  station : Nat
  required : Bool
  dmin : Nat
  dmax : Nat
  prop : Nat
  expected : List Word
  mask : List Word
  deriving DecidableEq, Repr

/-- What the recipe says of one station: its slot record as compiled (Table 05-10, with REPORT replaced by the arrival on
each channel), its axes, and the configuration words of R339. -/
structure StationCfg where
  station : Nat
  attach : Nat
  dual : Nat
  record : List Word
  arrivalA : Nat
  arrivalB : Nat
  axes : List Nat
  loops : List Nat
  config : List (Nat × Word)
  deriving DecidableEq, Repr

/-- A unit event routed to a task's UNIT flag by its unit's section (Table 09-3). -/
structure UnitRoute where
  kind : Nat
  index : Nat
  task : Nat
  flag : Nat
  deriving DecidableEq, Repr

/-- The contents of a recipe's sections as its compiler meant them. `regs` holds every register that a page gives the
reset value Recipe; `mirror` the rotated mirror items as TYPE × 256 + index + 65,536 × group (R408); `hbT` is HB_T (R400); `privTasks` are the descriptors
960 to 1023 that the head fills in itself, of which the spec gives no contents (R205). -/
structure Content where
  regs : List (Nat × Word)
  cmdSlots : List CmdSlot
  repSlots : List RepSlot
  laneTables : List LaneTable
  positions : List Position
  stations : List StationCfg
  candidates : List Nat
  tasks : List (Nat × List Word)
  reserved : List (Nat × Nat × Nat)
  code : List (Nat × Word)
  xData : List (Nat × Nat × W24)
  yData : List (Nat × Nat × W24)
  cData : List (Nat × Nat × W24)
  cams : List (Nat × List Word)
  initialState : Nat
  routes : List UnitRoute
  mirror : List Nat
  privTasks : List (Nat × List Word)
  joinPairs : List (Nat × Nat)
  hbT : Nat
  deriving DecidableEq, Repr

/-! ## The island's pins (chapter 16) -/

/-- One sample of the island's inputs (R366): SIN0 to SIN7 and SRB0 to SRB3 as bits. -/
structure SafeSample where
  sin : Nat
  srb : Nat
  deriving DecidableEq, Repr

/-- What an evaluation cycle meets (R366, R381, R383, R385): the 25 samples taken during the cycle, the mean ADC code of SFS,
the island cycles counted over the last 64 changes of the core watchdog line when a count has just ended, and the code of a
self-test that failed, 0 when none did. -/
structure EvalIn where
  samples : Vector SafeSample 25
  sfs : Nat
  cycles : Option Nat
  failed : Fin 8
  deriving DecidableEq, Repr

/-! ## What background services meet (chapter 20) -/

/-- What a step of the ECC scrub finds (R449). `region` and `addr` are those of BKG_ECC_ADDR; `bad` says that the error cannot be
corrected; `host` is the word's host address where it has one. In engine memory `engine`, `mem` (0 program, 1 X, 2 Y, 3 C) and
`offset` say where, and `code` lists the tasks whose code covers a program word. `wrap` ends the pass. `upsets` are the words (engine, memory,
offset) that took a single-bit error since the last step; until a scrub or a store they are corrected wherever they are read (R203). -/
structure ScrubFind where
  region : Nat
  addr : Nat
  corrected : Bool
  bad : Bool
  host : Option Nat
  engine : Nat
  mem : Nat
  offset : Nat
  code : List Nat
  wrap : Bool
  upsets : List (Nat × Nat × Nat)
  deriving DecidableEq, Repr

/-- The results of a recalibration round (R450): the correction of offset and gain about the trim value that the references call for per ADC
input, the direction of the correction of swing and receive offset per lane; none where the references give no correction in range. -/
structure CalRound where
  adc : List (Option (Int × Int))
  lanes : List (Option (Int × Int))
  deriving DecidableEq, Repr

/-- How the work of one log record ends (R452, R453): well, or with a program or an erase of the flash that fails. -/
inductive LogEnd where
  | good | program | erase
  deriving DecidableEq, Repr

/-! ## The test port (chapter 02) -/

/-- The instructions of the test port (R51). -/
inductive TapOp where
  | bypass | idcode | sample | extest | clamp | highz
  deriving DecidableEq, Repr

/-! ## Loop Engine instructions (chapter 08) -/

/-- One move slot of a P-class instruction (Table 08-6): the register loaded, the pointer choice and the step choice. -/
structure MoveSlot where
  dst : Fin 8
  ptr : Bool
  step : Bool
  deriving DecidableEq, Repr

/-- The three move slots of a P-class instruction (R186). -/
structure Moves where
  x : Option MoveSlot
  y : Option MoveSlot
  c : Option MoveSlot
  deriving DecidableEq, Repr

/-- What a loss of signal cuts: the invalid code groups that came since the lane's last frame or loss (R81), and what had come of a frame in
progress. -/
structure SignalCut where
  invalid : Nat
  inFrame : Option Frame
  deriving DecidableEq, Repr

/-- A data bus of an engine. -/
inductive Bus where
  | x | y | c
  deriving DecidableEq, Repr

/-- The sum-register operations of Table 08-8. -/
inductive AOp where
  | zero | copy | add | sub | neg | abs | clip | round | shl | shr | shv | scale | cmp | max | min | limit
  | getg | putg | and | or | xor | quot
  deriving DecidableEq, Repr

/-- The product operations of Table 08-7. -/
inductive POp where
  | load | prod | pacc | psub | prod2 | pacc2 | pdif | paccd | ppair | ppacc | prodn | paccn | addk | subk | fmax | fmin
  deriving DecidableEq, Repr

/-- The control operations of Table 08-10. -/
inductive COp where
  | goto | call | ret | rep | repn | endTask | commit | park | trap | law
  deriving DecidableEq, Repr

/-- A Loop Engine instruction (Table 08-5), decoded. -/
inductive LInstr where
  | p (op : POp) (d : Fin 4) (i j : Fin 8) (mv : Moves)
  | a (op : AOp) (d : Fin 4) (s : Fin 8) (imm : Nat)
  | m (store : Bool) (bus : Bus) (reg : Fin 16) (ap : Fin 8) (mode : Fin 8) (disp : Int)
  | ldi16 (ty : Fin 4) (idx : Fin 8) (imm : BitVec 16)
  | move (dst src : Fin 64)
  | ldi24 (reg : Fin 16) (imm : W24)
  | ctl (op : COp) (cond : Nat) (arg : Nat) (count : Nat)
  deriving DecidableEq, Repr

/-! ## The commands -/

/-- A write of Line Time, or of its addend (R173). -/
inductive LineWrite where
  | time (ns sec : Word)
  | addend (f : Word)
  deriving DecidableEq, Repr

/-- A command of spec/opcode_table.json, one constructor per row in the table's order. Operands that name a thing carry its number; frames, edges and results come
as they arrive. -/
inductive Instr where
  /-- PORST_N_ASSERT (R34). -/
  | porstAssert (torn : Option Nat)
  /-- RESET_SEQUENCE (R54). -/
  | resetSequence (mode : Fin 4) (role : Bool) (svcEn : Bool) (romOk : Bool)
  /-- LOG_RESUME (R454). -/
  | logResume
  /-- SYS_SWRST (R55). -/
  | sysSwrst (w : Word)
  /-- MAIN_RAIL_LOSS (R36). -/
  | mainRailLoss (torn : Option Nat)
  /-- SVC_EN_LOW (R30). -/
  | svcEnLow
  /-- RECIPE_LOAD (R67). -/
  | recipeLoad (content : Content) (refuse : Option Nat) (readFault : Bool) (us : Nat)
  /-- BOOT_RELEASE (R56). -/
  | bootRelease
  /-- HOST_LOAD_START (R70). -/
  | hostLoadStart (len : Nat)
  /-- HOST_LOAD_ABORT (R70). -/
  | hostLoadAbort
  /-- BOOT_HL_DATA (R70). -/
  | bootHlData (w : Word)
  /-- HOST_LOAD_TIMEOUT (R70). -/
  | hostLoadTimeout
  /-- BOOT_RELOAD_REQ (R72). -/
  | bootReloadReq (slot : Fin 16)
  /-- BOOT_SLOT_UPDATE (R59). -/
  | bootSlotUpdate (sel : Fin 16) (fallback : Fin 256)
  /-- FLASH_ERASE (R80). -/
  | flashErase (addr : Word)
  /-- FLASH_PROGRAM (R80). -/
  | flashProgram (addr : Word)
  /-- FLASH_READ (R80). -/
  | flashRead (addr : Word)
  /-- BOOT_KEY_PROG (R66). -/
  | bootKeyProg (w : Word) (readBack : Option (List Word))
  /-- TRIM_COMMIT (R78). -/
  | trimCommit
  /-- LOWER_WORD_READ (R7). -/
  | lowerWordRead (addr : Nat)
  /-- UPPER_WORD_READ (R7). -/
  | upperWordRead (addr : Nat)
  /-- LOWER_WORD_WRITE (R7). -/
  | lowerWordWrite (addr : Nat) (w : Word)
  /-- UPPER_WORD_WRITE (R7). -/
  | upperWordWrite (addr : Nat) (w : Word)
  /-- COUNTER_READ_CLEAR (R98). -/
  | counterReadClear (addr : Nat)
  /-- W1C_CLEAR (R3). -/
  | w1cClear (addr : Nat) (w : Word)
  /-- REGISTER_WRITE (R6). -/
  | registerWrite (addr : Nat) (w : Word)
  /-- LANE_SIGNAL_QUALIFIED (R84). -/
  | laneSignalQualified (lane : Fin 10)
  /-- CDR_LOCKED (R84). -/
  | cdrLocked (lane : Fin 10) (eq : Nat)
  /-- COMMA_ALIGNED (R84). -/
  | commaAligned (lane : Fin 10) (inverted : Bool)
  /-- LANE_UP (R85). -/
  | laneUp (lane : Fin 10)
  /-- SYNC_LOSS (R86). -/
  | syncLoss (lane : Fin 10) (invalid : Nat) (inFrame : Option Frame)
  /-- SIGNAL_LOSS (R86). -/
  | signalLoss (lane : Fin 10) (cut : SignalCut)
  /-- CDR_LOCK_LOSS (R86). -/
  | cdrLockLoss (lane : Fin 10)
  /-- IDLE_INSERT_DELETE (R89). -/
  | idleInsertDelete (lane : Fin 10)
  /-- LL_FORWARD (R95). -/
  | llForward (r : RxFrame)
  /-- FRAME_REFUSED (R102). -/
  | frameRefused (r : RxFrame)
  /-- REPORT_RECEIVE (R104). -/
  | reportReceive (r : RxFrame)
  /-- RECESS_REQUEST (R124). -/
  | recessRequest (lane : Fin 10) (pair : Nat) (phase : Fin 11)
  /-- RECESS_RESPONSE (R114). -/
  | recessResponse (r : RxFrame)
  /-- RECESS_RESPONSE_MISSING (R125). -/
  | recessResponseMissing (lane : Fin 10) (pair : Nat)
  /-- BELL_EDGE (R19). -/
  | bellEdge (phase : Fin 11)
  /-- WATCHDOG_TOGGLE (R382). -/
  | watchdogToggle (armed : Bool)
  /-- SLOT_DEPARTURE (R21). -/
  | slotDeparture (lane : Fin 10) (slot : Nat)
  /-- MOTION_DEADLINE (R258). -/
  | motionDeadline (t : Nat)
  /-- RX_WINDOW_CLOSE (R210). -/
  | rxWindowClose (lane : Fin 10) (slot : Nat)
  /-- SEGMENT_LOSS (R152). -/
  | segmentLoss (lane : Fin 10)
  /-- REJOIN_ECHO (R152). -/
  | rejoinEcho (lane : Fin 10)
  /-- RESYNC_START (R149). -/
  | resyncStart (station : Nat)
  /-- PROBATION_END (R149). -/
  | probationEnd (station : Nat)
  /-- NODE_RELEASE (R150). -/
  | nodeRelease (station : Nat)
  /-- ROLLCALL_START (R131). -/
  | rollcallStart
  /-- ROLLCALL_REQUEST (R136). -/
  | rollcallRequest (phase : Fin 11)
  /-- ROLLCALL_ANSWER (R133). -/
  | rollcallAnswer (r : RxFrame)
  /-- ROLLCALL_NO_ANSWER (R136). -/
  | rollcallNoAnswer (lane : Fin 10)
  /-- ROLLCALL_STARTUP (R137). -/
  | rollcallStartup (phase : Fin 11)
  /-- ROLLCALL_RESTART (R144). -/
  | rollcallRestart
  /-- NODE_RC_FULL (R153). -/
  | nodeRcFull
  /-- STEERING_SAMPLE (R162). -/
  | steeringSample
  /-- TIME_HOLDOVER (R164). -/
  | timeHoldover
  /-- LINE_SYNC (R166). -/
  | lineSync
  /-- LINE_FOLLOW (R167). -/
  | lineFollow (sync : RxFrame) (follow : RxFrame)
  /-- LINK_ECHO (R167). -/
  | linkEcho (t1 : Nat) (t2 : Nat) (t3 : Nat) (t4 : Nat)
  /-- PPS_OUT_RISE (R170). -/
  | ppsOutRise
  /-- PPS_OUT_FALL (R170). -/
  | ppsOutFall
  /-- PPS_IN (R170). -/
  | ppsIn (tick : Nat)
  /-- TRG_FIRE (R171). -/
  | trgFire (k : Fin 4)
  /-- TRG_PULSE_END (R171). -/
  | trgPulseEnd (k : Fin 4)
  /-- TRG_INPUT_EDGE (R171). -/
  | trgInputEdge (k : Fin 4) (rising : Bool) (tick : Nat)
  /-- TRG_ARM (R171). -/
  | trgArm (k : Fin 4) (ns : Word) (sec : Word)
  /-- LINE_TIME_SET (R173). -/
  | lineTimeSet (w : LineWrite)
  /-- MT_ADDEND_WRITE (R163). -/
  | mtAddendWrite (w : Word)
  /-- TASK_DISPATCH (R214). -/
  | taskDispatch (e : Fin 16)
  /-- PRIV_ENQUEUE (R212). -/
  | privEnqueue (t : Nat)
  /-- PARK_RELEASE (R197). -/
  | parkRelease (e : Fin 16)
  /-- BUDGET_FAULT (R198). -/
  | budgetFault (e : Fin 16)
  /-- LOAD (R186). -/
  | load (e : Fin 16) (mv : Moves)
  /-- PROD (R186). -/
  | prod (e : Fin 16) (d : Fin 4) (i : Fin 8) (j : Fin 8) (mv : Moves)
  /-- PACC (R186). -/
  | pacc (e : Fin 16) (d : Fin 4) (i : Fin 8) (j : Fin 8) (mv : Moves)
  /-- PSUB (R186). -/
  | psub (e : Fin 16) (d : Fin 4) (i : Fin 8) (j : Fin 8) (mv : Moves)
  /-- PROD2 (R186). -/
  | prod2 (e : Fin 16) (d : Fin 4) (i : Fin 8) (j : Fin 8) (mv : Moves)
  /-- PACC2 (R186). -/
  | pacc2 (e : Fin 16) (d : Fin 4) (i : Fin 8) (j : Fin 8) (mv : Moves)
  /-- PDIF (R186). -/
  | pdif (e : Fin 16) (d : Fin 4) (i : Fin 8) (j : Fin 8) (mv : Moves)
  /-- PACCD (R186). -/
  | paccd (e : Fin 16) (d : Fin 4) (i : Fin 8) (j : Fin 8) (mv : Moves)
  /-- PPAIR (R186). -/
  | ppair (e : Fin 16) (d : Fin 4) (i : Fin 8) (j : Fin 8) (mv : Moves)
  /-- PPACC (R186). -/
  | ppacc (e : Fin 16) (d : Fin 4) (i : Fin 8) (j : Fin 8) (mv : Moves)
  /-- PRODN (R179). -/
  | prodn (e : Fin 16) (d : Fin 4) (i : Fin 8) (j : Fin 8) (mv : Moves)
  /-- PACCN (R179). -/
  | paccn (e : Fin 16) (d : Fin 4) (i : Fin 8) (j : Fin 8) (mv : Moves)
  /-- ADDK (R186). -/
  | addk (e : Fin 16) (d : Fin 4) (i : Fin 8) (mv : Moves)
  /-- SUBK (R186). -/
  | subk (e : Fin 16) (d : Fin 4) (i : Fin 8) (mv : Moves)
  /-- FMAX (R195). -/
  | fmax (e : Fin 16) (d : Fin 4) (i : Fin 8) (j : Fin 8) (mv : Moves)
  /-- FMIN (R195). -/
  | fmin (e : Fin 16) (d : Fin 4) (i : Fin 8) (j : Fin 8) (mv : Moves)
  /-- ZERO (R188). -/
  | zero (e : Fin 16) (d : Fin 4)
  /-- COPY (R188). -/
  | copy (e : Fin 16) (d : Fin 4) (src : Fin 4)
  /-- ADD (R188). -/
  | add (e : Fin 16) (d : Fin 4) (src : Fin 4)
  /-- SUB (R188). -/
  | sub (e : Fin 16) (d : Fin 4) (src : Fin 4)
  /-- NEG (R188). -/
  | neg (e : Fin 16) (d : Fin 4)
  /-- ABS (R188). -/
  | absS (e : Fin 16) (d : Fin 4)
  /-- CLIP (R188). -/
  | clip (e : Fin 16) (d : Fin 4)
  /-- ROUND (R179). -/
  | round (e : Fin 16) (d : Fin 4)
  /-- SHL (R188). -/
  | shl (e : Fin 16) (d : Fin 4) (imm : Fin 56)
  /-- SHR (R188). -/
  | shr (e : Fin 16) (d : Fin 4) (imm : Fin 56)
  /-- SHV (R188). -/
  | shv (e : Fin 16) (d : Fin 4) (src : Fin 8)
  /-- SCALE (R188). -/
  | scale (e : Fin 16) (d : Fin 4) (src : Fin 8)
  /-- CMP (R188). -/
  | cmp (e : Fin 16) (d : Fin 4) (src : Fin 4)
  /-- MAX (R188). -/
  | maxS (e : Fin 16) (d : Fin 4) (src : Fin 4)
  /-- MIN (R188). -/
  | minS (e : Fin 16) (d : Fin 4) (src : Fin 4)
  /-- LIMIT (R188). -/
  | limit (e : Fin 16) (d : Fin 4) (src : Fin 8)
  /-- GETG (R188). -/
  | getg (e : Fin 16) (d : Fin 4) (src : Fin 8)
  /-- PUTG (R188). -/
  | putg (e : Fin 16) (d : Fin 4) (src : Fin 8)
  /-- AND (R188). -/
  | andK (e : Fin 16) (d : Fin 4) (src : Fin 8)
  /-- OR (R188). -/
  | orK (e : Fin 16) (d : Fin 4) (src : Fin 8)
  /-- XOR (R188). -/
  | xorK (e : Fin 16) (d : Fin 4) (src : Fin 8)
  /-- QUOT (R188). -/
  | quot (e : Fin 16) (d : Fin 4) (src : Fin 8)
  /-- M_LOAD (R189). -/
  | mLoad (e : Fin 16) (bus : Bus) (reg : Fin 16) (ap : Fin 8) (mode : Fin 8) (disp : Int)
  /-- M_STORE (R189). -/
  | mStore (e : Fin 16) (bus : Bus) (reg : Fin 16) (ap : Fin 8) (mode : Fin 8) (disp : Int)
  /-- LDI16 (R185). -/
  | ldi16 (e : Fin 16) (ty : Fin 4) (idx : Fin 8) (imm : BitVec 16)
  /-- LDI24 (R185). -/
  | ldi24 (e : Fin 16) (reg : Fin 16) (imm : W24)
  /-- MOVE (R190). -/
  | move (e : Fin 16) (dst : Fin 64) (src : Fin 64)
  /-- GOTO (R191). -/
  | goto (e : Fin 16) (cond : Fin 15) (target : Fin 4096)
  /-- CALL (R191). -/
  | call (e : Fin 16) (cond : Fin 15) (target : Fin 4096)
  /-- RETURN (R191). -/
  | ret (e : Fin 16) (cond : Fin 15)
  /-- REP (R192). -/
  | rep (e : Fin 16) (body : Fin 128) (count : Fin 8192)
  /-- REPN (R192). -/
  | repn (e : Fin 16) (body : Fin 128)
  /-- END (R197). -/
  | endTask (e : Fin 16) (cond : Fin 15)
  /-- COMMIT (R197). -/
  | commit (e : Fin 16)
  /-- PARK (R197). -/
  | park (e : Fin 16)
  /-- TRAP (R191). -/
  | trap (e : Fin 16) (cond : Fin 15) (code : Fin 128)
  /-- SS_RECON (R235). -/
  | ssRecon (e : Fin 16)
  /-- CLARKE_PARK (R226). -/
  | clarkePark (e : Fin 16)
  /-- DQ_PI (R238). -/
  | dqPi (e : Fin 16)
  /-- IPARK (R240). -/
  | ipark (e : Fin 16)
  /-- SVM_SHIFT (R231). -/
  | svmShift (e : Fin 16)
  /-- DT_COMP (R242). -/
  | dtComp (e : Fin 16)
  /-- OBSERVER (R244). -/
  | observer (e : Fin 16)
  /-- PLAUS (R245). -/
  | plaus (e : Fin 16)
  /-- FOC_STD (R228). -/
  | focStd (e : Fin 16)
  /-- FOC_EXP_PREP (R243). -/
  | focExpPrep (e : Fin 16)
  /-- FOC_EXP_CLOSE (R243). -/
  | focExpClose (e : Fin 16)
  /-- SPEED (R261). -/
  | speed (e : Fin 16)
  /-- POSITION (R262). -/
  | position (e : Fin 16)
  /-- CAM_EVAL (R290). -/
  | camEval (e : Fin 16)
  /-- PZ2 (R311). -/
  | pz2 (e : Fin 16)
  /-- PZ3 (R311). -/
  | pz3 (e : Fin 16)
  /-- FOPDT (R319). -/
  | fopdt (e : Fin 16)
  /-- STEPPER_V (R275). -/
  | stepperV (e : Fin 16)
  /-- SIN_COS (R458). -/
  | sinCos (e : Fin 16)
  /-- SQRT (R458). -/
  | sqrtLaw (e : Fin 16)
  /-- RECIP (R458). -/
  | recip (e : Fin 16)
  /-- ATAN2 (R458). -/
  | atan2 (e : Fin 16)
  /-- LE_RUN (R204). -/
  | leRun (e : Fin 16)
  /-- LE_STEP (R204). -/
  | leStep (e : Fin 16)
  /-- LE_HALT (R204). -/
  | leHalt (e : Fin 16)
  /-- SCHED_EN_SET (R221). -/
  | schedEnSet (t : Fin 1024)
  /-- SCHED_FLAG_SET (R207). -/
  | schedFlagSet (t : Fin 1024) (soft : Byte)
  /-- AX_ENABLE (R249). -/
  | axEnable (n : Fin 128)
  /-- AX_CLR (R250). -/
  | axClr (n : Fin 128)
  /-- CLR_BRIDGE (R253). -/
  | clrBridge (n : Fin 128)
  /-- CTRL_WRITE (R272). -/
  | ctrlWrite (n : Fin 128) (ctrl : Fin 4)
  /-- MOTOR_DATA_DERIVE (R239). -/
  | motorDataDerive (n : Fin 128) (reg : Fin 5) (w : Word)
  /-- PT_START (R251). -/
  | ptStart (n : Fin 128) (move : Bool) (spin : Bool) (cur : BitVec 16)
  /-- PT_ABORT (R251). -/
  | ptAbort (n : Fin 128)
  /-- PT_APPLY (R253). -/
  | ptApply (n : Fin 128)
  /-- PUSH (R267). -/
  | push (n : Fin 128)
  /-- MOVE_PLANNED (R267). -/
  | movePlanned (n : Fin 128)
  /-- MV_STOP (R270). -/
  | mvStop (n : Fin 128)
  /-- QSTOP (R270). -/
  | qstop (n : Fin 128)
  /-- RESUME (R271). -/
  | resume (n : Fin 128)
  /-- FLUSH (R270). -/
  | flush (n : Fin 128)
  /-- AX_POS_SET (R273). -/
  | axPosSet (n : Fin 128) (lo : Word) (hi : Word)
  /-- VM_RUN (R283). -/
  | vmRun (v : Fin 8)
  /-- VM_STOP (R283). -/
  | vmStop (v : Fin 8)
  /-- VM_QSTOP (R283). -/
  | vmQstop (v : Fin 8)
  /-- STOP_AT (R283). -/
  | stopAt (v : Fin 8)
  /-- VM_SET (R283). -/
  | vmSet (v : Fin 8)
  /-- RESYNC (R288). -/
  | resync (v : Fin 8)
  /-- MASTER_PUB (R284). -/
  | masterPub (v : Fin 8) (busy : Bool)
  /-- MASTER_PUB_RECEIVE (R286). -/
  | masterPubReceive (r : RxFrame)
  /-- VM_LINE_LOSS (R288). -/
  | vmLineLoss (v : Fin 8)
  /-- LINE_LOST (R288). -/
  | lineLost (v : Fin 8)
  /-- AX_CAM_SEL (R295). -/
  | axCamSel (n : Fin 128) (seg : BitVec 14) (atWrap : Bool)
  /-- ENGAGE (R296). -/
  | engage (n : Fin 128)
  /-- DISENGAGE (R296). -/
  | disengage (n : Fin 128)
  /-- CAM_SEGMENT_WRITE (R291). -/
  | camSegmentWrite (seg : BitVec 14) (word : Fin 8) (w : Word)
  /-- ENCODER_EDGE (R300). -/
  | encoderEdge (k : Fin 4) (a : Bool) (b : Bool) (tick : Nat) (stable : Nat)
  /-- Z_EDGE (R303). -/
  | zEdge (k : Fin 4) (tick : Nat) (stable : Nat)
  /-- Z_ARM (R303). -/
  | zArm (k : Fin 4)
  /-- CLR_CNT (R302). -/
  | clrCnt (k : Fin 4)
  /-- CAPTURE_EDGE (R306). -/
  | captureEdge (k : Fin 8) (rising : Bool) (tick : Nat) (stable : Nat)
  /-- CAP_FIFO_POP (R306). -/
  | capFifoPop (k : Fin 8)
  /-- PL_MODE_WRITE (R314). -/
  | plModeWrite (i : Fin 32) (mode : Fin 8)
  /-- PL_COMMIT (R313). -/
  | plCommit (i : Fin 32)
  /-- TUNE (R316). -/
  | tune (i : Fin 32)
  /-- TUNE_ABORT (R316). -/
  | tuneAbort (i : Fin 32)
  /-- PL_APPLY (R318). -/
  | plApply (i : Fin 32)
  /-- PL_CLR (R315). -/
  | plClr (i : Fin 32)
  /-- PL_MAN_WRITE (R315). -/
  | plManWrite (i : Fin 32) (man : BitVec 16)
  /-- MST_PASS (R331). -/
  | mstPass
  /-- MST_FORCE (R335). -/
  | mstForce (st : Fin 64)
  /-- MST_NOTIFY_READ (R445). -/
  | mstNotifyRead
  /-- NODE_CONFIG_WRITE (R339). -/
  | nodeConfigWrite (station : Nat)
  /-- NODE_RAWSW (R352). -/
  | nodeRawsw (station : Nat) (pattern : BitVec 6) (width : BitVec 16)
  /-- CLR_LOCK (R359). -/
  | clrLock (g : Fin 16)
  /-- CLR_LOCK_TIMEOUT (R359). -/
  | clrLockTimeout (g : Fin 16)
  /-- CLR_FAIL (R356). -/
  | clrFail (g : Fin 16)
  /-- ISLAND_POWER_ON (R387). -/
  | islandPowerOn (code : Fin 8)
  /-- PARAM_TRANSFER (R387). -/
  | paramTransfer (sound : Bool)
  /-- EVALUATION_CYCLE (R366). -/
  | evaluationCycle (x : EvalIn)
  /-- SS1_EXPIRY (R377). -/
  | ss1Expiry (n : Fin 4)
  /-- INPUT_DISC (R369). -/
  | inputDisc (k : Fin 4)
  /-- FS_STOP (R381). -/
  | fsStop
  /-- TEST_PULSE (R372). -/
  | testPulse (slot : Fin 8) (samples : List SafeSample)
  /-- RESET (R380). -/
  | safetyReset (samples : Nat)
  /-- KEEPALIVE_DROP (R364). -/
  | keepaliveDrop (n : Fin 4)
  /-- ISLAND_RECORD (R378). -/
  | islandRecord (sound : Bool)
  /-- EARLY_OFF (R378). -/
  | earlyOff (n : Fin 4)
  /-- ISLAND_WD_CHANGE (R384). -/
  | islandWdChange (tick : Nat)
  /-- ISLAND_LOSS (R386). -/
  | islandLoss
  /-- HEARTBEAT_SEND (R400). -/
  | heartbeatSend
  /-- HEARTBEAT_RECEIVE (R401). -/
  | heartbeatReceive (r : RxFrame)
  /-- HBT_IN (R401). -/
  | hbtIn (tick : Nat)
  /-- HB_DUE_CHECK (R401). -/
  | hbDueCheck
  /-- LISTEN_END (R402). -/
  | listenEnd
  /-- CLAIM_END (R402). -/
  | claimEnd
  /-- BACKOFF_END (R402). -/
  | backoffEnd
  /-- PARTNER_LOST (R410). -/
  | partnerLost
  /-- JOIN (R404). -/
  | join (station : Nat)
  /-- MIRROR_SEND (R408). -/
  | mirrorSend (typ : Byte) (index : Byte)
  /-- MIRROR_RECEIVE (R409). -/
  | mirrorReceive (r : RxFrame)
  /-- HANDOFF (R412). -/
  | handoff
  /-- ACQ_SAMPLE (R415). -/
  | acqSample (pins : Word)
  /-- RECORD_CLOSE (R424). -/
  | recordClose (tick : Nat)
  /-- ARM (R423). -/
  | arm
  /-- FORCE (R423). -/
  | force
  /-- ACQ_STOP (R424). -/
  | acqStop
  /-- RD (R428). -/
  | rd (addr : Word) (count : Byte)
  /-- RDF (R428). -/
  | rdf (addr : Word) (count : Byte)
  /-- WR (R428). -/
  | wr (addr : Word) (count : Byte) (words : List Word)
  /-- WRF (R428). -/
  | wrf (addr : Word) (count : Byte) (words : List Word)
  /-- NRD (R440). -/
  | nrd (station : Byte) (addr : Word) (count : Byte)
  /-- NWR (R440). -/
  | nwr (station : Byte) (addr : Word) (count : Byte) (words : List Word)
  /-- NEX (R440). -/
  | nex (station : Byte) (addr : Word) (count : Byte) (words : List Word)
  /-- FETCH (R438). -/
  | fetch (t : Byte)
  /-- FETCHR (R438). -/
  | fetchr (t : Byte)
  /-- REL (R434). -/
  | rel (t : Byte)
  /-- MAP (R438). -/
  | map
  /-- BAD_OP (R430). -/
  | badOp
  /-- TRANSACTION_ABORT (R430). -/
  | transactionAbort (fetched : Option Byte)
  /-- REQUEST_COMMIT (R439). -/
  | requestCommit (readBack : Option (List Word))
  /-- HOST_FLUSH (R434). -/
  | hostFlush
  /-- ENG_REQ (R441). -/
  | engReq
  /-- ENG_RESP (R442). -/
  | engResp (w : Word)
  /-- ENG_CLOSE (R443). -/
  | engClose
  /-- ENG_IDLE_CLOSE (R443). -/
  | engIdleClose
  /-- CHALLENGE_EXPIRY (R442). -/
  | challengeExpiry
  /-- SCRUB_STEP (R449). -/
  | scrubStep (find : ScrubFind)
  /-- TELEMETRY (R451). -/
  | telemetry (temp : Int) (rails : List Nat)
  /-- RECALIBRATION (R450). -/
  | recalibration (round : CalRound)
  /-- LOG_RECORD_WRITE (R452). -/
  | logRecordWrite (fails : LogEnd)
  /-- LOG_CHECKPOINT (R452). -/
  | logCheckpoint
  /-- VDD_SAFE_LOSS (R387). -/
  | vddSafeLoss
  /-- TEST_PORT_INSTRUCTION (R51). -/
  | testPortInstruction (op : TapOp) (balls : Nat) (scan : Nat)
  /-- ENGINEER_LOCK_EXPIRY (R442). -/
  | engineerLockExpiry
  /-- FLASH_OPERATION_DONE (R80). -/
  | flashOperationDone (good : Bool)
  deriving DecidableEq, Repr

end Sys2Proof
end

