-- ==== Sys2Proof/Machine/Bits.lean ====
section
/-! DEFINITION. Bit fields, sign extension, rounding and byte order: the small helpers every family uses. -/

namespace Sys2Proof.Machine

/-- Bits [hi:lo] of a number. -/
def bits (w hi lo : Nat) : Nat := w / 2 ^ lo % 2 ^ (hi + 1 - lo)

/-- Bit `k` of a number. -/
def bit (w k : Nat) : Bool := w / 2 ^ k % 2 == 1

/-- `b` as 0 or 1. -/
def b2n (b : Bool) : Nat := if b then 1 else 0

/-- A number with bits [hi:lo] replaced by `v`. -/
def putBits (w hi lo v : Nat) : Nat :=
  w - bits w hi lo * 2 ^ lo + (v % 2 ^ (hi + 1 - lo)) * 2 ^ lo

/-- A number with bit `k` set. -/
def setBit (w k : Nat) : Nat := if bit w k then w else w + 2 ^ k

/-- A number with bit `k` cleared. -/
def clearBit (w k : Nat) : Nat := if bit w k then w - 2 ^ k else w

/-- The two's-complement value of the low `n` bits. -/
def sext (n w : Nat) : Int :=
  let x := w % 2 ^ n
  if x < 2 ^ (n - 1) then (x : Int) else (x : Int) - 2 ^ n

/-- The low `n` bits of an integer in two's complement. -/
def toBits (n : Nat) (x : Int) : Nat := (x % 2 ^ n).toNat

/-- Division rounded to nearest, halves up (R119, R139, R140). -/
def divHalfUp (a : Int) (b : Nat) : Int := (2 * a + b) / (2 * b)

/-- Division rounded to nearest, ties away from zero (R162). -/
def divAway (a : Int) (b : Nat) : Int :=
  if a < 0 then -((2 * (-a) + b) / (2 * b)) else (2 * a + b) / (2 * b)

/-- Division rounded to nearest, ties to even (R179, R458). -/
def divEven (a : Int) (b : Nat) : Int :=
  let q := a / (b : Int)
  let r := a - q * b
  if 2 * r < b then q
  else if 2 * r = b then (if q % 2 = 0 then q else q + 1)
  else q + 1

/-- The smallest whole number not below a / b. -/
def ceilDiv (a b : Nat) : Nat := (a + b - 1) / b

/-- The Bell `k` Bells after Bell `b`, and the Bells from Bell `from_` to Bell `now`: TIME_BELL_CNT wraps at 2^32. -/
def bellAfter (b k : Nat) : Nat := (b + k) % 2 ^ 32
def bellsSince (now from_ : Nat) : Nat := (now + 2 ^ 32 - from_ % 2 ^ 32) % 2 ^ 32

/-- Bell `b` has been reached by Bell `now`: it lies less than half of the count's range ahead of none. -/
def bellReached (now b : Nat) : Bool := decide (bellsSince now b < 2 ^ 31)

/-- The bits of a number that are 1 below `n`, lowest first. -/
def bitsSet (n w : Nat) : List Nat := (List.range n).filter (fun k => bit w k)

/-- Bitwise and, or, exclusive or and and-not of two numbers read as words of 32 bits. -/
def band (a b : Nat) : Nat := ((BitVec.ofNat 32 a) &&& (BitVec.ofNat 32 b)).toNat
def bor (a b : Nat) : Nat := ((BitVec.ofNat 32 a) ||| (BitVec.ofNat 32 b)).toNat
def bxor (a b : Nat) : Nat := ((BitVec.ofNat 32 a) ^^^ (BitVec.ofNat 32 b)).toNat
def bandNot (a b : Nat) : Nat := ((BitVec.ofNat 32 a) &&& ~~~(BitVec.ofNat 32 b)).toNat

/-- The four bytes of a word, bits [31:24] first: the send order of R82. -/
def wordBytes (w : Word) : List Nat :=
  let n := w.toNat
  [bits n 31 24, bits n 23 16, bits n 15 8, bits n 7 0]

/-- The little-endian word of four bytes (Flash layout, chapter 03). -/
def leWord (b : List Nat) : Nat := b.foldr (fun x acc => x % 256 + 256 * acc) 0

/-- The `n` little-endian bytes of a number. -/
def leBytes : Nat → Nat → List Nat
  | 0, _ => []
  | n + 1, w => w % 256 :: leBytes n (w / 256)

/-- The element of a list at an index, 0 beyond its end. -/
def nth (l : List Nat) (i : Nat) : Nat := l.getD i 0

/-- The word of a list at an index, 0 beyond its end. -/
def wordAt (l : List Word) (i : Nat) : Nat := (l.getD i 0).toNat

/-- A 64-bit value of two words, the first holding bits [31:0] (R7). -/
def pairOf (lo hi : Nat) : Nat := lo % 2 ^ 32 + 2 ^ 32 * (hi % 2 ^ 32)

end Sys2Proof.Machine
end

