-- ==== Sys2Proof/Machine/Crypto.lean ====
section
/-! DEFINITION. The published functions the spec names: CRC-32 of IEEE 802.3 (R100), SHA-256 (FIPS 180-4) and HMAC
(RFC 2104), as R64 uses them. -/

namespace Sys2Proof.Machine

/-- One bit of the reflected CRC-32, polynomial 0x04C1_1DB7 reflected. -/
def crcBit (c : Word) : Word :=
  if c.getLsbD 0 then (c >>> 1) ^^^ 0xEDB88320 else c >>> 1

/-- One byte into the CRC register. -/
def crcByte (c : Word) (b : Nat) : Word :=
  let c0 := c ^^^ BitVec.ofNat 32 (b % 256)
  crcBit (crcBit (crcBit (crcBit (crcBit (crcBit (crcBit (crcBit c0)))))))

/-- CRC-32 of IEEE 802.3 over bytes in order: preset all ones, final exclusive-OR all ones. -/
def crc32 (bs : List Nat) : Word := (bs.foldl crcByte 0xFFFFFFFF) ^^^ 0xFFFFFFFF

/-- The CRC word of a frame: the result's bytes in the order of R100. -/
def frameCrc (ws : List Word) : Word :=
  let c := (crc32 (ws.flatMap wordBytes)).toNat
  BitVec.ofNat 32 (bits c 7 0 * 2 ^ 24 + bits c 15 8 * 2 ^ 16 + bits c 23 16 * 2 ^ 8 + bits c 31 24)

/-- The greatest number not below `x` whose `k`-th power does not exceed `n`, tried from bit `b` down. -/
def rootFrom (k n : Nat) : Nat → Nat → Nat
  | 0, x => x
  | b + 1, x => rootFrom k n b (if (x + 2 ^ b) ^ k ≤ n then x + 2 ^ b else x)

/-- The first 32 bits of the fraction of the `k`-th root of `p` (below 8). -/
def rootWord (k p : Nat) : Word := BitVec.ofNat 32 (rootFrom k (p * 2 ^ (32 * k)) 35 0)

/-- The 64 primes below 312. -/
def smallPrimes : List Nat := (List.range 312).filter (fun n => 2 ≤ n && (List.range' 2 16).all (fun d => n % d != 0 || n ≤ d))

/-- The round constants of SHA-256 by their definition in FIPS 180-4: cube roots of the first 64 primes. -/
def shaK : List Word := smallPrimes.map (rootWord 3)

/-- The initial hash value: square roots of the first eight primes. -/
def shaH : List Word := (smallPrimes.take 8).map (rootWord 2)

/-- The message schedule, newest word first: `n` more words from the sixteen (or more) so far. -/
def shaSchedule : Nat → List Word → List Word
  | 0, w => w
  | n + 1, w =>
    let w2 := w.getD 1 0
    let w7 := w.getD 6 0
    let w15 := w.getD 14 0
    let w16 := w.getD 15 0
    let s0 := w15.rotateRight 7 ^^^ w15.rotateRight 18 ^^^ (w15 >>> 3)
    let s1 := w2.rotateRight 17 ^^^ w2.rotateRight 19 ^^^ (w2 >>> 10)
    shaSchedule n ((w16 + s0 + w7 + s1) :: w)

/-- One round on the eight working words. -/
def shaRound (v : List Word) (kw : Word × Word) : List Word :=
  match v with
  | [a, b, c, d, e, f, g, h] =>
    let s1 := e.rotateRight 6 ^^^ e.rotateRight 11 ^^^ e.rotateRight 25
    let ch := (e &&& f) ^^^ (~~~e &&& g)
    let t1 := h + s1 + ch + kw.1 + kw.2
    let s0 := a.rotateRight 2 ^^^ a.rotateRight 13 ^^^ a.rotateRight 22
    let mj := (a &&& b) ^^^ (a &&& c) ^^^ (b &&& c)
    [t1 + s0 + mj, a, b, c, d + t1, e, f, g]
  | _ => v

/-- The big-endian word of four bytes. -/
def beWord (b : List Nat) : Word := BitVec.ofNat 32 (b.foldl (fun acc x => acc * 256 + x % 256) 0)

/-- The words of a byte string, four bytes each. -/
def beWords : Nat → List Nat → List Word
  | 0, _ => []
  | n + 1, bs => beWord (bs.take 4) :: beWords n (bs.drop 4)

/-- One 64-byte block into the hash value. -/
def shaBlock (h : List Word) (blk : List Nat) : List Word :=
  let w := (shaSchedule 48 (beWords 16 blk).reverse).reverse
  let v := (List.zip shaK w).foldl shaRound h
  List.zipWith (· + ·) h v

/-- The blocks of a padded message. -/
def shaBlocks : Nat → List Nat → List Word → List Word
  | 0, _, h => h
  | n + 1, bs, h => shaBlocks n (bs.drop 64) (shaBlock h (bs.take 64))

/-- SHA-256 of a byte string. -/
def sha256 (msg : List Nat) : List Nat :=
  let len := msg.length
  let zeros := (119 - len % 64) % 64
  let padded := msg ++ [0x80] ++ List.replicate zeros 0 ++ (leBytes 8 (8 * len)).reverse
  (shaBlocks (padded.length / 64) padded shaH).flatMap wordBytes

/-- HMAC-SHA-256 with a 32-byte key (R64). -/
def hmacSha256 (key msg : List Nat) : List Nat :=
  let k := key ++ List.replicate (64 - key.length) 0
  let inner := sha256 (k.map (fun b => bxor b 0x36) ++ msg)
  sha256 (k.map (fun b => bxor b 0x5c) ++ inner)

end Sys2Proof.Machine
end

