-- ==== Sys2Proof/Machine/Tbl.lean ====
section
/-! DEFINITION. Sparse tables: the one shape in which the model holds a memory, a register file or any other numbered
store. A table lists only the entries that differ from what an unlisted key reads as, in rising order of key, so equal
stores are equal data. -/

namespace Sys2Proof.Machine

/-- Entries by key. -/
abbrev Tbl (α : Type) := List (Nat × α)

/-- What key `k` reads as; `d` says what an unlisted key reads as. -/
def Tbl.get {α : Type} (d : Nat → α) : Tbl α → Nat → α
  | [], k => d k
  | (k', v) :: t, k => if k = k' then v else Tbl.get d t k

/-- Put an entry in its place in the rising order of keys, in place of one with the same key. -/
def Tbl.ins {α : Type} (k : Nat) (v : α) : Tbl α → Tbl α
  | [] => [(k, v)]
  | (k', v') :: t =>
    if k < k' then (k, v) :: (k', v') :: t
    else if k = k' then (k, v) :: t
    else (k', v') :: Tbl.ins k v t

/-- Drop the entry of key `k`. -/
def Tbl.del {α : Type} (k : Nat) : Tbl α → Tbl α
  | [] => []
  | (k', v') :: t => if k = k' then Tbl.del k t else (k', v') :: Tbl.del k t

/-- Write `v` at key `k`. Writing what an unlisted key reads as removes the entry. -/
def Tbl.set {α : Type} [DecidableEq α] (d : Nat → α) (t : Tbl α) (k : Nat) (v : α) : Tbl α :=
  if v = d k then t.del k else t.ins k v

/-- Every key of the table is above `b`, and the keys rise. -/
def Tbl.risingFrom {α : Type} (b : Nat) : Tbl α → Bool
  | [] => true
  | (k, _) :: t => b ≤ k && Tbl.risingFrom (k + 1) t

/-- The canonical form: keys strictly rising, no entry equal to what an unlisted key reads as. -/
def Tbl.wf {α : Type} [DecidableEq α] (d : Nat → α) (t : Tbl α) : Bool :=
  t.risingFrom 0 && t.all (fun e => decide (e.2 ≠ d e.1))

/-- Change the entry of key `k`. -/
def Tbl.modify {α : Type} [DecidableEq α] (d : Nat → α) (t : Tbl α) (k : Nat) (f : α → α) : Tbl α :=
  t.set d k (f (t.get d k))

/-- Write the values of a list at consecutive keys from `k`. -/
def Tbl.setList {α : Type} [DecidableEq α] (d : Nat → α) (t : Tbl α) : Nat → List α → Tbl α
  | _, [] => t
  | k, v :: vs => Tbl.setList d (t.set d k v) (k + 1) vs

/-- The values at `n` consecutive keys from `k`. -/
def Tbl.slice {α : Type} (d : Nat → α) (t : Tbl α) (k n : Nat) : List α :=
  (List.range n).map (fun i => t.get d (k + i))

end Sys2Proof.Machine
end

