-- ==== Sys2Proof/Machine/Parts.lean ====
section
/-! DEFINITION. The parts of the head's state that no host register shows: counters, queues, buffers and procedures in
progress, chapter by chapter. What a register page shows stands in the register store of `Head`. -/

namespace Sys2Proof.Machine

/-! ## Start-up, recipe and stores (chapter 03) -/

/-- A directory copy in force (Table 03-3). -/
structure Directory where
  copyB : Bool
  seq : Nat
  selSlot : Nat
  fallback : Nat
  slotCount : Nat
  slotBase : Nat
  slotSize : Nat
  logBase : Nat
  logSize : Nat
  read : Nat
  sizeLog2 : Nat
  deriving DecidableEq, Repr

/-- A host load in progress (R70): its length, the words received (newest first) and the tick of the last of them. -/
structure HostLoad where
  len : Nat
  words : List Word
  lastTick : Nat
  deriving DecidableEq, Repr

/-- A recipe that passed every check (R61, R67): the header fields in use, the image's SAFETY words and its contents. -/
structure Recipe where
  level : Nat
  id : Word
  ver : Word
  wcLoad : Nat
  bellTicks : Nat
  recessTicks : Nat
  topoA : Nat
  topoB : Nat
  llUsed : Bool
  netSig : Word
  safeSig : Word
  safety : List Word
  content : Content
  fromHost : Bool
  slot : Nat
  deriving DecidableEq, Repr

/-- Where a reload stands (R73). -/
inductive ReloadPhase where
  | none
  | accepted (slot : Nat) (backSlot : Nat)
  | loading (slot : Nat) (backSlot : Nat) (fallback : Bool)
  | ready (slot : Nat) (r : Recipe) (fallback : Bool)
  deriving DecidableEq, Repr

/-- A flash operation under way (R80, R59); its effect comes with FLASH_OPERATION_DONE. -/
inductive FlashOp where
  | erase (addr : Nat)
  | program (addr : Nat) (data : List Word)
  | read (addr : Nat)
  | directory (copyB : Bool) (bytes : List Nat)
  deriving DecidableEq, Repr

/-- Chapter 03. `attempt` counts the loads tried since reset (R69); `want` are requests that reach beyond the head: bit 0 a
software reset, bit 1 key programming, bit 2 a trim commit. -/
structure Boot where
  dir : Option Directory
  hl : Option HostLoad
  hostImage : Option (List Word)
  reload : ReloadPhase
  recipe : Option Recipe
  held : Bool
  flop : Option FlashOp
  dirOp : Option FlashOp
  keyData : Tbl (Option Word)
  trimStage : Tbl Word
  keyTried : Bool
  attempt : Nat
  want : Nat
  deriving DecidableEq, Repr

/-! ## Bells, time (chapters 01, 05, 07) -/

/-- One time scale: `base` units of 2^-32 ns at tick `tick`, advancing by 5 × 2^32 + `f` each tick (R155, R156).
`prev` is what it was before the last change, for stamps of earlier ticks. -/
structure Scale where
  tick : Nat
  base : Nat
  f : Int
  prevTick : Nat
  prevBase : Nat
  prevF : Int
  deriving DecidableEq, Repr

/-- The Bell in progress (R19, R105, R131, R157). `instant` is its exact Machine Time instant in ns, `edge` its tick;
`cyclicCount` counts the cyclic Bells that have ended since the recipe came into force; `prev` is the Bell before, for a frame that
started in it and ends in this one (R18). -/
structure Bell where
  running : Bool
  rollcall : Bool
  instant : Nat
  edge : Nat
  prevInstant : Nat
  prevEdge : Nat
  prevRollcall : Bool
  first : Bool
  longLeft : Nat
  flags : Nat
  firstCyclic : Option Nat
  cyclicCount : Nat
  gatesOff : Bool
  deriving DecidableEq, Repr

/-- A trigger pin (R171): armed, its time in ns on its scale, the pulse's end, the unread stamp mark. -/
structure Trigger where
  armed : Bool
  late : Bool
  domain : Nat
  time : Nat
  pulseEnd : Option Nat
  unread : Bool
  deriving DecidableEq, Repr

/-- The departure of a long marker on the steering lane: BELL_TIME in ns and its stamp in Machine Time, units of
2^-32 ns (R160). -/
structure MarkerStamp where
  bellTime : Nat
  stamp : Nat
  deriving DecidableEq, Repr

/-- Steering (R160 to R167). `integral` is I in units of 2^-64, `offset` is O in ns, `latch` a latch
record read from a station and not yet used; `moved` says that HOLDOVER has moved to its candidate (R165), `started` that cyclic
operation has begun since reset, after which no record steps Machine Time (R161). -/
structure Steering where
  stamps : List MarkerStamp
  integral : Int
  offset : Int
  fNext : Option Int
  keptRun : Nat
  lostRun : Nat
  clampRun : Nat
  handover : List Int
  stepPending : Option Int
  readDue : Bool
  stepTries : Nat
  linkDelay : Nat
  linkSamples : List Int
  linkRetook : Bool
  syncArrival : Option Nat
  followSrc : Option Nat
  syncEven : Nat
  latch : Option (Nat × List Word)
  keptAt : Nat
  moved : Bool
  started : Bool
  deriving DecidableEq, Repr

/-- Chapter 07: the two adjustable scales, the steering, the trigger and PPS pins. -/
structure TimeUnit where
  mt : Scale
  lt : Scale
  steer : Steering
  trg : Vector Trigger 4
  ppsHigh : Option Nat
  ppsLast : Nat
  wdLevel : Bool
  deriving DecidableEq, Repr

/-! ## Network (chapters 04 to 06) -/

/-- What the wires of one lane have done so far (R84). `banks` are the frames it has received and its reader has not yet read (R14),
`lastBroken` says that the newest frame it has sent carries /V/ (R86), `echoBell` is the Bell of its last ECHO to a lost station
(R152). -/
structure Lane where
  enabled : Bool
  aligned : Bool
  eqSettled : Bool
  bells : Nat
  banks : List Frame
  lastBroken : Bool
  echoBell : Option Nat
  deriving DecidableEq, Repr

/-- A command slot's payload (R21): the words last committed, whether they have not left yet, the tick of the last commit and what
stood before the commits of that tick, which come too late for a departure in it (R225), and the last Bells of what the slot has sent,
each with its Bell, newest first (R460). -/
structure SlotTx where
  payload : List Word
  committed : Bool
  commitAt : Nat
  before : List Word × Bool
  history : List (Nat × List Word)
  deriving DecidableEq, Repr

/-- The newest report of a station (R104, R181): its payload, the Bell it came in, its stamp tick, and the Machine Time in ns of the shunt
sample and encoder latch that it reports (Table 07-5). -/
structure Report where
  payload : List Word
  bell : Nat
  tick : Nat
  valid : Bool
  sampled : Nat
  deriving DecidableEq, Repr

/-- Where a station stands in the resynchronisation of R149. -/
inductive Resync where
  | none
  | wait (untilBell : Nat)
  | retryAt (tick : Nat) (step : Nat)
  | echoes (step : Nat)
  | slots
  | start (bell : Nat)
  | probation (fromBell : Nat)
  | descriptor
  deriving DecidableEq, Repr

/-- Chapter 06, per station: what came of it in this Bell (`split`: the parts of R127 by channel; `badA`, `badB`: a frame in the
channel's window failed its CRC or its header, which Table 06-6 counts elsewhere than in NODE_MISS; `half`: the
first part of a descriptor read anew; `judged`: its report has been found missing; `matched`: in this Roll Call its descriptor has passed
R142), the procedure it is in, its event histories (Bell numbers, newest first), its runs. -/
structure Node where
  resync : Resync
  lost : Bool
  rejoin : Bool
  samples : List Int
  retook : Bool
  drifts : List Nat
  edges : List Nat
  crcs : List Nat
  edgeWarnAt : Option Nat
  missRun : Nat
  missA : Nat
  missB : Nat
  seenThisBell : Bool
  seenA : Bool
  seenB : Bool
  badA : Bool
  badB : Bool
  split : List (Nat × List Word)
  failedProb : Nat
  probDrift : Bool
  probEdges : Nat
  probMiss : Nat
  limp : Nat
  limpNext : Nat
  slotsOut : Bool
  inputs : List Word
  stale : Bool
  report : Report
  descriptor : List Word
  half : List Word
  record : List Word
  configLeft : List (Nat × Word)
  rawsw : Nat
  detainPending : Bool
  judged : Bool
  matched : Bool
  deriving DecidableEq, Repr

/-- Who waits for a Recess transaction. -/
inductive TxnSrc where
  | host (ticket : Nat)
  | reference
  | descriptor (part : Nat)
  | config
  | rawsw
  | resyncEcho
  | resyncSlots
  | resyncStart
  | rejoinEcho
  | join
  | unlock
  deriving DecidableEq, Repr

/-- A Recess transaction (R114, R124) or a Roll Call operation sent in a Recess pair (R149). `rcOp` is its operation
code, 0 for a register transaction. -/
structure Txn where
  src : TxnSrc
  ticket : Nat
  station : Nat
  op : Nat
  rcOp : Nat
  addr : Nat
  count : Nat
  data : List Word
  retries : Nat
  deriving DecidableEq, Repr

/-- A Recess transaction in flight: its pair, its lane, the Bell of its response window, its departure stamp in 0.8 ns;
`damaged` says that a frame in its window failed its CRC or its header (Table 06-6). -/
structure Flight where
  txn : Txn
  lane : Nat
  pair : Nat
  dueBell : Nat
  departed : Nat
  damaged : Bool
  deriving DecidableEq, Repr

/-- The steps of Table 06-1. -/
inductive RcStep where
  | markers
  | probe
  | assign
  | echo
  | descLow
  | descHigh
  | await
  | slots
  | table
  | reassign
  | ended
  deriving DecidableEq, Repr

/-- Roll Call on one lane (R136 to R143). `pos` indexes the lane's expected positions; `hold` is the station the node
under test has been given; `held` is the ticket of a descriptor READ that is to be repeated; `reading` says that the READ sent is
that of a steering sample (R160). -/
structure RcLane where
  step : RcStep
  pos : Nat
  hop : Nat
  hold : Nat
  uid : Nat
  seq : Nat
  sent : Bool
  sentAt : Nat
  repeats : Nat
  silent : Nat
  samples : List Int
  retook : Bool
  delay : Nat
  prevDelay : Nat
  prevFwd : Nat
  held : Option Nat
  reading : Bool
  deriving DecidableEq, Repr

/-- Roll Call as a whole. `requested` waits for the next Bell edge, `byRequest` says that the running one was requested (R72,
R153); `first` says that its first Bell is still to come. -/
structure RollCall where
  active : Bool
  requested : Bool
  byRequest : Bool
  first : Bool
  bells : Nat
  lanes : Vector RcLane 8
  startsLeft : Nat
  restartAt : Option Nat
  deriving DecidableEq, Repr

/-- Chapters 04 to 06: the Timetable in force and everything that runs on it. Slots are keyed lane × 256 + slot; `tx` holds
the last frames sent on each lane, newest first. -/
structure Net where
  lanes : Vector Lane 10
  tx : Tbl (List Frame)
  slots : Tbl SlotTx
  nodes : Tbl Node
  waiting : List Txn
  flights : List Flight
  rc : RollCall
  deriving DecidableEq, Repr

/-! ## Scheduler (chapter 09) -/

/-- A task beyond its descriptor, state and flag registers: since when it is ready, its last releases (tick, Machine Time of
the DEADLINE in ns, whether a window close released it) and the ticks of its last commits, newest first (R219), whether a disable came while it ran
(R222) or from its node (R221), and whether an RX release has come since its last BELL release and before its start (R197). -/
structure TaskX where
  readySince : Nat
  rels : List (Nat × Nat × Bool)
  commits : List Nat
  discard : Bool
  byNode : Bool
  ranOn : Option Nat
  rxValid : Bool
  rxMiss : Nat
  latched : Bool
  queued : Bool
  deriving DecidableEq, Repr

/-- Chapter 09. `queues` holds, per queue and level, the privileged tasks waiting in arrival order (R211, R212);
`privUsed` the privileged core cycles of each engine in this Bell (R213); `load` the busy and cyclic cycles of the last
256 Bells, newest first (R223). -/
structure Sched where
  tasks : Tbl TaskX
  order : Nat
  queues : Tbl (List Nat)
  privUsed : Vector Nat 16
  load : List (Nat × Nat)
  busyNow : Nat
  cyclicNow : Nat
  routes : List UnitRoute
  deriving DecidableEq, Repr

/-! ## Loop Engines (chapter 08) -/

/-- What an engine is doing (LE_STAT.STATE). -/
inductive EngineMode where
  | idle | running | parked | halted | faulted
  deriving DecidableEq, Repr

/-- A hardware loop (R192): the first and last instruction of its body, the runs left, the iteration, and the call level
it opened at. -/
structure HwLoop where
  first : Nat
  last : Nat
  left : Nat
  iter : Nat
  level : Nat
  deriving DecidableEq, Repr

/-- What the last instruction leaves for the stalls of Table 08-13: the sum registers, pointers, flags and LCNT it
wrote. -/
structure Hazard where
  sums : List Nat
  ptrs : List Nat
  flags : Bool
  lcnt : Bool
  deriving DecidableEq, Repr

/-- One Loop Engine: the registers of Table 08-1, the stacks, the loop cache, the cycle count and budget, the windows of
R182, the staging bank, whether LE_CTL.HALT stopped it, the unit mailbox and CTRL of the axis as they stood at the task's start (R256), the tick up to which
PARK's wait is counted, its memories (Table 08-2), and the words with a single-bit error and with an uncorrectable one, each as
memory (0 program, 1 X, 2 Y, 3 C) and offset (R202, R203). -/
structure Engine where
  mode : EngineMode
  k : Vector W24 8
  sum : Vector (BitVec 56) 4
  ap : Vector (BitVec 16) 8
  am : Vector (BitVec 16) 8
  ba : Vector (BitVec 16) 8
  ln : Vector (BitVec 16) 8
  lcnt : BitVec 16
  fl : BitVec 6
  rnd : BitVec 2
  fidx : BitVec 16
  tid : Nat
  axn : Nat
  bseq : Nat
  pc : Nat
  calls : List Nat
  loops : List HwLoop
  cache : Option (Nat × Nat)
  hazard : Hazard
  cycles : Nat
  budget : Option Nat
  held : Bool
  bench : Bool
  released : Bool
  xWin : Nat × Nat
  yWin : Nat × Nat
  cWin : Nat × Nat
  stage : List Word
  dirty : Bool
  mail : Tbl W24
  ctrl : Nat
  parkTick : Nat
  prog : Tbl Word
  xRam : Tbl W24
  yRam : Tbl W24
  cRam : Tbl W24
  flawed : List (Nat × Nat)
  bad : List (Nat × Nat)
  deriving DecidableEq, Repr

/-! ## Motion (chapter 11)

Speeds and accelerations inside the motion law have 24 fraction bits; positions are raw Q32.16 (notes/assumptions/32.md). -/

/-- A ramp (R260): the speed, the sign of its last value other than 0, the Bells held, whether it holds now, and the change
of its last step. -/
structure Ramp where
  r : Int
  last : Int
  hold : Nat
  held : Bool
  acc : Int
  deriving DecidableEq, Repr

/-- An entry of the move queue (R267). `target` is raw Q32.16, absolute for TYPE 0 and a distance for TYPE 1; `ready` is
the Bell in which it became READY. -/
structure MoveEntry where
  id : Nat
  typ : Nat
  dirm : Nat
  blend : Bool
  target : Int
  vel : Int
  acc : Nat
  dec : Nat
  ready : Option Nat
  deriving DecidableEq, Repr

/-- A stop ramp in progress (R270): its deceleration, whether the remainder is kept, the MSTATE it ends in. -/
structure StopRamp where
  dec : Nat
  keep : Bool
  after : Nat
  deriving DecidableEq, Repr

/-- The running or interrupted entry: its target on the axis, the signed distance left, the end speed once decided, whether its
deceleration has begun (R268, R269), and a stop that waits for its end, whose ramp would pass the target (R270). -/
structure MoveRun where
  entry : MoveEntry
  target : Int
  left : Int
  vend : Option Int
  braking : Bool
  halt : Option StopRamp
  deriving DecidableEq, Repr

/-- The motion law of an axis. `p` is the measured position, `w` the measured speed in Q16.16 counts per Bell; `posSet` is a
value waiting for the Bell edge (R273); `halted` holds 1 after a stop by a command and 2 after one by the island, as bits; `preset`
stands from a transfer into CTRL 1 to its first run (R272); `limitDir` is the direction of the limit it is held at (R266); `owed` is the
CTRL of the last transfer until a run of the motion task has ended on it, and whether its presets apply again (R279). -/
structure Motion where
  p : Int
  w : Int
  valid : Bool
  ramp : Ramp
  wf : Int
  integ : Int
  preset : Bool
  vm : Int
  pm : Int
  modelRun : Nat
  feRun : Nat
  pRef : Int
  v : Int
  aff : Int
  vcmd : Int
  queue : List MoveEntry
  pushed : List MoveEntry
  run : Option MoveRun
  remain : Option MoveRun
  stop : Option StopRamp
  halted : Nat
  limited : Bool
  posSet : Option Int
  posOffset : Int
  yPrev : Int
  level : Nat
  still : Nat
  energise : Nat
  lossRun : Nat
  lastPRef : Int
  limitDir : Int
  owed : Option (Nat × Bool)
  deriving DecidableEq, Repr

/-! ## Masters, cams, encoders, captures (chapter 12) -/

/-- A MASTER_PUB as received (Table 12-2). `seq` is its publication count. -/
structure MasterPub where
  seq : Nat
  pstate : Nat
  bt : Nat
  t0 : Nat
  m0 : Int
  v0 : Int
  a0 : Int
  deriving DecidableEq, Repr

/-- A virtual master (R280 to R288): m raw Q32.16, v Q16.16, a Q8.24, the generator's ramp, its command, the remainder of
the scaling, the newest publication and the Bell at which holdover began. -/
structure Vm where
  m : Int
  v : Int
  a : Int
  ramp : Ramp
  running : Bool
  dec : Nat
  stopAt : Option MoveRun
  remainder : Int
  lastSrc : Int
  pub : Option MasterPub
  pubSeq : Nat
  unsent : Bool
  loose : Bool
  resync : Bool
  holdover : Option Nat
  lost : Bool
  istop : Bool
  pending : Nat
  deriving DecidableEq, Repr

/-- The front end of a CTRL 3 axis (R292 to R299). `owedPhi` and `owedAdj` are Δφ and ADJ since the motion task last started (R307). -/
structure Follow where
  phi : Int
  remainder : Int
  lastM : Int
  dphi : Int
  cam : Option Nat
  pendCam : Option Nat
  camAtEdge : Option Nat
  kappa : Nat
  wraps : Int
  adj : Int
  switched : Bool
  ended : Bool
  trigger : Option Nat
  request : Nat
  reqStamp : Nat
  pend : Int
  markSeen : Bool
  marks : List Nat
  owedPhi : Int
  owedAdj : Int
  deriving DecidableEq, Repr

/-- A master encoder (R300 to R305): the accepted levels, the run of counts against DIR, the tick of the last accepted
edge and of the last B change, the ticks of the last counted edges in one direction (newest first), the counts latched at
the last Bell edges (newest first), the count extended at the last Bell edge. -/
structure Enc where
  a : Bool
  b : Bool
  revRun : Nat
  lastEdge : Option Nat
  lastB : Option Nat
  bBefore : Bool
  edges : List Nat
  dirNow : Bool
  window : List Nat
  extLatched : Int
  dirRaised : Bool
  interval : Bool
  deriving DecidableEq, Repr

/-- A capture input (R306): the host FIFO of (NS word, SEC word, count), oldest first, the tick of its last edge, and whether the last read of
CAP_NS latched an entry. -/
structure Capture where
  fifo : List (Word × Word × Word)
  lastEdge : Option Nat
  held : Option Bool
  deriving DecidableEq, Repr

/-! ## State table, log (chapters 14, 20) -/

/-- What no MST register shows: the event set of R329 in order of first arrival, a forced state, a pass still running, the
table's first pass still due (R333), the tick of the last pass of the table, and that of the last millisecond seen. -/
structure Mst where
  events : List Nat
  force : Option Nat
  firstPass : Bool
  lastPass : Nat
  lastMs : Nat
  deriving DecidableEq, Repr

/-- A log record before its SEQ and CRC (Table 20-2). `tick` is when it arose. -/
structure LogRec where
  typ : Nat
  time : Nat
  code : Nat
  rep : Nat
  data0 : Nat
  data1 : Nat
  tick : Nat
  deriving DecidableEq, Repr

/-- Chapter 20: the records waiting, oldest first; where the next record goes and whether that sector is erased; the newest
epoch known (R398); the tick of the last checkpoint; the counters and runs of telemetry and scrub; the temperature
events that stand; the corrections in force about the trim values (offset and gain, swing and offset) and the lanes' next. -/
structure Log where
  buf : List LogRec
  sector : Nat
  used : Nat
  seq : Nat
  ready : Bool
  skip : Nat
  resumed : Bool
  epoch : Nat
  claimed : Bool
  lastCheckpoint : Nat
  minuteMs : Nat
  hotMs : Nat
  railRuns : List Nat
  warm : Bool
  hot : Bool
  scrubStart : Nat
  scrubCorr : Nat
  adcCorr : List (Int × Int)
  laneCorr : List (Int × Int)
  laneNext : List (Int × Int)
  deriving DecidableEq, Repr

/-! ## Pins (chapter 02) -/

/-- The level of SVC_EN, and what the head drives on HBT_OUT. The level of every output ball (Table 02-4) is a function of the
state, `State.ball` and `Island.ball` of Machine/Balls.lean. -/
structure Pins where
  svcEn : Bool
  hbtOut : Bool
  deriving DecidableEq, Repr

/-! ## Axes (chapter 10) -/

/-- A Placement Test (R251 to R253): the Bells of the present step, its accumulators, the results so far, whether the steps
MOVE and SPIN were asked for, whether a repetition scattered or a result left its range. -/
structure Placement where
  active : Bool
  abort : Bool
  bridge : Bool
  bell : Nat
  acc : List Int
  amp : Int
  reps : List Int
  angle : Nat
  c0 : Int
  rs : Nat
  ld : Nat
  lq : Nat
  psi : Nat
  enc : Nat
  move : Bool
  spin : Bool
  bad : Nat
  deriving DecidableEq, Repr

/-- An axis beyond its registers and its task's context: the count c (raw Q32.16) and the report it was taken from (POS,
Bell), the electrical angle at the first sample and the speed in 2^-47 turn per Bell (R227), the instants of its catch
starts in ns (R247), the derived set waiting for a Bell edge, the motor data written since and whether their derivation runs
(R239), the ENC flag of the last report, FLT_ACK (R351), p at the last Bell edge and
the Bells for which it has not changed (R352), and the fault bits set in the tick of the newest (Table 10-8). -/
structure Axis where
  count : Int
  lastPos : Option (Int × Nat)
  theta : Nat
  w : Int
  catches : List Nat
  derived : Option (List (Nat × W24))
  motorData : List (Nat × Word)
  deriving_ : Bool
  encFlag : Bool
  fltAck : Bool
  pLast : Int
  pStill : Nat
  newFaults : Nat × Nat
  pt : Placement
  deriving DecidableEq, Repr

/-! ## Process loops (chapter 13) -/

/-- A relay auto-tune in progress (R316): its phase, the samples and Bells it has run, PV0, the samples of phase 1, the step
and dead-time samples, the relay output, the cycle in progress (start, highest, lowest PV) and the cycles measured
(samples, PV span). `pv0` is the sum of the 64 samples; `neg` says that the response ran against the step. -/
structure Tune where
  phase : Nat
  startBell : Nat
  k : Nat
  pv0 : Int
  window : List Int
  up : Bool
  dead : Option Nat
  high : Bool
  started : Bool
  cycleAt : Nat
  hi : Int
  lo : Int
  cycles : List (Nat × Int)
  prevMode : Nat
  stepAt : Nat
  neg : Bool
  deriving DecidableEq, Repr

/-- A value in double precision (R317): m × 2^e, m of 53 bits. Its exponent has no bound, which the figures of a tune never meet. -/
structure Dbl where
  m : Int
  e : Int
  deriving DecidableEq, Repr

/-- The figures of a tune that ended OK before they are rounded (R317, R318): B0, B1, K and Y0 as real values, τ in seconds, θ in
samples. -/
structure Fit where
  b0 : Dbl
  b1 : Dbl
  k : Dbl
  y0 : Dbl
  tau : Dbl
  theta : Nat
  deriving DecidableEq, Repr

/-- A coefficient set that COMMIT asked for (R313), taken at the first sample instant after the Bell edge `edge`; `model` says that
APPLY wrote a model with it (R318). -/
structure PlSet where
  coef : List Int
  form : Nat
  ks : Nat
  edge : Nat
  model : Bool
  deriving DecidableEq, Repr

/-- What a release owes a loop until the process task's run (R308, R309): its channel word when the report is valid, whether the Bell is a
sample instant, the Bell. -/
structure PlOwed where
  word : Option Nat
  due : Bool
  bell : Nat
  deriving DecidableEq, Repr

/-- A process loop (R309 to R321). `e` and `u` are the histories, newest first; `coef`, `form` and `ks` are the set in force, `coef` B0 to
B3 and A1 to A3; `commit` is a set that waits; `model` holds the words of PL_MODEL_K, A, Y0 and CFG in force and `modelNew` says that newer
ones wait; `request` is a mode that waits for its sample instant, with the Bell edge it took effect at; `delay` is the delay line and
`delayAt` its next word. -/
structure Loop where
  e : List Int
  u : List Int
  spAct : Int
  pvs : Int
  sum : Int
  cnt : Nat
  ym : Int
  res : Int
  delay : List Int
  delayAt : Nat
  noReport : Nat
  resRun : Nat
  devOut : Bool
  out : Nat
  en : Bool
  coef : List Int
  form : Nat
  ks : Nat
  commit : Option PlSet
  model : List Nat
  modelNew : Bool
  request : Option (Nat × Option Nat)
  owed : Option PlOwed
  chStat : Nat
  tune : Option Tune
  abortTune : Bool
  fit : Option Fit
  deriving DecidableEq, Repr

/-! ## DC bus groups (chapter 15) -/

/-- A DC bus group (R355 to R359): the last periods of the chopper node with valid reports, newest first (CHOP applied,
CHOP_I seen, VDC in units of 0.1 V scaled by 2^23/VFS), the Bells without such a report, the Bells left of a clearing. -/
structure Dcb where
  window : List (Nat × Bool × Int)
  missing : Nat
  clearLeft : Option Nat
  clrPending : Bool
  failClr : Bool
  deriving DecidableEq, Repr

/-! ## Safety (chapter 16) -/

/-- One safety input as the island holds it (R367 to R370): the filter's run of samples against the accepted level, the
accepted level, the fault kind, the evaluations of disagreement of its pair, the steps of a DISC clearing seen (1 both
low, 2 then both high), and whether it passed the test that clears its fault. -/
structure SafeIn where
  run : Nat
  level : Bool
  fault : Nat
  disc : Nat
  stage : Nat
  passed : Bool
  deriving DecidableEq, Repr

/-- One safe output (R372 to R378): whether the functions let it be on, the level at its ball, its stop request code, its SS1
count, its lock-out cause, the evaluations its readback has been wrong while off and while on, the evaluations since it
switched on, the evaluations its readback has read low, and its last readback level. -/
structure SafeOut where
  on : Bool
  ball : Bool
  req : Nat
  ss1 : Option Nat
  lock : Nat
  shortRun : Nat
  openRun : Nat
  onFor : Nat
  lowFor : Nat
  srb : Bool
  deriving DecidableEq, Repr

/-- The safety island (chapter 16). It keeps its state through every core reset (R12, R387). `waitEdge` marks outputs that a long reset unlocked (R380);
`press` is a reset press waiting for its evaluation (0 edge, 1 long); `events` are the events that its next record carries,
as sub-code × 256 + index; `testAge` counts the evaluations of the present test interval and `slotsDone` marks the slots that it has had
(R372). -/
structure Island where
  powered : Bool
  tested : Bool
  param : Option (List Word)
  sig : Word
  role : Option Bool
  paramStop : Bool
  wdStop : Bool
  supplyStop : Bool
  fault : Nat
  inputs : Vector SafeIn 8
  raw : Nat
  outs : Vector SafeOut 4
  demand : Nat
  restart : Nat
  waitEdge : Nat
  fsWarn : Bool
  fsSag : Bool
  warnRun : Nat
  sagRun : Nat
  fsCode : Nat
  fsVolt : Nat
  wdSeen : Nat
  wdQuiet : Nat
  wdGood : Nat
  partnerSeen : Bool
  partnerQuiet : Nat
  press : Option Nat
  accepted : Nat
  ignored : Nat
  testDone : Nat
  testAge : Nat
  slotsDone : Nat
  skipped : Nat
  sfltLow : Bool
  wdOut : Nat
  seq : Nat
  earlySeen : Nat
  record : List Word
  events : List Nat
  deriving DecidableEq, Repr

/-- The core's side of the island (R378, R382 to R387): the committed codes, the checks of Table 16-7 (`badIvl` and `badRec` are
runs, `soundSince` the tick since which line and records are sound), the Bells that each output's axes have stood still. -/
structure SafeCore where
  codes : List Nat
  lastChange : Option Nat
  badIvl : Nat
  badRec : Nat
  soundSince : Option Nat
  still : List Nat
  deriving DecidableEq, Repr

/-- What runs between core and island on wires: the level changes of the core watchdog line and whether it lives. -/
structure Wires where
  wdChanges : Nat
  wdAlive : Bool
  wdDropped : Bool
  early : Nat
  ack : Nat
  askOff : Bool
  deriving DecidableEq, Repr

/-! ## What outlives a reset of the head (chapters 02, 03) -/

/-- The one-time programmable key store (R64 to R66): its eight key words, KEY_ID, the lock word set, and whether a programming
failed, after which the words are those read back. -/
structure KeyStore where
  words : List Word
  id : Word
  locked : Bool
  fault : Bool
  deriving DecidableEq, Repr

/-- The stores: the flash by byte address (an erased byte reads 0xFF), the key store, the trim store by word, the unique ID. -/
structure Store where
  flash : Tbl Byte
  key : KeyStore
  trim : Tbl Word
  uid : BitVec 64
  deriving DecidableEq, Repr

/-- The test port (R51): the instruction loaded last, the boundary register as last loaded, one cell for each ball of the chain, the data
register captured last, and whether BOOT_MODE was sampled as 0b11. -/
structure TestPort where
  instr : TapOp
  boundary : BitVec 48
  data : Nat
  maintenance : Bool
  deriving DecidableEq, Repr

/-- The balls follow the boundary register: EXTEST or CLAMP, which act only with BOOT_MODE sampled as 0b11 (R51). -/
def TestPort.drives (t : TestPort) : Bool := t.maintenance && (t.instr == .extest || t.instr == .clamp)

/-- The balls are released: HIGHZ (R51). -/
def TestPort.floats (t : TestPort) : Bool := t.maintenance && t.instr == .highz

/-! ## Redundancy (chapter 17) -/

/-- A mirror record waiting for its edge: TYPE, INDEX, BSEQ of its sample, content words. -/
structure MirrorRec where
  typ : Nat
  index : Nat
  bseq : Nat
  words : List Word
  deriving DecidableEq, Repr

/-- A station being joined (R404): the step, the ECHO samples, the Bells of clean reports. -/
structure JoinRun where
  step : Nat
  samples : List Int
  good : Nat
  joined : Bool
  retook : Bool
  tried : Bool
  limp : Bool
  deriving DecidableEq, Repr

/-- Chapter 17 beyond the RED registers. -/
structure Red where
  newest : Option Nat
  heardLL : Bool
  heardLLPrev : Bool
  heardPin : Bool
  heardPinPrev : Bool
  quietLL : Option Nat
  quietPin : Option Nat
  checkedBell : Option Nat
  listenUntil : Option Nat
  claimUntil : Option Nat
  claimRival : Option (Nat × Nat)
  backoffUntil : Option Nat
  lostUntil : Option Nat
  claimAtEdge : Bool
  yieldAtEdge : Bool
  handoffBell : Option Nat
  sync : Option (Nat × Nat × Nat)
  join : Tbl JoinRun
  latches : List MirrorRec
  waiting : List MirrorRec
  fresh : List (Nat × Nat)
  grid : List Int
  gridSum : Int
  gridCnt : Nat
  lastDiverge : Option Nat
  identOk : Bool
  writesOut : List (Nat × Word × Nat)
  inbox : List MirrorRec
  pinEarly : Bool
  lastBeat : List Word
  timeState : List Word
  lineSeq : Nat
  reloadOut : Option (Nat × Nat)
  deriving DecidableEq, Repr

/-! ## Acquisition (chapter 18) -/

/-- The acquisition engine beyond its registers (R415 to R424). `turned` counts the passes of the pre-trigger area that a snapshot has
answered (R420). -/
structure Acq where
  mem : Tbl Word
  armPending : Bool
  force : Bool
  armBell : Nat
  wr : Nat
  stored : Nat
  samples : Nat
  postLeft : Nat
  start : Nat
  trigPos : Nat
  trigStamp : Nat
  cause : Nat
  noTrig : Bool
  trunc : Bool
  full : Bool
  last : List (Option Word)
  prev : Option Word
  dtBase : Nat
  snapWord : Nat
  turned : Nat
  deadFrom : Option Nat
  dead : Nat
  seq : Nat
  events : List Nat
  thenDone : Bool
  deriving DecidableEq, Repr

/-! ## Host port (chapter 19) -/

/-- A request as the host sent it (Table 19-1). -/
structure HostReq where
  op : Nat
  count : Nat
  addr : Nat
  station : Nat
  words : List Word
  deriving DecidableEq, Repr

/-- A ticket (Table 19-2, R437). `state` is 0 FREE, 1 RESERVED, 2 PENDING, 3 DONE, 4 READ. -/
structure Ticket where
  state : Nat
  head : Bool
  op : Nat
  status : Nat
  count : Nat
  data : List Word
  shadow : Bool
  idx : Nat
  req : Option HostReq
  deriving DecidableEq, Repr

/-- Chapter 19: the tickets, the free ones in order of release (longest free first), the reserved one, the register
requests taken and not committed, the challenge with its tick, the lock, the idle time's start, the words last driven, the status of the last
write (Table 19-4). -/
structure HostPort where
  tickets : Tbl Ticket
  free : List Nat
  reserved : Option Nat
  fifo : List Nat
  up : Bool
  chalTick : Option Nat
  lockFrom : Option Nat
  idleFrom : Nat
  driven : List Word
  last : Nat
  deriving DecidableEq, Repr

end Sys2Proof.Machine
end

