-- ==== Sys2Proof/Machine/Flags.lean ====
section
/-! DEFINITION. The arithmetic of a Loop Engine: saturation, transfer, rounding (R175 to R179), the results of the
P-class and class-A operations (R186, R188, R195) and every flag computation (R191). -/

namespace Sys2Proof.Machine

/-- A sum register from an exact sum, saturated once (R177), and whether it saturated. -/
def sat56 (x : Int) : BitVec 56 × Bool :=
  if x > 2 ^ 55 - 1 then (BitVec.ofInt 56 (2 ^ 55 - 1), true)
  else if x < -(2 ^ 55) then (BitVec.ofInt 56 (-(2 ^ 55)), true)
  else (BitVec.ofInt 56 x, false)

/-- The exact product of two operands, shifted left by one bit (R176). -/
def product (a b : W24) : Int := 2 * (a.toInt * b.toInt)

/-- A value lies outside the Q1.23 range: a sum register holding it is wide (R175). -/
def outside (x : Int) : Bool := decide (x ≥ 2 ^ 47) || decide (x < -(2 ^ 47))

/-- H of a sum register. -/
def sumH (s : BitVec 56) : W24 := s.extractLsb' 24 24

/-- L of a sum register. -/
def sumL (s : BitVec 56) : W24 := s.extractLsb' 0 24

/-- A sum register with H, G of H's sign and L cleared (R189). -/
def fromH (w : W24) : BitVec 56 := BitVec.ofInt 56 (w.toInt * 2 ^ 24)

/-- The transfer of a sum register into 24 bits and whether it clipped (R178). -/
def transfer (s : BitVec 56) (nclip : Bool) : W24 × Bool :=
  if outside s.toInt && !nclip then
    (if s.toInt < 0 then 0x800000 else 0x7FFFFF, true)
  else (sumH s, false)

/-- Rounding of a saturated sum under the rounding mode (R179): ties to even with RM 0, halves up with RM 1. -/
def round56 (s : BitVec 56) (rm : Bool) : BitVec 56 × Bool :=
  let l := (sumL s).toNat
  let up := if rm then decide (0x800000 ≤ l)
    else decide (0x800000 < l) || (decide (l = 0x800000) && s.getLsbD 24)
  sat56 (s.toInt - l + if up then 2 ^ 24 else 0)

/-- The flag word: Z, N, W of a value, O of the instruction, T sticky, F kept (R191). -/
def flagWord (old : BitVec 6) (x : Int) (o t : Bool) : BitVec 6 :=
  BitVec.ofNat 6 (b2n (decide (x = 0)) + 2 * b2n (decide (x < 0)) + 4 * b2n (outside x) + 8 * b2n o +
    16 * b2n (old.getLsbD 4 || t) + 32 * b2n (old.getLsbD 5))

/-- The flag word with F set (R195). -/
def withF (f : BitVec 6) : BitVec 6 := f ||| 0x20

/-- The flag word with T set. -/
def withT (f : BitVec 6) : BitVec 6 := f ||| 0x10

/-- A condition of Table 08-11 on the flags; none for the illegal code. -/
def condHolds (f : BitVec 6) (c : Nat) : Option Bool :=
  let z := f.getLsbD 0
  let n := f.getLsbD 1
  match c with
  | 0 => some true
  | 1 => some z
  | 2 => some (!z)
  | 3 => some n
  | 4 => some (!n)
  | 5 => some (!z && !n)
  | 6 => some (z || n)
  | 7 => some (f.getLsbD 2)
  | 8 => some (!f.getLsbD 2)
  | 9 => some (f.getLsbD 3)
  | 10 => some (!f.getLsbD 3)
  | 11 => some (f.getLsbD 4)
  | 12 => some (!f.getLsbD 4)
  | 13 => some (f.getLsbD 5)
  | 14 => some (!f.getLsbD 5)
  | _ => none

/-- The shift that makes bits [47:46] of a nonzero value differ (SCALE, Table 08-8). -/
def scaleShift (x : Int) : Int :=
  if x = 0 then 0
  else
    let m : Nat := if x < 0 then (-x - 1).toNat else x.toNat
    46 - (if m = 0 then (-1 : Int) else (Nat.log2 m : Int))

/-- A shift by a signed count: left saturating, right arithmetic (SHV, SCALE). -/
def shiftBy (x : Int) (n : Int) : BitVec 56 × Bool :=
  if n ≥ 0 then sat56 (x * 2 ^ n.toNat) else (BitVec.ofInt 56 (x / 2 ^ (-n).toNat), false)

/-- Truncating quotient of QUOT in H units and whether it saturated (Table 08-8). -/
def quotH (x : Int) (k : W24) : Int × Bool :=
  let d := k.toInt
  if d = 0 then (if x > 0 then 0x7FFFFF else if x < 0 then -0x800000 else 0, true)
  else
    let q := Int.tdiv x (2 * d)
    (satInt 24 q, decide (satInt 24 q ≠ q))

/-- What a class-A operation does: the new SUMd, the new Ks, the value its flags describe, O and T. `none` in a place
means not written or no flags. -/
structure AResult where
  sum : Option (BitVec 56)
  k : Option W24
  flags : Option Int
  o : Bool
  t : Bool
  deriving DecidableEq, Repr

/-- A result in SUMd with its flags. -/
def AResult.inSum (r : BitVec 56 × Bool) : AResult := ⟨some r.1, none, some r.1.toInt, r.2, r.2⟩

/-- Class A (Table 08-8). `d` is SUMd, `ss` is SUMs, `ks` is Ks, `rm` the rounding mode. -/
def aluA (op : AOp) (d ss : BitVec 56) (ks : W24) (imm : Nat) (rm : Bool) : AResult :=
  let x := d.toInt
  let y := ss.toInt
  match op with
  | .zero => .inSum (0, false)
  | .copy => .inSum (ss, false)
  | .add => .inSum (sat56 (x + y))
  | .sub => .inSum (sat56 (x - y))
  | .neg => .inSum (sat56 (-x))
  | .abs => .inSum (sat56 (x.natAbs : Int))
  | .clip =>
    if outside x then .inSum (BitVec.ofInt 56 (if x < 0 then -(2 ^ 47) else 2 ^ 47 - 1), true)
    else .inSum (d, false)
  | .round => .inSum (round56 d rm)
  | .shl => .inSum (sat56 (x * 2 ^ imm))
  | .shr => .inSum (BitVec.ofInt 56 (x / 2 ^ imm), false)
  | .shv => .inSum (shiftBy x (max (-56) (min 56 ks.toInt)))
  | .scale =>
    let n := scaleShift x
    let r := shiftBy x n
    { AResult.inSum r with k := some (BitVec.ofInt 24 n) }
  | .cmp => ⟨none, none, some (x - y), false, false⟩
  | .max => .inSum (if x < y then ss else d, false)
  | .min => .inSum (if y < x then ss else d, false)
  | .limit =>
    let m := (max 0 ks.toInt) * 2 ^ 24
    if x > m then .inSum (BitVec.ofInt 56 m, true)
    else if x < -m then .inSum (BitVec.ofInt 56 (-m), true)
    else .inSum (d, false)
  | .getg => ⟨none, some (BitVec.ofInt 24 (d.extractLsb' 48 8).toInt), none, false, false⟩
  | .putg => ⟨some (BitVec.append (ks.extractLsb' 0 8) (d.extractLsb' 0 48)), none, none, false, false⟩
  | .and => .inSum (fromH (sumH d &&& ks), false)
  | .or => .inSum (fromH (sumH d ||| ks), false)
  | .xor => .inSum (fromH (sumH d ^^^ ks), false)
  | .quot =>
    let q := quotH x ks
    .inSum (BitVec.ofInt 56 (q.1 * 2 ^ 24), q.2)

/-- The neighbour of a register in the paired forms (Table 08-7). -/
def pairK (i : Fin 8) : Fin 8 := if i.val % 2 = 0 then ⟨(i.val + 1) % 8, by omega⟩ else ⟨i.val - 1, by omega⟩
def pairSum (d : Fin 4) : Fin 4 := if d.val % 2 = 0 then ⟨(d.val + 1) % 4, by omega⟩ else ⟨d.val - 1, by omega⟩

/-- What a P-class operation does: the new SUMd and SUMd', the value its flags describe, O, T, and whether a find
updated. -/
structure PResult where
  sum : Option (BitVec 56)
  sum2 : Option (BitVec 56)
  flags : Option Int
  o : Bool
  t : Bool
  find : Bool
  deriving DecidableEq, Repr

/-- One exact sum in SUMd, saturated once. -/
def PResult.one (x : Int) : PResult :=
  let r := sat56 x
  ⟨some r.1, none, some r.1.toInt, r.2, r.2, false⟩

/-- One exact sum, saturated, then rounded (PRODN, PACCN). -/
def PResult.rounded (x : Int) (rm : Bool) : PResult :=
  let r := sat56 x
  let q := round56 r.1 rm
  ⟨some q.1, none, some q.1.toInt, r.2 || q.2, r.2 || q.2, false⟩

/-- Two sums (PPAIR, PPACC): the flags describe SUMd, O either. -/
def PResult.two (x y : Int) : PResult :=
  let r := sat56 x
  let q := sat56 y
  ⟨some r.1, some q.1, some r.1.toInt, r.2 || q.2, r.2 || q.2, false⟩

/-- The value a find compares: Ki, or |Ki| with the most negative operand given as 0x7F_FFFF (R195). -/
def findValue (k : W24) (abs : Bool) : W24 :=
  if abs then (if k = 0x800000 then 0x7FFFFF else BitVec.ofInt 24 (k.toInt.natAbs : Int)) else k

/-- FMAX and FMIN (R195). -/
def findStep (s : BitVec 56) (k : W24) (abs isMax nclip : Bool) : PResult :=
  let v := findValue k abs
  let t := transfer s nclip
  let up := if isMax then decide (v.toInt > t.1.toInt) else decide (v.toInt < t.1.toInt)
  if up then ⟨some (fromH v), none, some (fromH v).toInt, false, t.2, true⟩
  else ⟨none, none, some s.toInt, false, t.2, false⟩

/-- The P-class operations (Table 08-7) on the operand values: SUMd, SUMd', Ki, Kj, Ki', Kj', the J field. -/
def aluP (op : POp) (d d2 : BitVec 56) (ki kj ki2 kj2 : W24) (j : Fin 8) (rm nclip : Bool) : PResult :=
  let x := d.toInt
  match op with
  | .load => ⟨none, none, none, false, false, false⟩
  | .prod => .one (product ki kj)
  | .pacc => .one (x + product ki kj)
  | .psub => .one (x - product ki kj)
  | .prod2 => .one (product ki kj + product ki2 kj2)
  | .pacc2 => .one (x + product ki kj + product ki2 kj2)
  | .pdif => .one (product ki kj - product ki2 kj2)
  | .paccd => .one (x + product ki kj - product ki2 kj2)
  | .ppair => .two (product ki kj) (product ki2 kj2)
  | .ppacc => .two (x + product ki kj) (d2.toInt + product ki2 kj2)
  | .prodn => .rounded (product ki kj) rm
  | .paccn => .rounded (x + product ki kj) rm
  | .addk => .one (x + ki.toInt * 2 ^ 24)
  | .subk => .one (x - ki.toInt * 2 ^ 24)
  | .fmax => findStep d ki (j.val % 2 == 1) true nclip
  | .fmin => findStep d ki (j.val % 2 == 1) false nclip

end Sys2Proof.Machine
end

