-- ==== Sys2Proof/Machine/Fixed.lean ====
section
/-! DEFINITION. The helpers of the standard laws (R458): exact angles, roots and reciprocals rounded once, and the
fixed-point products and quotients of the chapters' equations. -/

namespace Sys2Proof.Machine

/-- π in units of 2^-96. -/
def pi96 : Nat := 248902613312231085230521944622

/-- √3 in units of 2^-96. -/
def sqrt3 : Nat := 137227202865029797602485611888

/-- Alternating series x^k/k! - x^(k+2)/(k+2)! + ... of `n` terms. -/
def altSeries (x2 : Nat) : Nat → Nat → Nat → Int
  | 0, _, _ => 0
  | n + 1, k, t => (t : Int) - altSeries x2 n (k + 2) (t * x2 / 2 ^ 96 / ((k + 1) * (k + 2)))

/-- Sine and cosine of an angle of at most an eighth turn, `x` radians in units of 2^-96. -/
def sin96 (x : Nat) : Int := altSeries (x * x / 2 ^ 96) 14 1 x
def cos96 (x : Nat) : Int := altSeries (x * x / 2 ^ 96) 14 0 (2 ^ 96)

/-- cos and sin in units of 2^-96 of an angle in 2^-25 turn, from 0 to an eighth turn (2^22), by symmetry to a quarter. -/
def quarterTrig (h : Nat) : Int × Int :=
  if h ≤ 2 ^ 22 then
    let x := h * pi96 / 2 ^ 24
    (cos96 x, sin96 x)
  else
    let x := (2 ^ 23 - h) * pi96 / 2 ^ 24
    (sin96 x, cos96 x)

/-- cos and sin in units of 2^-96 of a 24-bit fraction of a turn. -/
def trig (a : Nat) : Int × Int :=
  let q := a / 2 ^ 22 % 4
  let (c, s) := quarterTrig (2 * (a % 2 ^ 22))
  match q with
  | 0 => (c, s)
  | 1 => (-s, c)
  | 2 => (-c, -s)
  | _ => (s, -c)

/-- Saturation to a Q1.23 value (R9). -/
def sat24 (x : Int) : Int := satInt 24 x

/-- The 24-bit word of an integer. -/
def w24 (x : Int) : W24 := BitVec.ofInt 24 x

/-- SIN_COS: cos and sin of an angle, each rounded once to Q1.23, +1.0 given as 0x7F_FFFF (R458). -/
def sinCos (a : Nat) : Int × Int :=
  let t := trig (a % 2 ^ 24)
  (sat24 (divEven t.1 (2 ^ 73)), sat24 (divEven t.2 (2 ^ 73)))

/-- The square root of a number, truncated, from bit `n` of the root downwards. -/
def isqrtBits (x : Nat) : Nat → Nat → Nat
  | 0, r => if (r + 1) * (r + 1) ≤ x then r + 1 else r
  | n + 1, r =>
    let r' := r + 2 ^ (n + 1)
    isqrtBits x n (if r' * r' ≤ x then r' else r)

/-- The truncated square root of a number below 2^128. -/
def isqrt (x : Nat) : Nat := isqrtBits x 63 0

/-- SQRT: truncated root of a Q1.23 value; a negative input gives 0 (R458). -/
def sqrtQ (k : Int) : Int := if k ≤ 0 then 0 else (isqrt (k.toNat * 2 ^ 23) : Int)

/-- RECIP: the sum register of 1/K0 and whether it saturated (R458). -/
def recipQ (k : Int) : BitVec 56 × Bool :=
  if k ≤ 2 ^ 15 then (BitVec.ofInt 56 (2 ^ 55 - 1), true) else (BitVec.ofInt 56 (2 ^ 70 / k), false)

/-- The number of half steps of 2^-25 turn that the angle of (ax, ay) in the first quarter holds, found from bit `n`
downwards. -/
def atanBits (ax ay : Nat) : Nat → Nat → Nat
  | 0, h => h
  | n + 1, h =>
    let h' := h + 2 ^ n
    let t := quarterTrig h'
    atanBits ax ay n (if (ay : Int) * t.1 - (ax : Int) * t.2 ≥ 0 then h' else h)

/-- The angle of (ax, ay), both not negative and not both 0, rounded to the 24-bit fraction of a turn. -/
def atanQuarter (ax ay : Nat) : Nat :=
  if ax = 0 then 2 ^ 22 else (atanBits ax ay 23 0 + 1) / 2

/-- ATAN2: the angle of the vector (x, y) (R458). -/
def atan2Q (y x : Int) : Nat :=
  if x = 0 ∧ y = 0 then 0
  else
    let a := atanQuarter x.natAbs y.natAbs
    let r : Int := if x ≥ 0 then (if y ≥ 0 then a else -a) else (if y ≥ 0 then 2 ^ 23 - a else 2 ^ 23 + a)
    (r % 2 ^ 24).toNat

/-! Products and quotients rounded once to nearest, ties to even, and saturated (R458). -/

/-- a·b with `f` fraction bits dropped, to Q1.23. -/
def qmul (a b : Int) (f : Nat) : Int := sat24 (divEven (a * b) (2 ^ f))

/-- a·√3·num/den, rounded once. -/
def mulSqrt3 (a : Int) (num den : Nat) : Int := divEven (a * (sqrt3 : Int) * num) (den * 2 ^ 96)

/-- A quotient rounded once; the divisor is positive. -/
def qdiv (a : Int) (b : Nat) : Int := divEven a b

/-- A product with a coefficient given as a Q1.23 mantissa and a shift (R239). -/
def mulCoef (a mant : Int) (shift : Int) (f : Nat) : Int :=
  if shift ≥ 0 then divEven (a * mant * 2 ^ shift.toNat) (2 ^ f) else divEven (a * mant) (2 ^ (f + (-shift).toNat))

/-- A positive rational num/den as a mantissa of 23 bits and a shift, so that it is mant × 2^(shift - 23). -/
def mantShift (num den : Nat) : Int × Int :=
  if num = 0 ∨ den = 0 then (0, 0)
  else
    let e : Int := (Nat.log2 num : Int) - (Nat.log2 den : Int) + 1
    let m := if e ≥ 0 then divEven ((num * 2 ^ 23 : Nat) : Int) (den * 2 ^ e.toNat)
      else divEven ((num * 2 ^ (23 + (-e).toNat) : Nat) : Int) den
    if m < 2 ^ 23 then (m, e) else (m / 2, e + 1)

/-- The wrapped signed value of an angle difference, in 2^-24 turn. -/
def angleDiff (a b : Nat) : Int := sext 24 (((a : Int) - b) % 2 ^ 24).toNat

end Sys2Proof.Machine
end

