-- ==== Sys2Proof/Machine/Double.lean ====
section
/-! DEFINITION. Double precision (R317): values of 53 significant bits, every operation rounded to nearest with ties to even. -/

namespace Sys2Proof.Machine

/-- n × 2^e rounded to 53 bits. -/
def Dbl.round (n e : Int) : Dbl :=
  let k := Nat.log2 n.natAbs - 52
  ⟨divEven n (2 ^ k), e + (k : Nat)⟩

def Dbl.ofInt (n : Int) : Dbl := .round n 0

def Dbl.neg (a : Dbl) : Dbl := ⟨-a.m, a.e⟩

def Dbl.add (a b : Dbl) : Dbl :=
  let e := min a.e b.e
  .round (a.m * 2 ^ (a.e - e).toNat + b.m * 2 ^ (b.e - e).toNat) e

def Dbl.sub (a b : Dbl) : Dbl := a.add b.neg

def Dbl.mul (a b : Dbl) : Dbl := .round (a.m * b.m) (a.e + b.e)

/-- A quotient from its first 67 bits or more and whether any follow. -/
def Dbl.div (a b : Dbl) : Dbl :=
  let n := a.m.natAbs * 2 ^ 120
  let q : Int := (2 * (n / b.m.natAbs) + (if n % b.m.natAbs = 0 then 0 else 1) : Nat)
  .round (if decide (a.m < 0) != decide (b.m < 0) then -q else q) (a.e - b.e - 121)

/-- The square root of a value that is not negative. -/
def Dbl.sqrt (a : Dbl) : Dbl :=
  let odd := (a.e % 2).toNat
  let n := a.m.toNat * 2 ^ (120 + odd)
  let r := isqrtBits n 96 0
  .round (2 * r + (if r * r = n then 0 else 1) : Nat) ((a.e - 120 - odd) / 2 - 1)

def Dbl.lt (a b : Dbl) : Bool := decide ((a.sub b).m < 0)

/-- The value × 2^k as an integer, to nearest with ties to even. -/
def Dbl.toInt (a : Dbl) (k : Nat) : Int :=
  let s := a.e + k
  if 0 ≤ s then a.m * 2 ^ s.toNat else divEven a.m (2 ^ (-s).toNat)

/-- The double nearest to π. -/
def Dbl.pi : Dbl := ⟨7074237752028440, -51⟩

/-- sin and cos of an angle up to a quarter turn, radians in 2^-96. -/
def sinCos96 (x : Nat) : Int × Int := (altSeries (x * x / 2 ^ 96) 20 1 x, altSeries (x * x / 2 ^ 96) 20 0 (2 ^ 96))

/-- e^-x for x in units of 2^-96, the result in units of 2^-96: a series at x/1024, squared ten times. -/
def expNeg (x : Nat) : Nat :=
  let y := x / 1024
  let t := (List.range 16).foldl (fun (p : Int × Int) k => (p.1 + p.2, -(p.2 * y / (2 ^ 96 * ((k : Int) + 1))))) (0, 2 ^ 96)
  if x ≥ 64 * 2 ^ 96 then 0 else (List.range 10).foldl (fun v _ => v * v / 2 ^ 96) t.1.toNat

/-- The tangent of an angle between 0 and π/2. -/
def Dbl.tan (a : Dbl) : Dbl :=
  let sc := sinCos96 (a.toInt 96).toNat
  .round (sc.1 * 2 ^ 96 / max 1 sc.2) (-96)

/-- 1 − e^-x of a value that is not negative. -/
def Dbl.decay (a : Dbl) : Dbl := (Dbl.ofInt 1).sub (.round (expNeg (a.toInt 96).toNat) (-96))

end Sys2Proof.Machine
end

