-- ==== Sys2Proof/Config.lean ====
section
/-! DEFINITION. What an implementation fixes and the spec leaves open: constants without a body. Nothing can evaluate
them, so a claim holds whatever they are. -/

namespace Sys2Proof

/-- The random 32-bit challenge of R441, one per draw. -/
opaque Config.freeChallenge : Nat → BitVec 32

/-- A draw of the random generator of R402 whose algorithm the spec does not give. -/
opaque Config.freeBackoff : Nat → BitVec 32

/-- The wait of R20 between a tick and the next code-group boundary of LL1 when LINE_SYNC departs, in 0.8 ns, one per draw. -/
opaque Config.freePhase : Nat → Fin 11

/-- A 24-bit value the spec leaves open, one per draw. -/
opaque Config.freeW24 : Nat → BitVec 24

/-- A 32-bit value the spec leaves open, one per draw. -/
opaque Config.freeWord : Nat → BitVec 32

/-- The built-in mid-range values of the trim store's words (R79), which the spec does not give. -/
opaque Config.midTrim : Nat → BitVec 32

/-- A single bit the spec leaves open, one per draw. -/
opaque Config.freeBit : Nat → Bool

/-- The contents of the Loop Engines' constant ROM, C addresses 0x8000 to 0x8FFF (Table 08-2). -/
opaque Config.constRom : Nat → BitVec 24

/-- The standard-law ROM's words as a program fetch shows them (Table 08-2). -/
opaque Config.lawRom : Nat → BitVec 32

/-- The build number of the standard-law ROM (LE_ROM.VER). -/
opaque Config.romBuild : BitVec 16

/-- The observer's low-pass step, whose discrete form R244 leaves open: last value, new estimate, OBS_BW. -/
opaque Config.obsFilter : BitVec 24 → BitVec 24 → BitVec 24 → BitVec 24

/-- The phase-locked loop's new angle and speed, whose discrete form R244 leaves open: angle, speed, phase detector,
OBS_BW. -/
opaque Config.pllAngle : BitVec 24 → BitVec 48 → BitVec 24 → BitVec 24 → BitVec 24
opaque Config.pllSpeed : BitVec 24 → BitVec 48 → BitVec 24 → BitVec 24 → BitVec 48

/-- What a word of a law's windows holds after the law was stopped among its instructions: the spec does not give their order (R198,
R202). One per draw and word. -/
opaque Config.lawPart : Nat → Nat → BitVec 24

/-- A correction of the recalibration lies in its plausible range about the trim words in use: lanes 0 to 9, then AIN0 to AIN7 from 10
(R450). The spec gives no range. -/
opaque Config.calPlausible : List (BitVec 32) → Nat → Int → Int → Bool

/-- Whether a word of the trim store lies in its plausible range, which R78 names and the spec does not give. -/
opaque Config.trimOk : Nat → BitVec 32 → Bool

end Sys2Proof
end

