-- ==== Sys2Proof/Machine/Operands.lean ====
section
/-! DEFINITION. The operand forms of a Loop Engine: register codes (R190), address modes (R184), the buses and the port
window (R180 to R182), the decoding of an instruction word (R185 to R191) and the execution of one instruction up to the
point where the scheduler takes over. -/

namespace Sys2Proof.Machine

/-! ## Registers -/

/-- The iteration of the innermost hardware loop (Table 08-1). -/
def Engine.iter (e : Engine) : Nat :=
  match e.loops with
  | [] => 0
  | l :: _ => l.iter

/-- A register by its code, as 24 bits, and whether the transfer clipped (R189, R190). `none` for a reserved code. -/
def Engine.readCode (e : Engine) (c : Fin 64) : Option (W24 × Bool) :=
  let n := c.val
  if h : n < 8 then some (e.k[n], false)
  else if h : n < 12 then some (transfer e.sum[n - 8] (e.rnd.getLsbD 1))
  else if h : n < 16 then some (sumL e.sum[n - 12], false)
  else if h : n < 24 then some ((e.ap[n - 16]).setWidth 24, false)
  else if h : n < 32 then some ((e.am[n - 24]).signExtend 24, false)
  else if h : n < 40 then some ((e.ba[n - 32]).setWidth 24, false)
  else if h : n < 48 then some ((e.ln[n - 40]).setWidth 24, false)
  else match n with
    | 48 => some (e.lcnt.setWidth 24, false)
    | 49 => some (e.fl.setWidth 24, false)
    | 50 => some (e.rnd.setWidth 24, false)
    | 51 => some (e.fidx.setWidth 24, false)
    | 52 => some (BitVec.ofNat 24 e.iter, false)
    | 53 => some (BitVec.ofNat 24 e.tid, false)
    | 54 => some (BitVec.ofNat 24 e.axn, false)
    | 55 => some (BitVec.ofNat 24 e.bseq, false)
    | _ => none

/-- Write a register by its code (R189, R190). `none` for a read-only or reserved code. -/
def Engine.writeCode (e : Engine) (c : Fin 64) (w : W24) : Option Engine :=
  let n := c.val
  let h16 : BitVec 16 := w.setWidth 16
  if h : n < 8 then some { e with k := e.k.set n w }
  else if h : n < 12 then some { e with sum := e.sum.set (n - 8) (fromH w) }
  else if h : n < 16 then
    some { e with sum := e.sum.set (n - 12) (BitVec.append ((e.sum[n - 12]).extractLsb' 24 32) w) }
  else if h : n < 24 then some { e with ap := e.ap.set (n - 16) h16 }
  else if h : n < 32 then some { e with am := e.am.set (n - 24) h16 }
  else if h : n < 40 then some { e with ba := e.ba.set (n - 32) h16 }
  else if h : n < 48 then some { e with ln := e.ln.set (n - 40) h16 }
  else match n with
    | 48 => some { e with lcnt := h16 }
    | 49 => some { e with fl := w.setWidth 6 }
    | 50 => some { e with rnd := w.setWidth 2 }
    | 51 => some { e with fidx := h16 }
    | _ => none

/-! ## Addressing -/

/-- The update of a pointer by `m` inside its buffer (R184). -/
def stepPtr (ap : Nat) (m : Int) (ba ln : Nat) : BitVec 16 :=
  let next : Int := ap + m
  let next' : Int :=
    if ln ≠ 0 then
      if next ≥ ((ba + ln : Nat) : Int) then next - ln else if next < (ba : Int) then next + ln else next
    else next
  BitVec.ofInt 16 next'

/-- Pointer `p` stepped by `m`. -/
def Engine.stepped (e : Engine) (p : Fin 8) (m : Int) : BitVec 16 :=
  stepPtr (e.ap[p]).toNat m (e.ba[p]).toNat (e.ln[p]).toNat

/-- The step of a class-M mode, if it updates its pointer (Table 08-4). -/
def modeStep (e : Engine) (p : Fin 8) (mode : Nat) : Option Int :=
  match mode with
  | 1 => some 1
  | 2 => some (-1)
  | 3 => some (e.am[p]).toInt
  | 4 => some (-(e.am[p]).toInt)
  | 5 => some 2
  | _ => none

/-- The address a class-M access uses (Table 08-4). -/
def modeAddr (e : Engine) (p : Fin 8) (mode : Nat) (disp : Int) : Nat :=
  match mode with
  | 6 => (BitVec.ofInt 16 ((e.ap[p]).toNat + (e.am[p]).toInt)).toNat
  | 7 => (BitVec.ofInt 16 ((e.ap[p]).toNat + disp)).toNat
  | _ => (e.ap[p]).toNat

/-! ## Buses -/

/-- What the port window shows the running task (Table 08-3): the received payload, RX_STAT, the report's BSEQ, TX_STAT,
the unit mailbox, whether the task has a report and a command slot, and the payload last committed. -/
structure Ports where
  rx : List Word
  rxStat : Nat
  rxBseq : Nat
  txStat : Nat
  hasRx : Bool
  hasTx : Bool
  mailbox : Tbl W24
  mailBase : Nat
  committed : List Word
  deriving DecidableEq, Repr

/-- Half `i` of a payload word in a port area (R181): bits [31:8] at the even address, [7:0] at the odd one. -/
def portHalf (ws : List Word) (i : Nat) : W24 :=
  let w := ws.getD (i / 2) 0
  if i % 2 = 0 then w.extractLsb' 8 24 else (w.extractLsb' 0 8).setWidth 24

/-- A payload with one half of a word replaced. -/
def setPortHalf (ws : List Word) (i : Nat) (v : W24) : List Word :=
  let w := ws.getD (i / 2) 0
  ws.set (i / 2) (if i % 2 = 0 then BitVec.append v (w.extractLsb' 0 8)
    else BitVec.append (w.extractLsb' 8 24) (v.extractLsb' 0 8))

/-- An address lies in a task's window. -/
def inWindow (w : Nat × Nat) (a : Nat) : Bool := w.1 ≤ a && a < w.1 + w.2

/-- A read of the port window (Table 08-3). -/
def portRead (e : Engine) (pt : Ports) (a : Nat) : Option W24 :=
  if 0xE000 ≤ a ∧ a ≤ 0xE05F then some (if pt.hasRx then portHalf pt.rx (a - 0xE000) else 0)
  else if 0xE080 ≤ a ∧ a ≤ 0xE0DF then some (if pt.hasTx then portHalf e.stage (a - 0xE080) else 0)
  else if a = 0xE0F0 then some (if pt.hasRx then BitVec.ofNat 24 pt.rxStat else 0)
  else if a = 0xE0F1 then some (if pt.hasRx then BitVec.ofNat 24 pt.rxBseq else 0)
  else if a = 0xE0F2 then some (if pt.hasTx then BitVec.ofNat 24 pt.txStat else 0)
  else if 0xE100 ≤ a ∧ a ≤ 0xE1FF then some (pt.mailbox.get (fun _ => 0) (pt.mailBase + (a - 0xE100)))
  else none

/-- A read over a bus; `none` is an address fault (R180, R182). -/
def busRead (e : Engine) (pt : Ports) (b : Bus) (a : Nat) : Option W24 :=
  match b with
  | .x =>
    if 0xE000 ≤ a then portRead e pt a
    else if a ≤ 0x1FFF && inWindow e.xWin a then some (e.xRam.get (fun _ => 0) a) else none
  | .y => if a ≤ 0x1FFF && inWindow e.yWin a then some (e.yRam.get (fun _ => 0) a) else none
  | .c =>
    if 0x8000 ≤ a ∧ a ≤ 0x8FFF then some (Config.constRom a)
    else if a ≤ 0x07FF && inWindow e.cWin a then some (e.cRam.get (fun _ => 0) a) else none

/-- A store over a bus; `none` is an address fault (R180 to R182). -/
def busWrite (e : Engine) (pt : Ports) (b : Bus) (a : Nat) (v : W24) : Option Engine :=
  match b with
  | .x =>
    if 0xE080 ≤ a ∧ a ≤ 0xE0DF then
      some (if pt.hasTx then { e with stage := setPortHalf e.stage (a - 0xE080) v, dirty := true } else e)
    else if a ≤ 0x1FFF && inWindow e.xWin a then some { e with xRam := e.xRam.set (fun _ => 0) a v } else none
  | .y => if a ≤ 0x1FFF && inWindow e.yWin a then some { e with yRam := e.yRam.set (fun _ => 0) a v } else none
  | .c => if a ≤ 0x07FF && inWindow e.cWin a then some { e with cRam := e.cRam.set (fun _ => 0) a v } else none

/-! ## Decoding -/

/-- A register number of three bits. -/
def f8 (n : Nat) : Fin 8 := ⟨n % 8, Nat.mod_lt _ (by omega)⟩
/-- A register number of two bits. -/
def f4 (n : Nat) : Fin 4 := ⟨n % 4, Nat.mod_lt _ (by omega)⟩

/-- A P-class move slot of six bits: EN, DST, P, S (Table 08-6). Outer `none` is illegal. -/
def decodeSlot (v : Nat) : Option (Option MoveSlot) :=
  if v / 32 = 0 then (if v = 0 then some none else none)
  else some (some ⟨f8 (v / 4), v / 2 % 2 == 1, v % 2 == 1⟩)

/-- The operation of a P-class OP code (Table 08-7). -/
def popOf (n : Nat) : POp :=
  [POp.load, .prod, .pacc, .psub, .prod2, .pacc2, .pdif, .paccd, .ppair, .ppacc, .prodn, .paccn, .addk, .subk, .fmax,
    .fmin].getD n .load

/-- The operation of a class-A SUB code (Table 08-8). -/
def aopOf (n : Nat) : Option AOp :=
  [AOp.zero, .copy, .add, .sub, .neg, .abs, .clip, .round, .shl, .shr, .shv, .scale, .cmp, .max, .min, .limit, .getg,
    .putg, .and, .or, .xor, .quot][n]?

/-- The operation of a control OP code (Table 08-10). -/
def copOf (n : Nat) : Option COp :=
  [COp.goto, .call, .ret, .rep, .repn, .endTask, .commit, .park, .trap, .law][n]?

/-- Class A names SUMs in its S field (Table 08-8). -/
def aopUsesSum : AOp → Bool
  | .copy | .add | .sub | .cmp | .max | .min => true
  | _ => false

/-- Class A names Ks in its S field. -/
def aopUsesK : AOp → Bool
  | .shv | .scale | .limit | .getg | .putg | .and | .or | .xor | .quot => true
  | _ => false

/-- The fields an instruction leaves unused are 0 and no two moves load one register (R185 to R188, R190, R191). -/
def legalLE : LInstr → Bool
  | .p op d i j mv =>
    (match op with
      | .load => d.val == 0 && i.val == 0 && j.val == 0
      | .addk | .subk => j.val == 0
      | .fmax | .fmin => j.val / 2 == 0
      | _ => true) &&
    ((mv.x.toList ++ mv.y.toList ++ mv.c.toList).map (·.dst)).Nodup
  | .a op _ s imm =>
    (if aopUsesSum op then s.val < 4 else aopUsesK op || s.val == 0) &&
    (match op with | .shl | .shr => imm ≤ 55 | _ => imm == 0)
  | .m _ _ _ _ mode disp => mode.val == 7 || disp == 0
  | .ldi16 _ _ _ => true
  | .move dst src => dst.val < 52 && src.val < 56
  | .ldi24 _ _ => true
  | .ctl op cond arg count =>
    cond < 15 &&
    (match op with
      | .goto | .call => arg < 0x1000 && count == 0
      | .ret | .endTask => arg == 0 && count == 0
      | .trap => arg < 128 && count == 0
      | .rep => cond == 0 && arg < 128 && 1 ≤ count && count < 8192
      | .repn => cond == 0 && arg < 128 && count == 0
      | .commit | .park => cond == 0 && arg == 0 && count == 0
      | .law => cond == 0 && arg ≤ 0x15 && count == 0)

/-- An instruction word as Table 08-5 reads it, before the checks of `legalLE`. -/
def decodeFields (w : Word) : Option LInstr :=
  let n := w.toNat
  let top := bits n 31 24
  if top < 0x80 then
    if bits n 0 0 = 1 then none
    else match decodeSlot (bits n 18 13), decodeSlot (bits n 12 7), decodeSlot (bits n 6 1) with
      | some x, some y, some c => some (.p (popOf (bits n 30 27)) (f4 (bits n 26 25)) (f8 (bits n 24 22)) (f8 (bits n 21 19)) ⟨x, y, c⟩)
      | _, _, _ => none
  else if top = 0x80 then
    if bits n 6 0 ≠ 0 then none
    else (aopOf (bits n 23 18)).map (fun op => .a op (f4 (bits n 17 16)) (f8 (bits n 15 13)) (bits n 12 7))
  else if top = 0x81 then
    match bits n 22 21 with
    | 0 => some (.m (bit n 23) .x ⟨bits n 20 17 % 16, Nat.mod_lt _ (by omega)⟩ (f8 (bits n 16 14)) (f8 (bits n 13 11)) (sext 11 (bits n 10 0)))
    | 1 => some (.m (bit n 23) .y ⟨bits n 20 17 % 16, Nat.mod_lt _ (by omega)⟩ (f8 (bits n 16 14)) (f8 (bits n 13 11)) (sext 11 (bits n 10 0)))
    | 2 => some (.m (bit n 23) .c ⟨bits n 20 17 % 16, Nat.mod_lt _ (by omega)⟩ (f8 (bits n 16 14)) (f8 (bits n 13 11)) (sext 11 (bits n 10 0)))
    | _ => none
  else if top = 0x82 then
    if bits n 17 16 ≠ 0 ∨ bits n 23 21 > 3 then none
    else some (.ldi16 (f4 (bits n 23 21)) (f8 (bits n 20 18)) (w.extractLsb' 0 16))
  else if top = 0x83 then
    if bits n 11 0 ≠ 0 then none
    else some (.move ⟨bits n 23 18 % 64, Nat.mod_lt _ (by omega)⟩ ⟨bits n 17 12 % 64, Nat.mod_lt _ (by omega)⟩)
  else if 0x90 ≤ top ∧ top ≤ 0x9F then
    some (.ldi24 ⟨bits n 27 24 % 16, Nat.mod_lt _ (by omega)⟩ (w.extractLsb' 0 24))
  else if 0xA0 ≤ top ∧ top ≤ 0xAF then
    (copOf (bits n 23 20)).map (fun op => match op with
      | .rep | .repn => .ctl op (bits n 27 24) (bits n 19 13) (bits n 12 0)
      | _ => .ctl op (bits n 27 24) (bits n 19 0) 0)
  else none

/-- The instruction of a word; `none` is an illegal encoding (R185). -/
def decodeLE (w : Word) : Option LInstr :=
  match decodeFields w with
  | some i => if legalLE i then some i else none
  | none => none

/-! ## One instruction -/

/-- What an instruction asks of the head beyond its engine. -/
inductive LEvent where
  | none | endTask | commit | park | law (entry : Nat)
  deriving DecidableEq, Repr

/-- The outcome of one instruction inside its engine: the engine after it with the core cycles it takes (Table 08-12) and
what it asks of the head, or the code of its fault (Table 08-16). -/
inductive LOut where
  | ok (e : Engine) (cost : Nat) (ev : LEvent)
  | fault (code : Nat)
  deriving DecidableEq, Repr

/-- The instruction writes hazards that the next one may wait for (Table 08-13). -/
def noHazard : Hazard := ⟨[], [], false, false⟩

/-- One move slot: the word read and the pointer stepped; `none` is an address fault (R186). -/
def moveSlot (e : Engine) (pt : Ports) (b : Bus) (lowPtr : Fin 8) (highPtr : Fin 8) (s : Option MoveSlot) :
    Option (List (Fin 8 × W24) × List (Fin 8 × BitVec 16)) :=
  match s with
  | none => some ([], [])
  | some m =>
    let p := if m.ptr then highPtr else lowPtr
    match busRead e pt b (e.ap[p]).toNat with
    | none => none
    | some w => some ([(m.dst, w)], [(p, e.stepped p (if m.step then (e.am[p]).toInt else 1))])

/-- The engine with registers loaded and pointers stepped by the moves. -/
def applyMoves (e : Engine) (loads : List (Fin 8 × W24)) (steps : List (Fin 8 × BitVec 16)) : Engine :=
  { e with
    k := loads.foldl (fun k l => k.set l.1 l.2) e.k
    ap := steps.foldl (fun a l => a.set l.1 l.2) e.ap }

/-- The engine with the result of a P-class operation. -/
def applyP (e : Engine) (d : Fin 4) (r : PResult) : Engine :=
  let e1 := match r.sum with | some v => { e with sum := e.sum.set d v } | none => e
  let e2 := match r.sum2 with | some v => { e1 with sum := e1.sum.set (pairSum d) v } | none => e1
  let e3 := match r.flags with | some x => { e2 with fl := flagWord e2.fl x r.o r.t } | none => e2
  if r.find then { e3 with fl := withF e3.fl, fidx := BitVec.ofNat 16 e.iter } else e3

/-- The engine with the result of a class-A operation. -/
def applyA (e : Engine) (d : Fin 4) (s : Fin 8) (r : AResult) : Engine :=
  let e1 := match r.sum with | some v => { e with sum := e.sum.set d v } | none => e
  let e2 := match r.k with | some v => { e1 with k := e1.k.set s v } | none => e1
  match r.flags with | some x => { e2 with fl := flagWord e2.fl x r.o r.t } | none => e2

/-- After an instruction that ends at the last instruction of loop bodies: where the engine goes on, the loops left, and
the cycles the returns to the top cost (Table 08-12, R194). -/
def loopBack (e : Engine) (next : Nat) : List HwLoop → Nat × List HwLoop × Nat
  | [] => (next, [], 0)
  | l :: ls =>
    if next = l.last + 1 ∧ l.level = e.calls.length then
      if 1 < l.left then
        (l.first, { l with left := l.left - 1, iter := l.iter + 1 } :: ls,
          if e.cache = some (l.first, l.last) then 0 else 2)
      else loopBack e next ls
    else (next, l :: ls, 0)

/-- Go on to the instruction after this one, through the ends of hardware loops. -/
def goOn (e : Engine) (cost : Nat) (ev : LEvent) : LOut :=
  let r := loopBack e (e.pc + 1) e.loops
  .ok { e with pc := r.1, loops := r.2.1 } (cost + r.2.2) ev

/-- An instruction word is a control instruction (Table 08-5). -/
def isControl (w : Word) : Bool := 0xA0 ≤ bits w.toNat 31 24 && bits w.toNat 31 24 ≤ 0xAF

/-- Open a hardware loop, or skip its body when the count is 0 (R192). -/
def openLoop (e : Engine) (body count : Nat) : LOut :=
  let last := e.pc + 1 + body
  if isControl (e.prog.get (fun _ => 0) last) then .fault 0x01
  else if count = 0 then
    let r := loopBack e (last + 1) e.loops
    .ok { e with pc := r.1, loops := r.2.1 } (3 + r.2.2) .none
  else if e.loops.length ≥ 4 then .fault 0x03
  else
    .ok { e with
      pc := e.pc + 1
      loops := ⟨e.pc + 1, last, count, 0, e.calls.length⟩ :: e.loops
      cache := if body + 1 ≤ 32 then some (e.pc + 1, last) else e.cache } 2 .none

/-- The loops that a taken GOTO leaves: those of this call level whose body ends just before the target. `none` when the
jump leaves a body otherwise (R192). -/
def gotoLoops (level target : Nat) (ended : Bool) : List HwLoop → Option (List HwLoop)
  | [] => some []
  | l :: ls =>
    if l.level ≠ level then some (l :: ls)
    else if target = l.last + 1 then gotoLoops level target true ls
    else if ended then some (l :: ls)
    else if l.first ≤ target ∧ target ≤ l.last then some (l :: ls)
    else none

/-- A control instruction whose condition holds (Table 08-10). -/
def controlStep (e : Engine) (op : COp) (arg count : Nat) : LOut :=
  match op with
  | .goto =>
    match gotoLoops e.calls.length arg false e.loops with
    | some ls => .ok { e with pc := arg, loops := ls } 3 .none
    | none => .fault 0x01
  | .call =>
    if e.calls.length ≥ 8 then .fault 0x03
    else .ok { e with pc := arg, calls := (e.pc + 1) :: e.calls } 3 .none
  | .ret =>
    match e.calls with
    | [] => .fault 0x03
    | r :: cs =>
      if (e.loops.head?).any (fun l => l.level == e.calls.length) then .fault 0x01
      else .ok { e with pc := r, calls := cs } 3 .none
  | .rep => openLoop e arg count
  | .repn => openLoop e arg e.lcnt.toNat
  | .endTask => .ok { e with calls := [], loops := [] } (if e.dirty then 2 else 1) .endTask
  | .commit => goOn e 2 .commit
  | .park => goOn e 1 .park
  | .trap => .fault (0x80 + arg)
  | .law =>
    if e.calls.length > 6 ∨ e.loops.length > 2 then .fault 0x03
    else goOn e 0 (.law arg)

/-- The sum register and pointer a register code writes, for the stalls. -/
def codeHazard (c : Fin 64) : Hazard :=
  let n := c.val
  ⟨if 8 ≤ n ∧ n < 16 then [n % 4] else [], if 16 ≤ n ∧ n < 48 then [n % 8] else [], n == 49, n == 48⟩

/-- What the instruction leaves for the stalls of the next one. -/
def leavesLE : LInstr → Hazard
  | .p op d _ _ _ =>
    match op with
    | .load => noHazard
    | .ppair | .ppacc => ⟨[d.val, (pairSum d).val], [], true, false⟩
    | _ => ⟨[d.val], [], true, false⟩
  | .a op d _ _ =>
    match op with
    | .cmp => ⟨[], [], true, false⟩
    | .getg => noHazard
    | .putg => ⟨[d.val], [], false, false⟩
    | _ => ⟨[d.val], [], true, false⟩
  | .m store _ reg _ _ _ => if store || reg.val < 8 then noHazard else ⟨[reg.val % 4], [], false, false⟩
  | .ldi16 _ idx _ => ⟨[], [idx.val], false, false⟩
  | .move dst _ => codeHazard dst
  | .ldi24 reg _ => if reg.val < 8 then noHazard else ⟨[reg.val % 4], [], false, false⟩
  | .ctl _ _ _ _ => noHazard

/-- The stall of an instruction after what the one before it left: one core cycle at most (Table 08-13, R194). -/
def stallLE (h : Hazard) : LInstr → Nat
  | .p _ _ _ _ mv =>
    let slot (m : Option MoveSlot) (lo hi : Nat) : Bool :=
      match m with | some s => h.ptrs.contains (if s.ptr then hi else lo) | none => false
    b2n (slot mv.x 0 1 || slot mv.y 2 3 || slot mv.c 4 5)
  | .a op d _ _ => b2n (op == .round && h.sums.contains d.val)
  | .m store _ reg ap _ _ =>
    b2n (h.ptrs.contains ap.val || (store && decide (8 ≤ reg.val) && h.sums.contains (reg.val % 4)))
  | .ldi16 _ _ _ => 0
  | .move _ src => b2n (decide (8 ≤ src.val) && decide (src.val < 16) && h.sums.contains (src.val % 4))
  | .ldi24 _ _ => 0
  | .ctl op cond _ _ => b2n ((decide (cond ≠ 0) && h.flags) || (op == .repn && h.lcnt))

/-- A register code of four bits as one of six. -/
def code16 (r : Fin 16) : Fin 64 := ⟨r.val, by omega⟩

/-- One instruction inside its engine, its fields legal (R186 to R191). -/
def instrBody (e : Engine) (pt : Ports) (i : LInstr) : LOut :=
  match i with
  | .p op d a b mv =>
    match moveSlot e pt .x 0 1 mv.x, moveSlot e pt .y 2 3 mv.y, moveSlot e pt .c 4 5 mv.c with
    | some x, some y, some c =>
      let r := aluP op e.sum[d] e.sum[pairSum d] e.k[a] e.k[b] e.k[pairK a] e.k[pairK b] b (e.rnd.getLsbD 0) (e.rnd.getLsbD 1)
      goOn (applyMoves (applyP e d r) (x.1 ++ y.1 ++ c.1) (x.2 ++ y.2 ++ c.2)) 1 .none
    | _, _, _ => .fault 0x02
  | .a op d s imm =>
    let r := aluA op e.sum[d] (e.sum[f4 s.val]) e.k[s] imm (e.rnd.getLsbD 0)
    goOn (applyA e d s r) (if op = .quot then 26 else 1) .none
  | .m store bus reg p mode disp =>
    let a := modeAddr e p mode.val disp
    let cost := if bus = .x ∧ 0xE000 ≤ a ∧ a ≤ 0xE1FF then 2 else 1
    let step (g : Engine) : Engine :=
      match modeStep e p mode.val with | some m => { g with ap := g.ap.set p (e.stepped p m) } | none => g
    if store then
      match e.readCode (code16 reg) with
      | none => .fault 0x01
      | some (w, clip) =>
        match busWrite e pt bus a w with
        | none => .fault 0x02
        | some g => goOn (step (if clip then { g with fl := withT g.fl } else g)) cost .none
    else
      match busRead e pt bus a with
      | none => .fault 0x02
      | some w =>
        match e.writeCode (code16 reg) w with
        | none => .fault 0x01
        | some g => goOn (step g) cost .none
  | .ldi16 ty idx imm =>
    match e.writeCode ⟨16 + 8 * ty.val + idx.val, by omega⟩ (imm.setWidth 24) with
    | none => .fault 0x01
    | some g => goOn g 1 .none
  | .move dst src =>
    match e.readCode src with
    | none => .fault 0x01
    | some (w, clip) =>
      match e.writeCode dst w with
      | none => .fault 0x01
      | some g => goOn (if clip && dst.val ≠ 49 then { g with fl := withT g.fl } else g) 1 .none
  | .ldi24 reg imm =>
    match e.writeCode (code16 reg) imm with
    | none => .fault 0x01
    | some g => goOn g 1 .none
  | .ctl op cond arg count =>
    match condHolds e.fl cond with
    | none => .fault 0x01
    | some false => goOn e 1 .none
    | some true => controlStep e op arg count

/-- One instruction of an engine: illegal fields fault (R185), the stall of Table 08-13 is added, and what the
instruction leaves for the next one is kept. -/
def instrStep (e : Engine) (pt : Ports) (i : LInstr) : LOut :=
  if legalLE i then
    match instrBody e pt i with
    | .ok g cost ev => .ok { g with hazard := leavesLE i } (cost + stallLE e.hazard i) ev
    | .fault c => .fault c
  else .fault 0x01

end Sys2Proof.Machine
end

