-- ==== Sys2Proof/Machine/CurrentLaw.lean ====
section
/-! DEFINITION. The standard current laws of chapter 10 on a task's context windows (Table 10-6, Table 10-7): entries 0x00
to 0x0A of Table 08-15, and the helpers 0x12 to 0x15. The layout of X words 41 to 63 and Y words 20 to 63, which Table 10-6
leaves to the head, is the model's (notes/assumptions/30.md). -/

namespace Sys2Proof.Machine

/-- What the head knows of the axis beyond the context: FB, the electrical angle and speed of R227 (speed in 2^-47 turn per
Bell), the count c (raw Q32.16), whether the law runs ahead of its Bell's report (`prep`, R243), whether the report it takes is valid, the
command that applied in the sampled period (R460, R235) and the one that applies in the period that `prep` predicts, and what a step of the Placement Test sets in place of the law's own values (R252): references, angle, (vd, vq), or
the compare values of the three legs. -/
structure AxisIn where
  axis : Nat
  encoderless : Bool
  theta : Nat
  w : Int
  count : Int
  prep : Bool
  fresh : Bool
  paired : Option (List Word)
  next : Option (List Word)
  placement : Bool
  driving : Bool
  placeId : Int
  placeIq : Int
  placeTheta : Option Nat
  placeOffset : Bool
  placeV : Option (Int × Int)
  placeDuty : Option (Int × Int × Int)
  deriving DecidableEq, Repr

/-- What a law reports to the head about its axis. -/
inductive AxFx where
  | fault (k : Nat)
  | state (n : Nat)
  | nowin (b : Bool)
  | shifted (b : Bool)
  | vlimit (b : Bool)
  | ilimit (b : Bool)
  | catchStart
  | word (addr : Nat) (v : Nat)
  deriving DecidableEq, Repr

/-- A law in progress: its engine, its ports, its axis, what it has reported so far. -/
structure Ctx where
  e : Engine
  pt : Ports
  ax : AxisIn
  fx : List AxFx
  deriving DecidableEq, Repr

/-! ## Context words -/

/-- X, Y context word `i` as a signed value. -/
def Ctx.x (c : Ctx) (i : Nat) : Int := (c.e.xRam.get (fun _ => 0) (c.e.xWin.1 + i)).toInt
def Ctx.y (c : Ctx) (i : Nat) : Int := (c.e.yRam.get (fun _ => 0) (c.e.yWin.1 + i)).toInt
/-- The same words unsigned. -/
def Ctx.xu (c : Ctx) (i : Nat) : Nat := (c.e.xRam.get (fun _ => 0) (c.e.xWin.1 + i)).toNat
def Ctx.yu (c : Ctx) (i : Nat) : Nat := (c.e.yRam.get (fun _ => 0) (c.e.yWin.1 + i)).toNat
/-- Write X context word `i`. -/
def Ctx.setX (c : Ctx) (i : Nat) (v : Int) : Ctx :=
  { c with e := { c.e with xRam := c.e.xRam.set (fun _ => 0) (c.e.xWin.1 + i) (w24 v) } }
/-- Several X words. -/
def Ctx.setXs (c : Ctx) (ws : List (Nat × Int)) : Ctx := ws.foldl (fun g p => g.setX p.1 p.2) c
/-- A 48-bit X value kept as H then L. -/
def Ctx.xLong (c : Ctx) (i : Nat) : Int := c.x i * 2 ^ 24 + c.xu (i + 1)
def Ctx.setXLong (c : Ctx) (i : Nat) (v : Int) : Ctx :=
  let s := satInt 48 v
  (c.setX i (s / 2 ^ 24)).setX (i + 1) (s % 2 ^ 24)
/-- C context word `i` as a signed value, and a write of it. -/
def Ctx.cw (c : Ctx) (i : Nat) : Int := (c.e.cRam.get (fun _ => 0) (c.e.cWin.1 + i)).toInt
def Ctx.setC (c : Ctx) (i : Nat) (v : Int) : Ctx :=
  { c with e := { c.e with cRam := c.e.cRam.set (fun _ => 0) (c.e.cWin.1 + i) (w24 v) } }
/-- A coefficient kept as mantissa and shift. -/
def Ctx.coef (c : Ctx) (i : Nat) : Int × Int := (c.y i, c.y (i + 1))
/-- A unit mailbox word. -/
def Ctx.mail (c : Ctx) (i : Nat) : Nat := (c.pt.mailbox.get (fun _ => 0) (c.pt.mailBase + i)).toNat
/-- Add a report. -/
def Ctx.say (c : Ctx) (f : AxFx) : Ctx := { c with fx := c.fx ++ [f] }
/-- Bits of a received payload word. -/
def Ctx.rx (c : Ctx) (w hi lo : Nat) : Nat := bits (wordAt c.pt.rx w) hi lo
/-- Put a staging word. -/
def Ctx.setTx (c : Ctx) (w : Nat) (v : Nat) : Ctx :=
  if c.pt.hasTx then { c with e := { c.e with stage := c.e.stage.set w (BitVec.ofNat 32 v), dirty := true } } else c
/-- A staging word. -/
def Ctx.tx (c : Ctx) (w : Nat) : Nat := wordAt c.e.stage w

/-- The report that this run takes is valid: that of its Bell, or for FOC_EXP_PREP that of the Bell before (R243). -/
def Ctx.valid (c : Ctx) : Bool := c.ax.fresh
/-- The state, enable, fault and stop bits of mailbox word 0xE104. -/
def Ctx.state (c : Ctx) : Nat := bits (c.mail 4) 3 0
/-- The state once this run's own decisions are in (R246). -/
def Ctx.stateNow (c : Ctx) : Nat :=
  (c.fx.reverse.findSome? (fun f => match f with | .state n => some n | _ => none)).getD c.state
def Ctx.en (c : Ctx) : Bool := bit (c.mail 4) 4
def Ctx.faulted (c : Ctx) : Bool := bit (c.mail 4) 5
def Ctx.stopCode (c : Ctx) : Nat := bits (c.mail 4) 8 7

/-- The Bell length and the windows of the axis constants (Y words 43 and 11 to 14). -/
def Ctx.period (c : Ctx) : Nat := c.yu 43

/-- N of R240 from 2 × D0 = (2·N + 1) × P, at least 1. -/
def Ctx.lagN (c : Ctx) : Nat := max 1 ((c.yu 18 / max 1 c.period - 1) / 2)

/-- Where the C window keeps vd, vq, vα, vβ, S1 and S2 of the command that applied `back` periods before the one that the run's next
report samples: each run puts its own in front, five are kept. -/
def Ctx.appliedAt (c : Ctx) (back : Nat) : Nat := 6 * min 4 (c.lagN - 1 + back)

/-- How far back the sampled period lies: one Bell more for a law that runs ahead of its Bell's report. -/
def Ctx.sampledBack (c : Ctx) : Nat := b2n c.ax.prep

/-- X words 15 to 18: (vd, vq) and (vα, vβ) applied in a period (Table 10-6). -/
def Ctx.loadApplied (c : Ctx) (back : Nat) : Ctx :=
  let k := c.appliedAt back
  c.setXs [(15, c.cw k), (16, c.cw (k + 1)), (17, c.cw (k + 2)), (18, c.cw (k + 3))]

/-- Keep this run's voltages and sampling instants in front of those before it. -/
def Ctx.keepApplied (c : Ctx) : Ctx :=
  let old := (List.range 24).map c.cw
  let c := old.zipIdx.foldl (fun (c : Ctx) w => c.setC (6 + w.2) w.1) c
  [c.x 15, c.x 16, c.x 17, c.x 18, c.x 31, c.x 32].zipIdx.foldl (fun (c : Ctx) w => c.setC w.2 w.1) c

/-- S1 and S2 of a command, or those kept for the period. -/
def Ctx.instants (c : Ctx) (cmd : Option (List Word)) (back : Nat) : Int × Int :=
  match cmd with
  | some ws => (bits (wordAt ws 3) 31 16, bits (wordAt ws 3) 15 0)
  | none => (c.cw (c.appliedAt back + 4), c.cw (c.appliedAt back + 5))

/-- S1 and S2 of the command that applied in the sampled period (R235, R460). -/
def Ctx.smp (c : Ctx) : Int × Int := c.instants c.ax.paired c.sampledBack
/-- That command was NOWIN (R234): its samples are 1 tick apart, closer than any window allows. -/
def Ctx.lastNowin (c : Ctx) : Bool :=
  match c.ax.paired with
  | some _ => decide (c.smp.2 = c.smp.1 + 1)
  | none => c.x 40 != 0
/-- The report tells of a period ridden through (RIDE, Table 15-6). -/
def Ctx.ride (c : Ctx) : Bool := c.valid && c.rx 1 5 5 == 1
/-- The last report says that the STO wire is active (Table 15-6). -/
def Ctx.stoSeen (c : Ctx) : Bool := c.rx 1 3 3 == 1
/-- The run has no usable sample: a missing report (R236), a NOWIN period (R234) or a ridden one (R350). -/
def Ctx.predicts (c : Ctx) : Bool := !c.valid || c.lastNowin || c.ride

/-! ## The parts of FOC_STD (Table 10-1) -/

/-- The phases by on-time, largest first, equal values U, V, W (R230): three indices. -/
def phaseOrder (u v w : Int) : List Nat :=
  let before (a b : Int × Nat) : Bool := a.1 > b.1 || (a.1 == b.1 && a.2 < b.2)
  let xs := [(u, 0), (v, 1), (w, 2)]
  let rank (a : Int × Nat) : Nat := (xs.filter (fun b => before b a)).length
  [0, 1, 2].map (fun r => ((xs.find? (fun a => rank a == r)).map (·.2)).getD 0)

/-- The order h, m, l of a command as three indices of base 4 (R235). -/
def Ctx.orderOf (c : Ctx) (cmd : Option (List Word)) : Nat :=
  match cmd with
  | some ws =>
    let cm (i : Nat) : Int := bits (wordAt ws i) 31 16
    let o := phaseOrder (cm 0) (cm 1) (cm 2)
    nth o 0 * 16 + nth o 1 * 4 + nth o 2
  | none => c.xu 33

/-- ωe for the laws: the encoder speed, the observer's (R238), or that of the I-f angle (R248). -/
def Ctx.we (c : Ctx) : Int :=
  if !c.ax.encoderless then c.ax.w else if c.state = 4 then c.xLong 47 else c.xLong 38

/-- The angle at the middle of the two samples (R227), the observer's angle predicted from its last step (X word 55 counts the Bells
since) for an encoderless axis, the angle the head advances in an I-f start (R248), or, when the report is missing, one Bell on from
the last (R236), which FOC_EXP_PREP has predicted already. -/
def Ctx.thetaS (c : Ctx) : Nat :=
  match c.ax.placeTheta with
  | some a => a
  | none =>
    if c.ax.encoderless ∧ c.state = 4 then c.xu 46
    else if !c.valid then (if c.ax.prep then c.xu 19 else (((c.xu 19 : Nat) + divEven c.we (2 ^ 23)) % 2 ^ 24).toNat)
    else if c.ax.encoderless then (((c.xu 37 : Nat) + divEven (c.we * (c.x 55 + 1)) (2 ^ 23)) % 2 ^ 24).toNat
    else (((c.ax.theta : Nat) + divEven (c.ax.w * (c.smp.2 - c.smp.1)) (2 * c.period * 2 ^ 23)) % 2 ^ 24).toNat

/-- (Ld·id + ψ) of R234 and R238: the product rounded once to the 23 fraction bits of a current, the sum saturated; and ωe times it. -/
def Ctx.emfOf (c : Ctx) (id : Int) : Int :=
  let l := c.coef 4
  let f := c.coef 8
  sat24 (divEven (c.we * satInt 56 (mulCoef id l.1 l.2 23 + mulCoef (2 ^ 23) f.1 f.2 23)) (2 ^ 47))

/-- One explicit Euler step of the motor model as R234 writes it, left to right (R458), from the last (id, iq) and the voltage in X words
15 and 16: the predicted (id, iq). -/
def Ctx.motorModel (c : Ctx) : Int × Int :=
  let id := c.x 7
  let iq := c.x 8
  let w := c.we
  let wl (i : Nat) (cur : Int) : Int :=
    let k := c.coef i
    qmul (sat24 (mulCoef w k.1 k.2 47)) cur 23
  let term (i : Nat) (a : Int) : Int := let k := c.coef i; sat24 (mulCoef a k.1 k.2 23)
  let ud := sat24 (sat24 (c.x 15 - term 28 id) + wl 6 iq)
  let uq := sat24 (sat24 (c.x 16 - term 28 iq) - c.emfOf id)
  (sat24 (id + term 24 ud), sat24 (iq + term 26 uq))

/-- Inverse Park: (α, β) of (d, q) at an angle. -/
def invPark (d q : Int) (th : Nat) : Int × Int :=
  let t := sinCos th
  (sat24 (qmul d t.1 23 - qmul q t.2 23), sat24 (qmul d t.2 23 + qmul q t.1 23))

/-- The three phase values of (α, β), amplitude-invariant (R226). -/
def phasesOf (a b : Int) : Int × Int × Int :=
  let h := mulSqrt3 b 1 2
  (a, sat24 (divEven (-a) 2 + h), sat24 (divEven (-a) 2 - h))

/-- SS_RECON (R235), or the prediction of R234 and R236: X words 2 to 4. FOC_EXP_PREP has predicted the currents of its sampled period
in the run before (R243). -/
def ssRecon (c : Ctx) : Ctx :=
  let th := c.thetaS
  let c := (c.loadApplied c.sampledBack).setX 19 th
  if c.predicts then
    let m := if c.ax.prep then (c.x 7, c.x 8) else c.motorModel
    let ab := invPark m.1 m.2 th
    let p := phasesOf ab.1 ab.2
    c.setXs [(2, p.1), (3, p.2.1), (4, p.2.2)]
  else
    let s1 := sext 24 (c.rx 0 31 8)
    let s2 := sext 24 (c.rx 1 31 8)
    let ih := sat24 (s1 - c.x 0)
    let il := sat24 (-(sat24 (s2 - c.x 1)))
    let im := sat24 (-ih - il)
    let o := c.orderOf c.ax.paired
    let put (g : Ctx) (p : Nat) (v : Int) : Ctx := g.setX (2 + p % 4 % 3) v
    put (put (put c (o / 16) ih) (o / 4) im) o il

/-- CLARKE_PARK (R226): X words 5 to 8. -/
def clarkePark (c : Ctx) : Ctx :=
  let th := c.xu 19
  let a := c.x 2
  let b := sat24 (mulSqrt3 (c.x 2 + 2 * c.x 3) 1 3)
  let t := sinCos th
  c.setXs [(5, a), (6, b), (7, sat24 (qmul a t.1 23 + qmul b t.2 23)), (8, sat24 (qmul b t.1 23 - qmul a t.2 23))]

/-- The magnitude of a vector: each square rounded, the sum saturated, then SQRT (R458). -/
def vecMag (a b : Int) : Int := sqrtQ (sat24 (qmul a a 23 + qmul b b 23))

/-- √(a² − b²) in the same way. -/
def vecRest (a b : Int) : Int := sqrtQ (sat24 (qmul a a 23 - qmul b b 23))

/-- OBSERVER (R244). The back-EMF and the phase detector follow the chapter; the discrete form of the low-pass filter and of
the phase-locked loop is not stated: their results are free functions of their inputs (notes/assumptions/31.md). A missing report holds
its state (R236), a period without usable samples only the EMF estimate (R234). -/
def observer (c : Ctx) : Ctx :=
  let last := [(56, c.x 5), (57, c.x 6), (58, c.x 38), (59, c.x 39)]
  if !c.valid then c.setXs (last ++ [(55, min 4096 (c.x 55 + 1))])
  else
    let rs := c.coef 28
    let lq := c.coef 30
    let emf (v i i0 : Int) : Int :=
      sat24 (sat24 (v - sat24 (mulCoef i rs.1 rs.2 23)) - sat24 (mulCoef (sat24 (i - i0)) lq.1 lq.2 23))
    let ea := emf (c.x 17) (c.x 5) (c.x 56)
    let eb := emf (c.x 18) (c.x 6) (c.x 57)
    let bw := w24 (c.y 34)
    let fa := if c.predicts then c.x 34 else (Config.obsFilter (w24 (c.x 34)) (w24 ea) bw).toInt
    let fb := if c.predicts then c.x 35 else (Config.obsFilter (w24 (c.x 35)) (w24 eb) bw).toInt
    let mag := vecMag fa fb
    let th := c.xu 37
    let w := c.xLong 38
    let t := sinCos th
    let raw := sat24 (-(qmul fa t.1 23) - qmul fb t.2 23)
    let pd := if mag = 0 then 0 else sat24 (divEven (raw * 2 ^ 23) mag.toNat)
    let pd' := if w < 0 then -pd else pd
    let th' := Config.pllAngle (w24 th) (BitVec.ofInt 48 w) (w24 pd') bw
    let w' := Config.pllSpeed (w24 th) (BitVec.ofInt 48 w) (w24 pd') bw
    ((c.setXs (last ++ [(34, fa), (35, fb), (36, mag), (37, th'.toNat), (55, 0)])).setXLong 38 w'.toInt)

/-- A speed in 2^-47 turn per Bell against a limit kept as mantissa and shift, both scaled to integers: the speed's magnitude less the
limit. -/
def Ctx.speedOver (c : Ctx) (w : Int) (i : Nat) : Int :=
  let k := c.coef i
  let s := k.2 + 24
  if s ≥ 0 then (w.natAbs : Int) - k.1 * 2 ^ s.toNat else (w.natAbs : Int) * 2 ^ (-s).toNat - k.1

/-- The speed is above a limit; the speed is at or above it. -/
def Ctx.speedAbove (c : Ctx) (w : Int) (i : Nat) : Bool := decide (c.speedOver w i > 0)
def Ctx.speedReaches (c : Ctx) (w : Int) (i : Nat) : Bool := decide (c.speedOver w i ≥ 0)

/-- |ê| lies outside 0.6 to 1.4 times ψ·|ωe| (R246). -/
def Ctx.emfOff (c : Ctx) : Bool :=
  let k := c.coef 8
  let e := (mulCoef (c.we.natAbs : Int) k.1 k.2 47)
  decide (10 * c.x 36 < 6 * e) || decide (10 * c.x 36 > 14 * e)

/-- Start the I-f start from θ̂ (R248): its angle, speed and counts in X words 46 to 49 and 60. -/
def Ctx.startIf (c : Ctx) : Ctx :=
  (c.setXs [(42, 0), (43, 0), (44, 0), (46, c.x 37), (47, 0), (48, 0), (49, 0), (60, 0)]).say (.state 4)

/-- PLAUS (R245, R246, R248). An encoderless axis in RUN below OBS_MIN goes to the I-f start (notes/assumptions/35.md). A run without a
report makes no decision (R236), nor does one of a Placement Test. -/
def plaus (c : Ctx) : Ctx :=
  if c.faulted || !c.en || c.ax.placement then c
  else if !c.ax.encoderless then
    if c.valid && bit (c.rx 1 7 0) 4 then c.say (.fault 13)
    else if c.predicts then c
    else
      let off := angleDiff (c.xu 37) (c.xu 19)
      let cur := vecMag (c.x 5) (c.x 6)
      let bad := decide (off.natAbs > 2 ^ 24 / 12) && c.speedAbove c.ax.w 46 && decide (5 * cur > c.y 41)
      let n := if bad then c.x 41 + 1 else 0
      let c := c.setX 41 n
      if n ≥ 8 then c.say (.fault 9) else c
  else
    match c.state with
    | 2 =>
      if !c.valid then c
      else if !c.speedReaches (c.xLong 38) 35 then c.startIf
      else
        let n := if c.emfOff then c.x 43 + 1 else 0
        let jump := c.speedAbove (c.xLong 38 - c.xLong 58) 37
        let c := c.setX 43 n
        if n ≥ 4 || jump then ((c.setXs [(42, 0), (43, 0), (44, 0)]).say .catchStart).say (.state 3) else c
    | 3 =>
      let n := c.x 42 + 1
      let ok := if !c.valid || c.emfOff then 0 else c.x 44 + 1
      let c := c.setXs [(42, n), (44, ok)]
      if n < 64 ∨ !c.valid then c
      else if c.speedReaches (c.xLong 38) 35 && decide (ok ≥ 8) then (c.setXs [(42, 0), (44, 0)]).say (.state 2)
      else c.startIf
    | 4 =>
      let ramp := c.yu 40
      let n := c.xu 60 + 1
      let target := let k := c.coef 35; divEven (mulCoef (6 * 2 ^ 24) k.1 k.2 0) 5
      let w := if ramp = 0 then target else min target (divEven (target * n) ramp)
      let a := (((c.xu 46 : Nat) + divEven w (2 ^ 23)) % 2 ^ 24).toNat
      let near := decide (12 * (angleDiff (c.xu 37) (c.xu 46)).natAbs < 2 ^ 24) && c.speedAbove (c.xLong 38) 35
      let ok := if !c.valid then c.x 49 else if near then c.x 49 + 1 else 0
      let c := (c.setXs [(46, a), (60, n), (49, ok)]).setXLong 47 w
      if !c.valid then c else if ok ≥ 64 then c.say (.state 2) else if n ≥ 2 * ramp then c.say (.fault 10) else c
    | _ => c

/-- The current references after R237: id_ref, iq_ref, and whether one was clamped. -/
def limitRefs (c : Ctx) (idr iqr : Int) : Int × Int × Bool :=
  let ilim := sext 24 (c.mail 2)
  let ilimR := sext 24 (c.mail 3)
  let d := max (-ilim) (min ilim idr)
  let qmax := vecRest ilim d
  let q := max (-qmax) (min qmax iqr)
  let w := c.we
  let regen := (decide (q < 0) != decide (w < 0)) && decide (q ≠ 0) && c.speedAbove w 32
  let q' := if regen then max (-ilimR) (min ilimR q) else q
  (d, q', decide (d ≠ idr) || decide (q' ≠ iqr))

/-- The references of the run: the mailbox's, zero current in OFFSET and CATCH, the I-f current, or the Placement Test's
(R246, R248, R252). -/
def Ctx.refs (c : Ctx) : Int × Int :=
  if c.ax.placement then (c.ax.placeId, c.ax.placeIq)
  else match c.stateNow with
    | 3 => (0, 0)
    | 4 => (0, c.y 39)
    | _ => (sext 24 (c.mail 0), sext 24 (c.mail 1))

/-- VDC in use: this Bell's report or the last valid value (R238). -/
def Ctx.vdc (c : Ctx) : Int := c.x 62

/-- DQ_PI (R237, R238): X words 9 to 16. `hold` keeps both integrators, as OFFSET does, from which RUN starts with both at 0 (R249); a voltage
step of the Placement Test replaces it. -/
def dqPi (hold : Bool) (c : Ctx) : Ctx :=
  match c.ax.placeV with
  | some v => (c.setXs [(15, v.1), (16, v.2)]).say (.vlimit false)
  | none =>
  let r := c.refs
  let l := limitRefs c r.1 r.2
  let c := (c.setXs [(9, l.1), (10, l.2.1)]).say (.ilimit l.2.2)
  let vdc := c.vdc
  if vdc ≤ 0 then ((c.setXs [(15, 0), (16, 0)]).say (.vlimit true))
  else
    let id := c.x 7
    let iq := c.x 8
    let ed := sat24 (l.1 - id)
    let eq := sat24 (l.2.1 - iq)
    let w := c.we
    let wl (i : Nat) : Int := let k := c.coef i; sat24 (mulCoef w k.1 k.2 47)
    let intD := c.xLong 11
    let intQ := c.xLong 13
    let hold := hold || c.state == 1 || c.ax.placeOffset
    let ffd := qmul (wl 6) iq 23
    let ffq := c.emfOf id
    let vd0 := sat24 (sat24 (qmul (c.y 0) ed 20 + divEven intD (2 ^ 24)) - ffd)
    let vq0 := sat24 (sat24 (qmul (c.y 2) eq 20 + divEven intQ (2 ^ 24)) + ffq)
    let vmax := mulSqrt3 (qmul (c.y 10) vdc 16) 1 3
    let vd := max (-vmax) (min vmax vd0)
    let qlim := vecRest vmax vd
    let vq := max (-qlim) (min qlim vq0)
    let stepD := if hold then intD else if vd = vd0 then intD + c.y 1 * ed * 16
      else (vd - qmul (c.y 0) ed 20 + ffd) * 2 ^ 24
    let stepQ := if hold then intQ else if vq = vq0 then intQ + c.y 3 * eq * 16
      else (vq - qmul (c.y 2) eq 20 - ffq) * 2 ^ 24
    (((c.setXs [(15, vd), (16, vq)]).setXLong 11 stepD).setXLong 13 stepQ).say (.vlimit (decide (vd ≠ vd0 ∨ vq ≠ vq0)))

/-- vα, vβ at θmod, which leads θs by Δ = D0 − `s1` (R240); X words 17, 18 and 20. -/
def iparkFrom (s1 : Int) (c : Ctx) : Ctx :=
  let d2 := c.yu 18
  let adv := divEven (c.we * ((d2 : Int) - 2 * s1)) (2 * c.period * 2 ^ 23)
  let th := (((c.xu 19 : Nat) + adv) % 2 ^ 24).toNat
  let v := invPark (c.x 15) (c.x 16) th
  c.setXs [(20, th), (17, v.1), (18, v.2)]

/-- IPARK (R240): S1 is that of the sampled period. -/
def ipark (c : Ctx) : Ctx := iparkFrom c.smp.1 c

/-- Phase voltages in units of VDC/√3 (R241); 0 with VDC at or below 0 (R238). -/
def Ctx.phaseVolts (c : Ctx) : Int × Int × Int :=
  if c.vdc ≤ 0 then (0, 0, 0)
  else
    let p := phasesOf (c.x 17) (c.x 18)
    let u (v : Int) : Int := sat24 (divEven (v * (sqrt3 : Int) * 2 ^ 23) (c.vdc.toNat * 2 ^ 96))
    (u p.1, u p.2.1, u p.2.2)

/-- DT_COMP (R242): the correction of each phase, kept in X words 50 to 52 with the phase values added. -/
def dtComp (c : Ctx) : Ctx :=
  let u := c.phaseVolts
  if c.vdc ≤ 0 then c.setXs [(50, 0), (51, 0), (52, 0)]
  else
    let ab := invPark (c.x 7) (c.x 8) (c.xu 20)
    let p := phasesOf ab.1 ab.2
    let band := c.yu 17
    let corr (i : Int) : Int :=
      let r := if band = 0 then 0 else max (-(2 ^ 23)) (min (2 ^ 23) (divEven (i * 2 ^ 16) band))
      qmul (sat24 (mulSqrt3 (c.y 16) 1 1)) r 23
    let put (x : Int) : Int := sat24 x
    c.setXs [(50, put (u.1 + corr p.1)), (51, put (u.2.1 + corr p.2.1)), (52, put (u.2.2 + corr p.2.2))]

/-- on_x in units of 1/131,072 tick (R230). -/
def onEdge (p : Nat) (cmp shift : Int) : Int := (p : Int) * 65536 + shift * 131072 - cmp * p

/-- The shifts of the two leading phases (R231): SHIFT_h, SHIFT_m, or none when no window opens. -/
def edgeShifts (p : Nat) (tmin shLim : Int) (oh om ol : Int) : Option (Int × Int) :=
  let t := tmin * 131072
  let ceilT (x : Int) : Int := -((-x) / 131072)
  let g2 := ol - om
  let sm := if g2 < t then -(ceilT (t - g2)) else 0
  let g1 := (om + sm * 131072) - oh
  let sh := if g1 < t then -(ceilT (t - g1)) else 0
  if oh + sh * 131072 < 0 ∨ -sh > shLim ∨ -sm > shLim ∨ p = 0 then none else some (sh, sm)

/-- SVM_SHIFT (R230 to R234, R241): duties, compare values, shifts and sampling instants; X words 25 to 33 and 40. The command's voltages
and instants are kept for the runs whose reports sample its period. -/
def svmShift (extra : Int) (c : Ctx) : Ctx :=
  let p := c.period
  let u := c.x 50
  let v := c.x 51
  let w := c.x 52
  let mx := max u (max v w)
  let mn := min u (min v w)
  let cmpMin := c.y 11
  let duty (x : Int) : Int :=
    let d := sat24 (2 ^ 22 + mulSqrt3 (sat24 (x - divEven (sat24 (mx + mn)) 2)) 1 3)
    min 65535 (divEven d 128)
  let clamp (x : Int) : Int := max cmpMin (min (65536 - cmpMin) (max 0 x))
  let legs := (c.ax.placeDuty).getD (duty u, duty v, duty w)
  let cu := clamp legs.1
  let cv := clamp legs.2.1
  let cw := clamp legs.2.2
  let o := phaseOrder cu cv cw
  let cm (i : Nat) : Int := [cu, cv, cw].getD i 0
  let h := nth o 0
  let m := nth o 1
  let l := nth o 2
  let oh := onEdge p (cm h) 0
  let om := onEdge p (cm m) 0
  let ol := onEdge p (cm l) 0
  let ord : Int := h * 16 + m * 4 + l
  let put (g : Ctx) (sh sm s1 s2 : Int) : Ctx :=
    let sx (i : Nat) : Int := if i = h then sh else if i = m then sm else 0
    (g.setXs [(25, cu), (26, cv), (27, cw), (28, sx 0), (29, sx 1), (30, sx 2), (31, s1), (32, s2), (33, ord)]).keepApplied
  match edgeShifts p (c.y 12 + extra) (c.y 14) oh om ol with
  | none =>
    let s2 := c.y 44
    let run := if c.ride ∧ c.x 40 > 0 then c.x 40 else c.x 40 + 1
    let c := ((put c 0 0 (s2 - 1) s2).setX 40 run).say (.nowin true)
    if run ≥ c.y 42 then (c.say (.shifted false)).say (.fault 11) else c.say (.shifted false)
  | some (sh, sm) =>
    let tap := c.y 13
    let s1 := (om + sm * 131072) / 131072 - tap - 1
    let s2 := ol / 131072 - tap - 1
    (((put c sh sm s1 s2).setX 40 0).say (.nowin false)).say (.shifted (decide (sh ≠ 0 ∨ sm ≠ 0)))

/-- GATE_EN (R459). -/
def Ctx.gateEn (c : Ctx) : Bool :=
  c.en && !c.faulted && decide (c.stopCode ≠ 2) && !c.stoSeen &&
    (c.state == 2 || c.state == 3 || c.state == 4 || (c.ax.placement && c.ax.driving))

/-- Word 4 of a command (R459): DT, CHOP, FLT_ACK, RIDE_OK, BRAKE, GATE_EN. -/
def Ctx.word4 (c : Ctx) : Nat :=
  let m := c.mail 5
  let g := b2n c.gateEn
  bits m 7 0 * 2 ^ 24 + bits m 15 8 * 2 ^ 16 + bits m 17 17 * 32 + (if c.ax.placement then 0 else g) * 4 + bits m 16 16 * 2 + g

/-- A compare value and its shift as a command word (Table 05-5). -/
def cmpWord (cmp shift : Int) : Nat := toBits 16 cmp * 65536 + toBits 16 shift

/-- The command words of a servo axis (Table 05-5, R240). -/
def writeCommand (c : Ctx) : Ctx :=
  let vd := c.x 15
  let vq := c.x 16
  let vang := (((c.xu 19 : Nat) + (atan2Q vq vd : Int)) % 2 ^ 24).toNat
  let vmag : Int := if c.vdc ≤ 0 then 0 else sat24 (divEven (vecMag vd vq * (sqrt3 : Int) * 2 ^ 23) (c.vdc.toNat * 2 ^ 96))
  ((((((c.setTx 0 (cmpWord (c.x 25) (c.x 28))).setTx 1 (cmpWord (c.x 26) (c.x 29))).setTx 2 (cmpWord (c.x 27) (c.x 30))).setTx 3
    (toBits 16 (c.x 31) * 65536 + toBits 16 (c.x 32))).setTx 4 c.word4).setTx 5 (vang * 256 + c.xu 61 % 256)).setTx 6
    (toBits 24 vmag * 256)

/-- The report's VDC and BSEQ kept for the run (R236, R238), with the speed and the count of R227 (X words 21 to 24). -/
def readReport (c : Ctx) : Ctx :=
  let c := (c.setXLong 21 c.ax.w).setXs [(23, c.ax.count / 65536 % 2 ^ 24), (24, c.ax.count % 65536 * 256)]
  if c.valid then c.setXs [(62, sext 24 (c.rx 4 31 8)), (61, c.pt.rxBseq)] else c

/-- The averaging of the offsets in state OFFSET and its end after 64 valid reports (R249). -/
def offsetRun (c : Ctx) : Ctx :=
  if (c.state ≠ 1 ∧ !c.ax.placeOffset) ∨ !c.valid then c
  else
    let n := c.x 45 + 1
    let s1 := c.xLong 53 + sext 24 (c.rx 0 31 8)
    let s2 := c.xLong 43 + sext 24 (c.rx 1 31 8)
    let c := ((c.setXLong 53 s1).setXLong 43 s2).setX 45 n
    if n < 64 then c
    else
      let o1 := qdiv s1 64
      let o2 := qdiv s2 64
      let c := (((((c.setXs [(0, o1), (1, o2), (45, 0), (41, 0)]).setXLong 53 0).setXLong 43 0).setXLong 11 0).setXLong 13 0)
      if 20 * o1.natAbs > 2 ^ 23 ∨ 20 * o2.natAbs > 2 ^ 23 then c.say (.fault 12) else c.say (.state 2)

/-- The values of the last run as the registers show them (AX_I_D to AX_OFS). -/
def reportValues (c : Ctx) : Ctx :=
  let n := c.ax.axis
  let q (i : Nat) : Nat := toBits 24 (c.x i) * 256
  [AxFx.word (0x0800A0 + 0x400 * n) (q 7), .word (0x0800A4 + 0x400 * n) (q 8), .word (0x0800A8 + 0x400 * n) (q 15),
    .word (0x0800AC + 0x400 * n) (q 16), .word (0x0800B0 + 0x400 * n) (c.xu 19 * 256),
    .word (0x0800B4 + 0x400 * n) (c.xu 37 * 256), .word (0x0800B8 + 0x400 * n) (toBits 32 (divEven (c.xLong 38) (2 ^ 15))),
    .word (0x0800BC + 0x400 * n) (toBits 16 (c.x 0 / 256) * 65536 + toBits 16 (c.x 1 / 256))].foldl Ctx.say c

/-- FOC_STD: the parts of Table 10-1 in order, then the command words (R228). -/
def focStd (c : Ctx) : Ctx :=
  let c := offsetRun (readReport c)
  let hold := c.predicts
  reportValues (writeCommand (svmShift 0 (dtComp (ipark (dqPi hold (plaus (observer (clarkePark (ssRecon c)))))))))

/-- The change of one phase's compare value for a unit change of a sample, through the proportional path, the inverse
transforms and the modulation at the present operating point (R243), in counts; `o` is the order of the sampled command, while the largest
and the smallest phase of the zero-sequence term are those of the command prepared (X word 33). -/
def gainColumn (c : Ctx) (o : Nat) (dh dm dl : Int) : List Int :=
  if c.vdc ≤ 0 then [0, 0, 0]
  else
    let h := o / 16 % 3
    let m := o / 4 % 4 % 3
    let l := o % 4 % 3
    let ph (i : Nat) : Int := if i = h then dh else if i = m then dm else if i = l then dl else 0
    let a := ph 0
    let b := mulSqrt3 (ph 0 + 2 * ph 1) 1 3
    let t := sinCos (c.xu 19)
    let mul (x y : Int) : Int := divEven (x * y) (2 ^ 23)
    let d := mul a t.1 + mul b t.2
    let q := mul b t.1 - mul a t.2
    let vd := -(divEven (c.y 0 * d) (2 ^ 20))
    let vq := -(divEven (c.y 2 * q) (2 ^ 20))
    let t' := sinCos (c.xu 20)
    let va := mul vd t'.1 - mul vq t'.2
    let vb := mul vd t'.2 + mul vq t'.1
    let top := c.xu 33 / 16 % 3
    let low := c.xu 33 % 4 % 3
    let p := phasesOf (satInt 40 va) (satInt 40 vb)
    let u (i : Nat) : Int := [p.1, p.2.1, p.2.2].getD i 0
    [0, 1, 2].map (fun i => sat24 (divEven ((2 * u i - u top - u low) * 65536) (2 * c.vdc.toNat)))

/-- FOC_EXP_PREP (R243): the law on the last report for the integrators, the observer and the synchronism checks; then one step of the
motor model to the coming samples, and from these the predicted samples, the prepared command and the gain matrix; X words 64 to 74. -/
def focExpPrep (c : Ctx) : Ctx :=
  let c := offsetRun (readReport c)
  let hold := c.predicts
  let c := dqPi hold (plaus (observer (clarkePark (ssRecon c))))
  let c := c.loadApplied 0
  let m := c.motorModel
  let th := (((c.xu 19 : Nat) + divEven c.we (2 ^ 23)) % 2 ^ 24).toNat
  let ab := invPark m.1 m.2 th
  let p := phasesOf ab.1 ab.2
  let o := c.orderOf c.ax.next
  let ph (i : Nat) : Int := [p.1, p.2.1, p.2.2].getD i 0
  let c := c.setXs [(7, m.1), (8, m.2), (19, th), (64, ph (o / 16 % 3)), (65, sat24 (-(ph (o % 4 % 3))))]
  let extra := 2 * (-((-(c.y 15 * c.period)) / 131072))
  let c := svmShift extra (dtComp (iparkFrom (c.instants c.ax.next 0).1 (dqPi true c)))
  let g1 := gainColumn c o (2 ^ 23) (-(2 ^ 23)) 0
  let g2 := gainColumn c o 0 (2 ^ 23) (-(2 ^ 23))
  let c := c.setXs [(66, g1.getD 0 0), (67, g1.getD 1 0), (68, g1.getD 2 0), (69, g2.getD 0 0), (70, g2.getD 1 0),
    (71, g2.getD 2 0), (72, c.x 25), (73, c.x 26), (74, c.x 27)]
  reportValues (writeCommand c)

/-- FOC_EXP_CLOSE (R243): the compare values corrected from the measured samples; those of a NOWIN or ridden period are discarded, and the
prepared command goes as it was predicted (R234, R350). A fault that stands by now, such as one that the flags of this report set, takes
GATE_EN and RIDE_OK out (`trip`, Table 10-8). Without a valid report the staging bank goes back to the payload last committed, so that the
COMMIT after it changes nothing (R24). -/
def focExpClose (trip : Bool) (c : Ctx) : Ctx :=
  if !c.valid then { c with e := { c.e with stage := if c.pt.hasTx then c.pt.committed else c.e.stage, dirty := false } }
  else
    let e1 := if c.predicts then 0 else sat24 (sat24 (sext 24 (c.rx 0 31 8) - c.x 0) - c.x 64)
    let e2 := if c.predicts then 0 else sat24 (sat24 (sext 24 (c.rx 1 31 8) - c.x 1) - c.x 65)
    let lim := c.y 15
    let cmpMin := c.y 11
    let new (i : Nat) : Int :=
      let d := qmul (c.x (66 + i)) e1 23 + qmul (c.x (69 + i)) e2 23
      max cmpMin (min (65536 - cmpMin) (c.x (72 + i) + max (-lim) (min lim d)))
    let c := c.setXs [(25, new 0), (26, new 1), (27, new 2)]
    let c := ((c.setTx 0 (cmpWord (c.x 25) (c.x 28))).setTx 1 (cmpWord (c.x 26) (c.x 29))).setTx 2 (cmpWord (c.x 27) (c.x 30))
    if trip then c.setTx 4 (bandNot (c.tx 4) 5) else c

/-- The helper entries 0x12 to 0x15 on the engine's registers (R458). -/
def lawSinCos (e : Engine) : Engine :=
  let t := sinCos (e.k[0]).toNat
  { e with k := (e.k.set 4 (w24 t.1)).set 5 (w24 t.2) }

def lawSqrt (e : Engine) : Engine :=
  let k := (e.k[0]).toInt
  { e with k := e.k.set 0 (w24 (sqrtQ k)), fl := if k < 0 then withT e.fl else e.fl }

def lawRecip (e : Engine) : Engine :=
  let r := recipQ (e.k[0]).toInt
  { e with sum := e.sum.set 0 r.1, fl := if r.2 then withT e.fl ||| 0x08 else e.fl }

def lawAtan2 (e : Engine) : Engine :=
  { e with k := e.k.set 0 (BitVec.ofNat 24 (atan2Q (e.k[0]).toInt (e.k[1]).toInt)) }

end Sys2Proof.Machine
end

