-- ==== Sys2Proof/Machine/Addr.lean ====
section
/-! DEFINITION. The byte addresses of the host registers and the places of their fields, named as the register
pages of the spec name them (chapters 03 to 20). -/

namespace Sys2Proof.Machine

/-- A field of a register: the register's byte address and the field's highest and lowest bit. -/
structure Fld where
  addr : Nat
  hi : Nat
  lo : Nat
  deriving DecidableEq, Repr

/-! The addresses and fields, one per register page entry. -/

abbrev SYS_ID : Nat := 0x000000
abbrev SYS_ID_PART : Fld := ⟨SYS_ID, 31, 16⟩
abbrev SYS_ID_REV : Fld := ⟨SYS_ID, 15, 8⟩
abbrev SYS_UID_LO : Nat := 0x000004
abbrev SYS_UID_HI : Nat := 0x000008
abbrev SYS_STRAP : Nat := 0x00000c
abbrev SYS_STRAP_SVC_EN_LIVE : Fld := ⟨SYS_STRAP, 4, 4⟩
abbrev SYS_STRAP_SVC_EN : Fld := ⟨SYS_STRAP, 3, 3⟩
abbrev SYS_STRAP_ROLE : Fld := ⟨SYS_STRAP, 2, 2⟩
abbrev SYS_STRAP_BOOT_MODE : Fld := ⟨SYS_STRAP, 1, 0⟩
abbrev SYS_STATUS : Nat := 0x000010
abbrev SYS_STATUS_KEY_FAULT : Fld := ⟨SYS_STATUS, 7, 7⟩
abbrev SYS_STATUS_ENG_OPEN : Fld := ⟨SYS_STATUS, 6, 6⟩
abbrev SYS_STATUS_KEY_BLANK : Fld := ⟨SYS_STATUS, 5, 5⟩
abbrev SYS_STATUS_TRIM_BAD : Fld := ⟨SYS_STATUS, 4, 4⟩
abbrev SYS_STATUS_STATE : Fld := ⟨SYS_STATUS, 3, 0⟩
abbrev SYS_RESET_CAUSE : Nat := 0x000014
abbrev SYS_RESET_CAUSE_SW : Fld := ⟨SYS_RESET_CAUSE, 2, 2⟩
abbrev SYS_RESET_CAUSE_PIN : Fld := ⟨SYS_RESET_CAUSE, 1, 1⟩
abbrev SYS_RESET_CAUSE_POR : Fld := ⟨SYS_RESET_CAUSE, 0, 0⟩
abbrev SYS_SWRST : Nat := 0x000018
abbrev SYS_TRIM_CTL : Nat := 0x000020
abbrev SYS_TRIM_CTL_COMMIT : Fld := ⟨SYS_TRIM_CTL, 1, 1⟩
abbrev SYS_TRIM_CTL_VIEW : Fld := ⟨SYS_TRIM_CTL, 0, 0⟩
abbrev SYS_TRIM_STAT : Nat := 0x000024
abbrev SYS_TRIM_STAT_COUNT : Fld := ⟨SYS_TRIM_STAT, 31, 16⟩
abbrev SYS_TRIM_STAT_REFUSE : Fld := ⟨SYS_TRIM_STAT, 2, 2⟩
abbrev SYS_TRIM_STAT_ORIGIN : Fld := ⟨SYS_TRIM_STAT, 1, 1⟩
abbrev SYS_TRIM_STAT_BUSY : Fld := ⟨SYS_TRIM_STAT, 0, 0⟩
abbrev SYS_TRIM (n : Nat) : Nat := 0x000800 + 0x4 * n
abbrev BOOT_STATUS : Nat := 0x010000
abbrev BOOT_STATUS_SLOT : Fld := ⟨BOOT_STATUS, 11, 8⟩
abbrev BOOT_STATUS_HOSTLOAD : Fld := ⟨BOOT_STATUS, 3, 3⟩
abbrev BOOT_STATUS_FALLBACK : Fld := ⟨BOOT_STATUS, 2, 2⟩
abbrev BOOT_STATUS_FAILED : Fld := ⟨BOOT_STATUS, 1, 1⟩
abbrev BOOT_STATUS_LOADED : Fld := ⟨BOOT_STATUS, 0, 0⟩
abbrev BOOT_FAIL : Nat := 0x010004
abbrev BOOT_FAIL_SECTION : Fld := ⟨BOOT_FAIL, 15, 8⟩
abbrev BOOT_FAIL_CODE : Fld := ⟨BOOT_FAIL, 7, 0⟩
abbrev BOOT_SLOT : Nat := 0x010008
abbrev BOOT_SLOT_UPDATE : Fld := ⟨BOOT_SLOT, 16, 16⟩
abbrev BOOT_SLOT_FALLBACK : Fld := ⟨BOOT_SLOT, 15, 8⟩
abbrev BOOT_SLOT_SEL : Fld := ⟨BOOT_SLOT, 7, 0⟩
abbrev BOOT_RECIPE_ID : Nat := 0x01000c
abbrev BOOT_RECIPE_VER : Nat := 0x010010
abbrev BOOT_LEVEL : Nat := 0x010014
abbrev BOOT_LEVEL_SUPPORTED : Fld := ⟨BOOT_LEVEL, 31, 16⟩
abbrev BOOT_LEVEL_LEVEL : Fld := ⟨BOOT_LEVEL, 7, 0⟩
abbrev BOOT_RELEASE : Nat := 0x010018
abbrev BOOT_RELEASE_GO : Fld := ⟨BOOT_RELEASE, 0, 0⟩
abbrev BOOT_RELOAD : Nat := 0x01001c
abbrev BOOT_RELOAD_REFUSE : Fld := ⟨BOOT_RELOAD, 15, 12⟩
abbrev BOOT_RELOAD_BUSY : Fld := ⟨BOOT_RELOAD, 9, 9⟩
abbrev BOOT_RELOAD_REQ : Fld := ⟨BOOT_RELOAD, 8, 8⟩
abbrev BOOT_RELOAD_SLOT : Fld := ⟨BOOT_RELOAD, 3, 0⟩
abbrev BOOT_FLASH : Nat := 0x010020
abbrev BOOT_FLASH_READ : Fld := ⟨BOOT_FLASH, 19, 0⟩
abbrev BOOT_LOAD_TIME : Nat := 0x010024
abbrev BOOT_KEY_STAT : Nat := 0x010028
abbrev BOOT_KEY_CHECK : Nat := 0x01002c
abbrev BOOT_HL_CTL : Nat := 0x010030
abbrev BOOT_HL_CTL_START : Fld := ⟨BOOT_HL_CTL, 31, 31⟩
abbrev BOOT_HL_CTL_ABORT : Fld := ⟨BOOT_HL_CTL, 30, 30⟩
abbrev BOOT_HL_CTL_LEN : Fld := ⟨BOOT_HL_CTL, 23, 0⟩
abbrev BOOT_HL_DATA : Nat := 0x010034
abbrev BOOT_FLOP : Nat := 0x010038
abbrev BOOT_FLOP_RESULT : Fld := ⟨BOOT_FLOP, 31, 30⟩
abbrev BOOT_FLOP_OP : Fld := ⟨BOOT_FLOP, 2, 0⟩
abbrev BOOT_FLOP_ADDR : Nat := 0x01003c
abbrev BOOT_KEY_DATA (n : Nat) : Nat := 0x010040 + 0x4 * n
abbrev BOOT_KEY_ID : Nat := 0x010060
abbrev BOOT_KEY_PROG : Nat := 0x010064
abbrev BOOT_FLOP_DATA (n : Nat) : Nat := 0x010100 + 0x4 * n
abbrev LANE_TOPO : Nat := 0x020000
abbrev LANE_TOPO_LL_USED : Fld := ⟨LANE_TOPO, 4, 4⟩
abbrev LANE_TOPO_TOPO_B : Fld := ⟨LANE_TOPO, 3, 2⟩
abbrev LANE_TOPO_TOPO_A : Fld := ⟨LANE_TOPO, 1, 0⟩
abbrev LANE_UP : Nat := 0x020004
abbrev LANE_UP_UP : Fld := ⟨LANE_UP, 9, 0⟩
abbrev LANE_CTL (n : Nat) : Nat := 0x020100 + 0x40 * n
abbrev LANE_CTL_LOOP (n : Nat) : Fld := ⟨LANE_CTL n, 8, 8⟩
abbrev LANE_CTL_EQ_HOLD (n : Nat) : Fld := ⟨LANE_CTL n, 2, 2⟩
abbrev LANE_CTL_EMPH (n : Nat) : Fld := ⟨LANE_CTL n, 1, 0⟩
abbrev LANE_STAT (n : Nat) : Nat := 0x020104 + 0x40 * n
abbrev LANE_STAT_EQ (n : Nat) : Fld := ⟨LANE_STAT n, 11, 8⟩
abbrev LANE_STAT_INV (n : Nat) : Fld := ⟨LANE_STAT n, 4, 4⟩
abbrev LANE_STAT_LOS (n : Nat) : Fld := ⟨LANE_STAT n, 3, 3⟩
abbrev LANE_STAT_STATE (n : Nat) : Fld := ⟨LANE_STAT n, 2, 0⟩
abbrev LANE_EVT (n : Nat) : Nat := 0x020108 + 0x40 * n
abbrev LANE_EVT_GATE (n : Nat) : Fld := ⟨LANE_EVT n, 4, 4⟩
abbrev LANE_EVT_OVERRUN (n : Nat) : Fld := ⟨LANE_EVT n, 3, 3⟩
abbrev LANE_EVT_LOS (n : Nat) : Fld := ⟨LANE_EVT n, 2, 2⟩
abbrev LANE_EVT_SYNC_LOSS (n : Nat) : Fld := ⟨LANE_EVT n, 1, 1⟩
abbrev LANE_EVT_UP (n : Nat) : Fld := ⟨LANE_EVT n, 0, 0⟩
abbrev LANE_CV (n : Nat) : Nat := 0x02010c + 0x40 * n
abbrev LANE_SYNCLOSS (n : Nat) : Nat := 0x020110 + 0x40 * n
abbrev LANE_FRAMING (n : Nat) : Nat := 0x020114 + 0x40 * n
abbrev LANE_OVERRUN (n : Nat) : Nat := 0x020118 + 0x40 * n
abbrev LANE_GATE (n : Nat) : Nat := 0x02011c + 0x40 * n
abbrev LANE_ELASTIC (n : Nat) : Nat := 0x020120 + 0x40 * n
abbrev LANE_LENGTH (n : Nat) : Nat := 0x020124 + 0x40 * n
abbrev LANE_HEADER (n : Nat) : Nat := 0x020128 + 0x40 * n
abbrev LANE_CRC (n : Nat) : Nat := 0x02012c + 0x40 * n
abbrev TIME_MT_NS : Nat := 0x030000
abbrev TIME_MT_NS_NS : Fld := ⟨TIME_MT_NS, 31, 2⟩
abbrev TIME_MT_NS_DOMAIN : Fld := ⟨TIME_MT_NS, 1, 0⟩
abbrev TIME_MT_SEC : Nat := 0x030004
abbrev TIME_LT_NS : Nat := 0x030008
abbrev TIME_LT_NS_NS : Fld := ⟨TIME_LT_NS, 31, 2⟩
abbrev TIME_LT_NS_DOMAIN : Fld := ⟨TIME_LT_NS, 1, 0⟩
abbrev TIME_LT_SEC : Nat := 0x03000c
abbrev TIME_FR_NS : Nat := 0x030010
abbrev TIME_FR_NS_NS : Fld := ⟨TIME_FR_NS, 31, 2⟩
abbrev TIME_FR_NS_DOMAIN : Fld := ⟨TIME_FR_NS, 1, 0⟩
abbrev TIME_FR_SEC : Nat := 0x030014
abbrev TIME_MT_ADDEND : Nat := 0x030018
abbrev TIME_LT_ADDEND : Nat := 0x03001c
abbrev TIME_MT_CTL : Nat := 0x030020
abbrev TIME_MT_CTL_KI_SHIFT : Fld := ⟨TIME_MT_CTL, 15, 12⟩
abbrev TIME_MT_CTL_KP_SHIFT : Fld := ⟨TIME_MT_CTL, 11, 8⟩
abbrev TIME_MT_CTL_REF_MODE : Fld := ⟨TIME_MT_CTL, 1, 0⟩
abbrev TIME_MT_STAT : Nat := 0x030024
abbrev TIME_MT_STAT_CAND : Fld := ⟨TIME_MT_STAT, 25, 24⟩
abbrev TIME_MT_STAT_SRC_HEAD : Fld := ⟨TIME_MT_STAT, 23, 16⟩
abbrev TIME_MT_STAT_REF : Fld := ⟨TIME_MT_STAT, 15, 8⟩
abbrev TIME_MT_STAT_STEPPED : Fld := ⟨TIME_MT_STAT, 4, 4⟩
abbrev TIME_MT_STAT_STATE : Fld := ⟨TIME_MT_STAT, 3, 0⟩
abbrev TIME_MT_OFFSET : Nat := 0x030028
abbrev TIME_MT_HOFS_NS : Nat := 0x03002c
abbrev TIME_MT_HOFS_NS_NS : Fld := ⟨TIME_MT_HOFS_NS, 31, 2⟩
abbrev TIME_MT_HOFS_SEC : Nat := 0x030030
abbrev TIME_BELL_CNT : Nat := 0x030034
abbrev TIME_EVT : Nat := 0x030038
abbrev TIME_EVT_TRG_OVR : Fld := ⟨TIME_EVT, 19, 16⟩
abbrev TIME_EVT_TRG_LATE : Fld := ⟨TIME_EVT, 15, 12⟩
abbrev TIME_EVT_PPS_IN : Fld := ⟨TIME_EVT, 8, 8⟩
abbrev TIME_EVT_SRC_CONFLICT : Fld := ⟨TIME_EVT, 7, 7⟩
abbrev TIME_EVT_REF_FAULT : Fld := ⟨TIME_EVT, 6, 6⟩
abbrev TIME_EVT_RATE_LIMIT : Fld := ⟨TIME_EVT, 5, 5⟩
abbrev TIME_EVT_HANDOVER : Fld := ⟨TIME_EVT, 4, 4⟩
abbrev TIME_EVT_HOLDOVER : Fld := ⟨TIME_EVT, 3, 3⟩
abbrev TIME_EVT_UNLOCK : Fld := ⟨TIME_EVT, 2, 2⟩
abbrev TIME_EVT_LOCK : Fld := ⟨TIME_EVT, 1, 1⟩
abbrev TIME_EVT_STEP : Fld := ⟨TIME_EVT, 0, 0⟩
abbrev TIME_PPS_CTL : Nat := 0x030040
abbrev TIME_PPS_CTL_WIDTH_MS : Fld := ⟨TIME_PPS_CTL, 24, 16⟩
abbrev TIME_PPS_CTL_OUT_SCALE : Fld := ⟨TIME_PPS_CTL, 1, 1⟩
abbrev TIME_PPS_CTL_OUT_EN : Fld := ⟨TIME_PPS_CTL, 0, 0⟩
abbrev TIME_PPS_MT_NS : Nat := 0x030044
abbrev TIME_PPS_MT_SEC : Nat := 0x030048
abbrev TIME_PPS_LT_NS : Nat := 0x03004c
abbrev TIME_PPS_LT_SEC : Nat := 0x030050
abbrev TIME_PPS_CNT : Nat := 0x030054
abbrev TIME_TRG_CTL (n : Nat) : Nat := 0x030100 + 0x20 * n
abbrev TIME_TRG_CTL_WIDTH (n : Nat) : Fld := ⟨TIME_TRG_CTL n, 31, 16⟩
abbrev TIME_TRG_CTL_POL (n : Nat) : Fld := ⟨TIME_TRG_CTL n, 4, 4⟩
abbrev TIME_TRG_CTL_EDGE (n : Nat) : Fld := ⟨TIME_TRG_CTL n, 3, 2⟩
abbrev TIME_TRG_CTL_MODE (n : Nat) : Fld := ⟨TIME_TRG_CTL n, 1, 0⟩
abbrev TIME_TRG_NS (n : Nat) : Nat := 0x030104 + 0x20 * n
abbrev TIME_TRG_NS_NS (n : Nat) : Fld := ⟨TIME_TRG_NS n, 31, 2⟩
abbrev TIME_TRG_NS_DOMAIN (n : Nat) : Fld := ⟨TIME_TRG_NS n, 1, 0⟩
abbrev TIME_TRG_SEC (n : Nat) : Nat := 0x030108 + 0x20 * n
abbrev TIME_TRG_PER (n : Nat) : Nat := 0x03010c + 0x20 * n
abbrev TIME_TRG_STAMP_NS (n : Nat) : Nat := 0x030110 + 0x20 * n
abbrev TIME_TRG_STAMP_SEC (n : Nat) : Nat := 0x030114 + 0x20 * n
abbrev SCHED_CFG : Nat := 0x040000
abbrev SCHED_CFG_PRIV_RES : Fld := ⟨SCHED_CFG, 31, 16⟩
abbrev SCHED_CFG_BMAX : Fld := ⟨SCHED_CFG, 15, 0⟩
abbrev SCHED_LOAD : Nat := 0x040004
abbrev SCHED_LOAD_CYC : Fld := ⟨SCHED_LOAD, 31, 16⟩
abbrev SCHED_LOAD_TOTAL : Fld := ⟨SCHED_LOAD, 15, 0⟩
abbrev SCHED_LOAD_PEAK : Nat := 0x040008
abbrev SCHED_LOAD_PEAK_PEAK : Fld := ⟨SCHED_LOAD_PEAK, 15, 0⟩
abbrev SCHED_WC : Nat := 0x04000c
abbrev SCHED_WC_WC_LOAD : Fld := ⟨SCHED_WC, 15, 0⟩
abbrev SCHED_EN_SET : Nat := 0x040010
abbrev SCHED_EN_SET_TID : Fld := ⟨SCHED_EN_SET, 9, 0⟩
abbrev SCHED_FLAG_SET : Nat := 0x040014
abbrev SCHED_FLAG_SET_SOFT : Fld := ⟨SCHED_FLAG_SET, 23, 16⟩
abbrev SCHED_FLAG_SET_TID : Fld := ⟨SCHED_FLAG_SET, 9, 0⟩
abbrev SCHED_EVT : Nat := 0x040018
abbrev SCHED_EVT_PRIV_DEFER : Fld := ⟨SCHED_EVT, 2, 2⟩
abbrev SCHED_EVT_OVR_FAULT : Fld := ⟨SCHED_EVT, 1, 1⟩
abbrev SCHED_EVT_OVERRUN : Fld := ⟨SCHED_EVT, 0, 0⟩
abbrev SCHED_COAL : Nat := 0x04001c
abbrev SCHED_PRIVQ : Nat := 0x040020
abbrev SCHED_PRIVQ_Q3 : Fld := ⟨SCHED_PRIVQ, 31, 24⟩
abbrev SCHED_PRIVQ_Q2 : Fld := ⟨SCHED_PRIVQ, 23, 16⟩
abbrev SCHED_PRIVQ_Q1 : Fld := ⟨SCHED_PRIVQ, 15, 8⟩
abbrev SCHED_PRIVQ_Q0 : Fld := ⟨SCHED_PRIVQ, 7, 0⟩
abbrev SCHED_TSTAT (n : Nat) : Nat := 0x044000 + 0x4 * n
abbrev SCHED_TSTAT_STATE (n : Nat) : Fld := ⟨SCHED_TSTAT n, 31, 30⟩
abbrev SCHED_TSTAT_ENG (n : Nat) : Fld := ⟨SCHED_TSTAT n, 29, 26⟩
abbrev SCHED_TSTAT_CONSEC (n : Nat) : Fld := ⟨SCHED_TSTAT n, 25, 24⟩
abbrev SCHED_TSTAT_FAULT (n : Nat) : Fld := ⟨SCHED_TSTAT n, 23, 16⟩
abbrev SCHED_OVR (n : Nat) : Nat := 0x045000 + 0x4 * n
abbrev SCHED_FLAGS (n : Nat) : Nat := 0x046000 + 0x4 * n
abbrev SCHED_DESC (n : Nat) : Nat := 0x048000 + 0x4 * n
abbrev LE_SEL : Nat := 0x050000
abbrev LE_SEL_ENG : Fld := ⟨LE_SEL, 3, 0⟩
abbrev LE_ROM : Nat := 0x050004
abbrev LE_ROM_LEVELS : Fld := ⟨LE_ROM, 31, 16⟩
abbrev LE_ROM_VER : Fld := ⟨LE_ROM, 15, 0⟩
abbrev LE_CTL (n : Nat) : Nat := 0x050100 + 0x20 * n
abbrev LE_CTL_RUN (n : Nat) : Fld := ⟨LE_CTL n, 2, 2⟩
abbrev LE_CTL_STEP (n : Nat) : Fld := ⟨LE_CTL n, 1, 1⟩
abbrev LE_CTL_HALT (n : Nat) : Fld := ⟨LE_CTL n, 0, 0⟩
abbrev LE_STAT (n : Nat) : Nat := 0x050104 + 0x20 * n
abbrev LE_STAT_PC (n : Nat) : Fld := ⟨LE_STAT n, 28, 16⟩
abbrev LE_STAT_TID (n : Nat) : Fld := ⟨LE_STAT n, 15, 6⟩
abbrev LE_STAT_STATE (n : Nat) : Fld := ⟨LE_STAT n, 2, 0⟩
abbrev LE_FAULT (n : Nat) : Nat := 0x050108 + 0x20 * n
abbrev LE_FAULT_CODE (n : Nat) : Fld := ⟨LE_FAULT n, 31, 24⟩
abbrev LE_FAULT_TID (n : Nat) : Fld := ⟨LE_FAULT n, 23, 14⟩
abbrev LE_FAULT_PC (n : Nat) : Fld := ⟨LE_FAULT n, 12, 0⟩
abbrev LE_PC (n : Nat) : Nat := 0x05010c + 0x20 * n
abbrev LE_PC_PC (n : Nat) : Fld := ⟨LE_PC n, 12, 0⟩
abbrev LE_BUSY (n : Nat) : Nat := 0x050110 + 0x20 * n
abbrev LE_ECC (n : Nat) : Nat := 0x050114 + 0x20 * n
abbrev AX_CTL (n : Nat) : Nat := 0x080000 + 0x400 * n
abbrev AX_CTL_CLR_BRIDGE (n : Nat) : Fld := ⟨AX_CTL n, 5, 5⟩
abbrev AX_CTL_CLR (n : Nat) : Fld := ⟨AX_CTL n, 4, 4⟩
abbrev AX_CTL_CTRL (n : Nat) : Fld := ⟨AX_CTL n, 3, 2⟩
abbrev AX_CTL_FB (n : Nat) : Fld := ⟨AX_CTL n, 1, 1⟩
abbrev AX_CTL_EN (n : Nat) : Fld := ⟨AX_CTL n, 0, 0⟩
abbrev AX_STAT (n : Nat) : Nat := 0x080004 + 0x400 * n
abbrev AX_STAT_CATCHES (n : Nat) : Fld := ⟨AX_STAT n, 9, 8⟩
abbrev AX_STAT_ILIMIT (n : Nat) : Fld := ⟨AX_STAT n, 7, 7⟩
abbrev AX_STAT_VLIMIT (n : Nat) : Fld := ⟨AX_STAT n, 6, 6⟩
abbrev AX_STAT_NOWIN (n : Nat) : Fld := ⟨AX_STAT n, 5, 5⟩
abbrev AX_STAT_SHIFTED (n : Nat) : Fld := ⟨AX_STAT n, 4, 4⟩
abbrev AX_STAT_STATE (n : Nat) : Fld := ⟨AX_STAT n, 3, 0⟩
abbrev AX_FAULT (n : Nat) : Nat := 0x080008 + 0x400 * n
abbrev AX_FAULT_FAULT (n : Nat) : Fld := ⟨AX_FAULT n, 13, 0⟩
abbrev AX_MOTOR (n : Nat) : Nat := 0x080010 + 0x400 * n
abbrev AX_MOTOR_DIR (n : Nat) : Fld := ⟨AX_MOTOR n, 8, 8⟩
abbrev AX_MOTOR_PP (n : Nat) : Fld := ⟨AX_MOTOR n, 7, 0⟩
abbrev AX_ENC_CPR (n : Nat) : Nat := 0x080014 + 0x400 * n
abbrev AX_ENC_ZERO (n : Nat) : Nat := 0x080018 + 0x400 * n
abbrev AX_ENC_ZERO_ZERO (n : Nat) : Fld := ⟨AX_ENC_ZERO n, 31, 8⟩
abbrev AX_RS (n : Nat) : Nat := 0x080020 + 0x400 * n
abbrev AX_LD (n : Nat) : Nat := 0x080024 + 0x400 * n
abbrev AX_LQ (n : Nat) : Nat := 0x080028 + 0x400 * n
abbrev AX_PSI (n : Nat) : Nat := 0x08002c + 0x400 * n
abbrev AX_CUR_BW (n : Nat) : Nat := 0x080030 + 0x400 * n
abbrev AX_CUR_BW_BW_Q (n : Nat) : Fld := ⟨AX_CUR_BW n, 31, 16⟩
abbrev AX_CUR_BW_BW_D (n : Nat) : Fld := ⟨AX_CUR_BW n, 15, 0⟩
abbrev AX_RATED_N (n : Nat) : Nat := 0x080034 + 0x400 * n
abbrev AX_RATED_N_RPM (n : Nat) : Fld := ⟨AX_RATED_N n, 15, 0⟩
abbrev AX_RATED_I (n : Nat) : Nat := 0x080038 + 0x400 * n
abbrev AX_RATED_I_I (n : Nat) : Fld := ⟨AX_RATED_I n, 31, 8⟩
abbrev AX_IREF_D (n : Nat) : Nat := 0x080040 + 0x400 * n
abbrev AX_IREF_D_VALUE (n : Nat) : Fld := ⟨AX_IREF_D n, 31, 8⟩
abbrev AX_IREF_Q (n : Nat) : Nat := 0x080044 + 0x400 * n
abbrev AX_IREF_Q_VALUE (n : Nat) : Fld := ⟨AX_IREF_Q n, 31, 8⟩
abbrev AX_ILIM (n : Nat) : Nat := 0x080048 + 0x400 * n
abbrev AX_ILIM_VALUE (n : Nat) : Fld := ⟨AX_ILIM n, 31, 8⟩
abbrev AX_ILIM_REGEN (n : Nat) : Nat := 0x08004c + 0x400 * n
abbrev AX_ILIM_REGEN_VALUE (n : Nat) : Fld := ⟨AX_ILIM_REGEN n, 31, 8⟩
abbrev AX_VLIM (n : Nat) : Nat := 0x080050 + 0x400 * n
abbrev AX_VLIM_MMAX (n : Nat) : Fld := ⟨AX_VLIM n, 15, 0⟩
abbrev AX_SHUNT (n : Nat) : Nat := 0x080060 + 0x400 * n
abbrev AX_SHUNT_TSET (n : Nat) : Fld := ⟨AX_SHUNT n, 31, 24⟩
abbrev AX_SHUNT_TAP (n : Nat) : Fld := ⟨AX_SHUNT n, 23, 16⟩
abbrev AX_SHUNT_CMP_MIN (n : Nat) : Fld := ⟨AX_SHUNT n, 15, 0⟩
abbrev AX_SHIFT (n : Nat) : Nat := 0x080064 + 0x400 * n
abbrev AX_SHIFT_CORR_LIM (n : Nat) : Fld := ⟨AX_SHIFT n, 31, 16⟩
abbrev AX_SHIFT_SH_LIM (n : Nat) : Fld := ⟨AX_SHIFT n, 15, 0⟩
abbrev AX_DTC (n : Nat) : Nat := 0x080068 + 0x400 * n
abbrev AX_DTC_DT (n : Nat) : Fld := ⟨AX_DTC n, 31, 24⟩
abbrev AX_DTC_DTC_TICKS (n : Nat) : Fld := ⟨AX_DTC n, 23, 16⟩
abbrev AX_DTC_BAND (n : Nat) : Fld := ⟨AX_DTC n, 15, 0⟩
abbrev AX_OBS (n : Nat) : Nat := 0x080070 + 0x400 * n
abbrev AX_OBS_OBS_BW (n : Nat) : Fld := ⟨AX_OBS n, 31, 16⟩
abbrev AX_OBS_OBS_MIN (n : Nat) : Fld := ⟨AX_OBS n, 15, 0⟩
abbrev AX_OBS_JUMP (n : Nat) : Nat := 0x080074 + 0x400 * n
abbrev AX_OBS_JUMP_WJUMP (n : Nat) : Fld := ⟨AX_OBS_JUMP n, 15, 0⟩
abbrev AX_IF (n : Nat) : Nat := 0x080078 + 0x400 * n
abbrev AX_IF_IF_CUR (n : Nat) : Fld := ⟨AX_IF n, 31, 8⟩
abbrev AX_IF_IF_RAMP (n : Nat) : Fld := ⟨AX_IF n, 7, 0⟩
abbrev AX_NOWIN_LIM (n : Nat) : Nat := 0x080080 + 0x400 * n
abbrev AX_NOWIN_LIM_LIM (n : Nat) : Fld := ⟨AX_NOWIN_LIM n, 15, 0⟩
abbrev AX_I_D (n : Nat) : Nat := 0x0800a0 + 0x400 * n
abbrev AX_I_D_VALUE (n : Nat) : Fld := ⟨AX_I_D n, 31, 8⟩
abbrev AX_I_Q (n : Nat) : Nat := 0x0800a4 + 0x400 * n
abbrev AX_I_Q_VALUE (n : Nat) : Fld := ⟨AX_I_Q n, 31, 8⟩
abbrev AX_V_D (n : Nat) : Nat := 0x0800a8 + 0x400 * n
abbrev AX_V_D_VALUE (n : Nat) : Fld := ⟨AX_V_D n, 31, 8⟩
abbrev AX_V_Q (n : Nat) : Nat := 0x0800ac + 0x400 * n
abbrev AX_V_Q_VALUE (n : Nat) : Fld := ⟨AX_V_Q n, 31, 8⟩
abbrev AX_THETA (n : Nat) : Nat := 0x0800b0 + 0x400 * n
abbrev AX_THETA_VALUE (n : Nat) : Fld := ⟨AX_THETA n, 31, 8⟩
abbrev AX_THETA_OBS (n : Nat) : Nat := 0x0800b4 + 0x400 * n
abbrev AX_THETA_OBS_VALUE (n : Nat) : Fld := ⟨AX_THETA_OBS n, 31, 8⟩
abbrev AX_W_OBS (n : Nat) : Nat := 0x0800b8 + 0x400 * n
abbrev AX_OFS (n : Nat) : Nat := 0x0800bc + 0x400 * n
abbrev AX_OFS_OFS1 (n : Nat) : Fld := ⟨AX_OFS n, 31, 16⟩
abbrev AX_OFS_OFS2 (n : Nat) : Fld := ⟨AX_OFS n, 15, 0⟩
abbrev AX_CNT_NOWIN (n : Nat) : Nat := 0x0800c0 + 0x400 * n
abbrev AX_CNT_SHIFT (n : Nat) : Nat := 0x0800c4 + 0x400 * n
abbrev AX_CNT_CATCH (n : Nat) : Nat := 0x0800c8 + 0x400 * n
abbrev AX_PT_CTL (n : Nat) : Nat := 0x0800e0 + 0x400 * n
abbrev AX_PT_CTL_CUR (n : Nat) : Fld := ⟨AX_PT_CTL n, 31, 16⟩
abbrev AX_PT_CTL_APPLY (n : Nat) : Fld := ⟨AX_PT_CTL n, 4, 4⟩
abbrev AX_PT_CTL_SPIN (n : Nat) : Fld := ⟨AX_PT_CTL n, 3, 3⟩
abbrev AX_PT_CTL_MOVE (n : Nat) : Fld := ⟨AX_PT_CTL n, 2, 2⟩
abbrev AX_PT_CTL_ABORT (n : Nat) : Fld := ⟨AX_PT_CTL n, 1, 1⟩
abbrev AX_PT_CTL_START (n : Nat) : Fld := ⟨AX_PT_CTL n, 0, 0⟩
abbrev AX_PT_STAT (n : Nat) : Nat := 0x0800e4 + 0x400 * n
abbrev AX_PT_STAT_RESULT (n : Nat) : Fld := ⟨AX_PT_STAT n, 31, 24⟩
abbrev AX_PT_STAT_STEP (n : Nat) : Fld := ⟨AX_PT_STAT n, 23, 16⟩
abbrev AX_PT_RS (n : Nat) : Nat := 0x0800e8 + 0x400 * n
abbrev AX_PT_LD (n : Nat) : Nat := 0x0800ec + 0x400 * n
abbrev AX_PT_LQ (n : Nat) : Nat := 0x0800f0 + 0x400 * n
abbrev AX_PT_PSI (n : Nat) : Nat := 0x0800f4 + 0x400 * n
abbrev AX_PT_ENC (n : Nat) : Nat := 0x0800f8 + 0x400 * n
abbrev AX_PT_ENC_ZERO (n : Nat) : Fld := ⟨AX_PT_ENC n, 31, 8⟩
abbrev AX_PT_ENC_DIR (n : Nat) : Fld := ⟨AX_PT_ENC n, 7, 7⟩
abbrev AX_PT_ENC_PP (n : Nat) : Fld := ⟨AX_PT_ENC n, 6, 0⟩
abbrev AX_MSTAT (n : Nat) : Nat := 0x080100 + 0x400 * n
abbrev AX_MSTAT_MV_ID (n : Nat) : Fld := ⟨AX_MSTAT n, 31, 16⟩
abbrev AX_MSTAT_QCOUNT (n : Nat) : Fld := ⟨AX_MSTAT n, 15, 12⟩
abbrev AX_MSTAT_REFD (n : Nat) : Fld := ⟨AX_MSTAT n, 7, 7⟩
abbrev AX_MSTAT_REMAIN (n : Nat) : Fld := ⟨AX_MSTAT n, 6, 6⟩
abbrev AX_MSTAT_LIMIT (n : Nat) : Fld := ⟨AX_MSTAT n, 5, 5⟩
abbrev AX_MSTAT_MSTATE (n : Nat) : Fld := ⟨AX_MSTAT n, 3, 0⟩
abbrev AX_MFAULT (n : Nat) : Nat := 0x080104 + 0x400 * n
abbrev AX_MFAULT_STEP_LOSS (n : Nat) : Fld := ⟨AX_MFAULT n, 2, 2⟩
abbrev AX_MFAULT_POS_MODEL (n : Nat) : Fld := ⟨AX_MFAULT n, 1, 1⟩
abbrev AX_MFAULT_FOLLOW_ERR (n : Nat) : Fld := ⟨AX_MFAULT n, 0, 0⟩
abbrev AX_SPD_REF (n : Nat) : Nat := 0x080108 + 0x400 * n
abbrev AX_ACC (n : Nat) : Nat := 0x08010c + 0x400 * n
abbrev AX_DEC (n : Nat) : Nat := 0x080110 + 0x400 * n
abbrev AX_STOP_DEC (n : Nat) : Nat := 0x080114 + 0x400 * n
abbrev AX_QSTOP_DEC (n : Nat) : Nat := 0x080118 + 0x400 * n
abbrev AX_REV (n : Nat) : Nat := 0x08011c + 0x400 * n
abbrev AX_REV_REV_HOLD (n : Nat) : Fld := ⟨AX_REV n, 15, 0⟩
abbrev AX_SPD_FILT (n : Nat) : Nat := 0x080120 + 0x400 * n
abbrev AX_SPD_FILT_FILT (n : Nat) : Fld := ⟨AX_SPD_FILT n, 3, 0⟩
abbrev AX_SPD_KP (n : Nat) : Nat := 0x080124 + 0x400 * n
abbrev AX_SPD_KI (n : Nat) : Nat := 0x080128 + 0x400 * n
abbrev AX_SPD_KFF (n : Nat) : Nat := 0x08012c + 0x400 * n
abbrev AX_POS_KP (n : Nat) : Nat := 0x080130 + 0x400 * n
abbrev AX_POS_KVFF (n : Nat) : Nat := 0x080134 + 0x400 * n
abbrev AX_FE (n : Nat) : Nat := 0x080138 + 0x400 * n
abbrev AX_FE_FE_LIM (n : Nat) : Fld := ⟨AX_FE n, 31, 8⟩
abbrev AX_FE_FE_N (n : Nat) : Fld := ⟨AX_FE n, 7, 0⟩
abbrev AX_MODEL (n : Nat) : Nat := 0x08013c + 0x400 * n
abbrev AX_MODEL_MODEL_LIM (n : Nat) : Fld := ⟨AX_MODEL n, 31, 8⟩
abbrev AX_MODEL_TM_SHIFT (n : Nat) : Fld := ⟨AX_MODEL n, 7, 4⟩
abbrev AX_MODEL_CORR_SHIFT (n : Nat) : Fld := ⟨AX_MODEL n, 3, 0⟩
abbrev AX_POS_MIN (n : Nat) : Nat := 0x080140 + 0x400 * n
abbrev AX_POS_MAX (n : Nat) : Nat := 0x080144 + 0x400 * n
abbrev AX_MODULO (n : Nat) : Nat := 0x080148 + 0x400 * n
abbrev AX_POS_ACT_LO (n : Nat) : Nat := 0x080150 + 0x400 * n
abbrev AX_POS_ACT_HI (n : Nat) : Nat := 0x080154 + 0x400 * n
abbrev AX_POS_REF_LO (n : Nat) : Nat := 0x080158 + 0x400 * n
abbrev AX_POS_REF_HI (n : Nat) : Nat := 0x08015c + 0x400 * n
abbrev AX_POS_SET_LO (n : Nat) : Nat := 0x080160 + 0x400 * n
abbrev AX_POS_SET_HI (n : Nat) : Nat := 0x080164 + 0x400 * n
abbrev AX_SPD_ACT (n : Nat) : Nat := 0x080168 + 0x400 * n
abbrev AX_SPD_CMD (n : Nat) : Nat := 0x08016c + 0x400 * n
abbrev AX_FE_ACT (n : Nat) : Nat := 0x080170 + 0x400 * n
abbrev AX_MV_TGT_LO (n : Nat) : Nat := 0x080180 + 0x400 * n
abbrev AX_MV_TGT_HI (n : Nat) : Nat := 0x080184 + 0x400 * n
abbrev AX_MV_VEL (n : Nat) : Nat := 0x080188 + 0x400 * n
abbrev AX_MV_ACC (n : Nat) : Nat := 0x08018c + 0x400 * n
abbrev AX_MV_DEC (n : Nat) : Nat := 0x080190 + 0x400 * n
abbrev AX_MV_MODE (n : Nat) : Nat := 0x080194 + 0x400 * n
abbrev AX_MV_MODE_ID (n : Nat) : Fld := ⟨AX_MV_MODE n, 31, 16⟩
abbrev AX_MV_MODE_BLEND (n : Nat) : Fld := ⟨AX_MV_MODE n, 8, 8⟩
abbrev AX_MV_MODE_DIRM (n : Nat) : Fld := ⟨AX_MV_MODE n, 5, 4⟩
abbrev AX_MV_MODE_TYPE (n : Nat) : Fld := ⟨AX_MV_MODE n, 3, 0⟩
abbrev AX_MV_CTL (n : Nat) : Nat := 0x080198 + 0x400 * n
abbrev AX_MV_CTL_REFUSE (n : Nat) : Fld := ⟨AX_MV_CTL n, 15, 12⟩
abbrev AX_MV_CTL_FLUSH (n : Nat) : Fld := ⟨AX_MV_CTL n, 4, 4⟩
abbrev AX_MV_CTL_RESUME (n : Nat) : Fld := ⟨AX_MV_CTL n, 3, 3⟩
abbrev AX_MV_CTL_QSTOP (n : Nat) : Fld := ⟨AX_MV_CTL n, 2, 2⟩
abbrev AX_MV_CTL_STOP (n : Nat) : Fld := ⟨AX_MV_CTL n, 1, 1⟩
abbrev AX_MV_CTL_PUSH (n : Nat) : Fld := ⟨AX_MV_CTL n, 0, 0⟩
abbrev AX_MV_REMAIN (n : Nat) : Nat := 0x08019c + 0x400 * n
abbrev AX_MV_DONE (n : Nat) : Nat := 0x0801a0 + 0x400 * n
abbrev AX_MV_DONE_LAST_ID (n : Nat) : Fld := ⟨AX_MV_DONE n, 31, 16⟩
abbrev AX_MV_DONE_COUNT (n : Nat) : Fld := ⟨AX_MV_DONE n, 15, 0⟩
abbrev AX_STP_CFG (n : Nat) : Nat := 0x0801c0 + 0x400 * n
abbrev AX_STP_CFG_SPR (n : Nat) : Fld := ⟨AX_STP_CFG n, 31, 16⟩
abbrev AX_STP_CFG_MS_LOG2 (n : Nat) : Fld := ⟨AX_STP_CFG n, 3, 0⟩
abbrev AX_STP_I (n : Nat) : Nat := 0x0801c4 + 0x400 * n
abbrev AX_STP_I_I_RUN (n : Nat) : Fld := ⟨AX_STP_I n, 31, 16⟩
abbrev AX_STP_I_I_STBY (n : Nat) : Fld := ⟨AX_STP_I n, 15, 0⟩
abbrev AX_STP_STBY (n : Nat) : Nat := 0x0801c8 + 0x400 * n
abbrev AX_STP_STBY_STBY_DELAY (n : Nat) : Fld := ⟨AX_STP_STBY n, 15, 0⟩
abbrev AX_STP_KC (n : Nat) : Nat := 0x0801cc + 0x400 * n
abbrev AX_STP_KC_KC (n : Nat) : Fld := ⟨AX_STP_KC n, 31, 16⟩
abbrev AX_STP_KC_DUTY_MAX (n : Nat) : Fld := ⟨AX_STP_KC n, 15, 0⟩
abbrev AX_STP_LOSS (n : Nat) : Nat := 0x0801d0 + 0x400 * n
abbrev AX_STP_LOSS_LOSS_LIM (n : Nat) : Fld := ⟨AX_STP_LOSS n, 15, 0⟩
abbrev AX_FOL_CFG (n : Nat) : Nat := 0x080200 + 0x400 * n
abbrev AX_FOL_CFG_LEAD (n : Nat) : Fld := ⟨AX_FOL_CFG n, 31, 16⟩
abbrev AX_FOL_CFG_CLU_CAP (n : Nat) : Fld := ⟨AX_FOL_CFG n, 12, 10⟩
abbrev AX_FOL_CFG_CLU_TRIG (n : Nat) : Fld := ⟨AX_FOL_CFG n, 9, 8⟩
abbrev AX_FOL_CFG_ISTOP (n : Nat) : Fld := ⟨AX_FOL_CFG n, 4, 4⟩
abbrev AX_FOL_CFG_MODE (n : Nat) : Fld := ⟨AX_FOL_CFG n, 3, 3⟩
abbrev AX_FOL_CFG_VM (n : Nat) : Fld := ⟨AX_FOL_CFG n, 2, 0⟩
abbrev AX_FOL_NUM (n : Nat) : Nat := 0x080204 + 0x400 * n
abbrev AX_FOL_DEN (n : Nat) : Nat := 0x080208 + 0x400 * n
abbrev AX_CAM_SEL (n : Nat) : Nat := 0x08020c + 0x400 * n
abbrev AX_CAM_SEL_AT_WRAP (n : Nat) : Fld := ⟨AX_CAM_SEL n, 16, 16⟩
abbrev AX_CAM_SEL_SEG (n : Nat) : Fld := ⟨AX_CAM_SEL n, 13, 0⟩
abbrev AX_CLU_CTL (n : Nat) : Nat := 0x080210 + 0x400 * n
abbrev AX_CLU_CTL_REFUSE (n : Nat) : Fld := ⟨AX_CLU_CTL n, 15, 12⟩
abbrev AX_CLU_CTL_DISENGAGE (n : Nat) : Fld := ⟨AX_CLU_CTL n, 1, 1⟩
abbrev AX_CLU_CTL_ENGAGE (n : Nat) : Fld := ⟨AX_CLU_CTL n, 0, 0⟩
abbrev AX_CLU_POS (n : Nat) : Nat := 0x080214 + 0x400 * n
abbrev AX_CLU_RAMP (n : Nat) : Nat := 0x080218 + 0x400 * n
abbrev AX_FOL_STAT (n : Nat) : Nat := 0x08021c + 0x400 * n
abbrev AX_FOL_STAT_CAM_REFUSE (n : Nat) : Fld := ⟨AX_FOL_STAT n, 15, 12⟩
abbrev AX_FOL_STAT_PEND (n : Nat) : Fld := ⟨AX_FOL_STAT n, 8, 8⟩
abbrev AX_FOL_STAT_CAM (n : Nat) : Fld := ⟨AX_FOL_STAT n, 7, 4⟩
abbrev AX_FOL_STAT_CLU (n : Nat) : Fld := ⟨AX_FOL_STAT n, 3, 0⟩
abbrev AX_CAM_PHASE_LO (n : Nat) : Nat := 0x080220 + 0x400 * n
abbrev AX_CAM_PHASE_HI (n : Nat) : Nat := 0x080224 + 0x400 * n
abbrev AX_CAM_ACT (n : Nat) : Nat := 0x080228 + 0x400 * n
abbrev AX_CAM_ACT_SEG_NOW (n : Nat) : Fld := ⟨AX_CAM_ACT n, 29, 16⟩
abbrev AX_CAM_ACT_SEG_FIRST (n : Nat) : Fld := ⟨AX_CAM_ACT n, 13, 0⟩
abbrev AX_CAM_LEN (n : Nat) : Nat := 0x08022c + 0x400 * n
abbrev AX_CAM_RISE_LO (n : Nat) : Nat := 0x080230 + 0x400 * n
abbrev AX_CAM_RISE_HI (n : Nat) : Nat := 0x080234 + 0x400 * n
abbrev AX_REG_CFG (n : Nat) : Nat := 0x080240 + 0x400 * n
abbrev AX_REG_CFG_RATE (n : Nat) : Fld := ⟨AX_REG_CFG n, 31, 16⟩
abbrev AX_REG_CFG_MISS_LIM (n : Nat) : Fld := ⟨AX_REG_CFG n, 15, 8⟩
abbrev AX_REG_CFG_EN (n : Nat) : Fld := ⟨AX_REG_CFG n, 3, 3⟩
abbrev AX_REG_CFG_CAP (n : Nat) : Fld := ⟨AX_REG_CFG n, 2, 0⟩
abbrev AX_REG_EXP (n : Nat) : Nat := 0x080244 + 0x400 * n
abbrev AX_REG_WIN (n : Nat) : Nat := 0x080248 + 0x400 * n
abbrev AX_REG_GAIN (n : Nat) : Nat := 0x08024c + 0x400 * n
abbrev AX_REG_GAIN_GAIN (n : Nat) : Fld := ⟨AX_REG_GAIN n, 15, 0⟩
abbrev AX_REG_MAX (n : Nat) : Nat := 0x080250 + 0x400 * n
abbrev AX_REG_PITCH (n : Nat) : Nat := 0x080254 + 0x400 * n
abbrev AX_REG_ERR (n : Nat) : Nat := 0x080258 + 0x400 * n
abbrev AX_REG_PEND (n : Nat) : Nat := 0x08025c + 0x400 * n
abbrev AX_REG_STAT (n : Nat) : Nat := 0x080260 + 0x400 * n
abbrev AX_REG_STAT_LOST (n : Nat) : Fld := ⟨AX_REG_STAT n, 8, 8⟩
abbrev AX_REG_STAT_MISS (n : Nat) : Fld := ⟨AX_REG_STAT n, 7, 0⟩
abbrev AX_REG_MARKS (n : Nat) : Nat := 0x080264 + 0x400 * n
abbrev AX_REG_OUT (n : Nat) : Nat := 0x080268 + 0x400 * n
abbrev AX_REG_EXTRA (n : Nat) : Nat := 0x08026c + 0x400 * n
abbrev VM_CFG (n : Nat) : Nat := 0x0a0000 + 0x80 * n
abbrev VM_CFG_SRC_HEAD (n : Nat) : Fld := ⟨VM_CFG n, 23, 16⟩
abbrev VM_CFG_SRC_IDX (n : Nat) : Fld := ⟨VM_CFG n, 15, 8⟩
abbrev VM_CFG_PUB (n : Nat) : Fld := ⟨VM_CFG n, 2, 2⟩
abbrev VM_CFG_SRC (n : Nat) : Fld := ⟨VM_CFG n, 1, 0⟩
abbrev VM_MCYC (n : Nat) : Nat := 0x0a0004 + 0x80 * n
abbrev VM_NUM (n : Nat) : Nat := 0x0a0008 + 0x80 * n
abbrev VM_DEN (n : Nat) : Nat := 0x0a000c + 0x80 * n
abbrev VM_SPD_REF (n : Nat) : Nat := 0x0a0010 + 0x80 * n
abbrev VM_ACC (n : Nat) : Nat := 0x0a0014 + 0x80 * n
abbrev VM_DEC (n : Nat) : Nat := 0x0a0018 + 0x80 * n
abbrev VM_QSTOP_DEC (n : Nat) : Nat := 0x0a001c + 0x80 * n
abbrev VM_CTL (n : Nat) : Nat := 0x0a0020 + 0x80 * n
abbrev VM_CTL_REFUSE (n : Nat) : Fld := ⟨VM_CTL n, 15, 12⟩
abbrev VM_CTL_RESYNC (n : Nat) : Fld := ⟨VM_CTL n, 5, 5⟩
abbrev VM_CTL_SET (n : Nat) : Fld := ⟨VM_CTL n, 4, 4⟩
abbrev VM_CTL_STOP_AT (n : Nat) : Fld := ⟨VM_CTL n, 3, 3⟩
abbrev VM_CTL_QSTOP (n : Nat) : Fld := ⟨VM_CTL n, 2, 2⟩
abbrev VM_CTL_STOP (n : Nat) : Fld := ⟨VM_CTL n, 1, 1⟩
abbrev VM_CTL_RUN (n : Nat) : Fld := ⟨VM_CTL n, 0, 0⟩
abbrev VM_STOP_POS (n : Nat) : Nat := 0x0a0024 + 0x80 * n
abbrev VM_SET_LO (n : Nat) : Nat := 0x0a0028 + 0x80 * n
abbrev VM_SET_HI (n : Nat) : Nat := 0x0a002c + 0x80 * n
abbrev VM_OFS_LO (n : Nat) : Nat := 0x0a0030 + 0x80 * n
abbrev VM_OFS_HI (n : Nat) : Nat := 0x0a0034 + 0x80 * n
abbrev VM_LINE (n : Nat) : Nat := 0x0a0038 + 0x80 * n
abbrev VM_LINE_HOLD (n : Nat) : Fld := ⟨VM_LINE n, 31, 16⟩
abbrev VM_LINE_TMO (n : Nat) : Fld := ⟨VM_LINE n, 15, 0⟩
abbrev VM_PUB (n : Nat) : Nat := 0x0a003c + 0x80 * n
abbrev VM_PUB_PUB_DIV (n : Nat) : Fld := ⟨VM_PUB n, 7, 0⟩
abbrev VM_POS_LO (n : Nat) : Nat := 0x0a0040 + 0x80 * n
abbrev VM_POS_HI (n : Nat) : Nat := 0x0a0044 + 0x80 * n
abbrev VM_SPD (n : Nat) : Nat := 0x0a0048 + 0x80 * n
abbrev VM_ACC_ACT (n : Nat) : Nat := 0x0a004c + 0x80 * n
abbrev VM_STAT (n : Nat) : Nat := 0x0a0050 + 0x80 * n
abbrev VM_STAT_FOLLOWERS (n : Nat) : Fld := ⟨VM_STAT n, 15, 8⟩
abbrev VM_STAT_ISTOP (n : Nat) : Fld := ⟨VM_STAT n, 6, 6⟩
abbrev VM_STAT_ENC_FLT (n : Nat) : Fld := ⟨VM_STAT n, 5, 5⟩
abbrev VM_STAT_LINE_OK (n : Nat) : Fld := ⟨VM_STAT n, 4, 4⟩
abbrev VM_STAT_STATE (n : Nat) : Fld := ⟨VM_STAT n, 3, 0⟩
abbrev VM_AGE (n : Nat) : Nat := 0x0a0054 + 0x80 * n
abbrev VM_PUB_SKIP (n : Nat) : Nat := 0x0a0058 + 0x80 * n
abbrev VM_LINE_MISMATCH (n : Nat) : Nat := 0x0a005c + 0x80 * n
abbrev CAM_INUSE (n : Nat) : Nat := 0x0a1800 + 0x4 * n
abbrev PL_MODE (n : Nat) : Nat := 0x0b0000 + 0x100 * n
abbrev PL_MODE_MODE (n : Nat) : Fld := ⟨PL_MODE n, 2, 0⟩
abbrev PL_STAT (n : Nat) : Nat := 0x0b0004 + 0x100 * n
abbrev PL_STAT_FAULT (n : Nat) : Fld := ⟨PL_STAT n, 23, 16⟩
abbrev PL_STAT_PHASE (n : Nat) : Fld := ⟨PL_STAT n, 15, 12⟩
abbrev PL_STAT_RESULT (n : Nat) : Fld := ⟨PL_STAT n, 11, 8⟩
abbrev PL_STAT_ISTOP_ACT (n : Nat) : Fld := ⟨PL_STAT n, 1, 1⟩
abbrev PL_STAT_BUMP (n : Nat) : Fld := ⟨PL_STAT n, 0, 0⟩
abbrev PL_MAP (n : Nat) : Nat := 0x0b0008 + 0x100 * n
abbrev PL_MAP_STATION (n : Nat) : Fld := ⟨PL_MAP n, 31, 16⟩
abbrev PL_MAP_CHAN (n : Nat) : Fld := ⟨PL_MAP n, 3, 0⟩
abbrev PL_CFG (n : Nat) : Nat := 0x0b000c + 0x100 * n
abbrev PL_CFG_FAIL_OUT (n : Nat) : Fld := ⟨PL_CFG n, 31, 16⟩
abbrev PL_CFG_KS (n : Nat) : Fld := ⟨PL_CFG n, 7, 5⟩
abbrev PL_CFG_FORM (n : Nat) : Fld := ⟨PL_CFG n, 4, 4⟩
abbrev PL_CFG_ISTOP (n : Nat) : Fld := ⟨PL_CFG n, 2, 2⟩
abbrev PL_CFG_FAIL (n : Nat) : Fld := ⟨PL_CFG n, 1, 0⟩
abbrev PL_RATE (n : Nat) : Nat := 0x0b0010 + 0x100 * n
abbrev PL_RATE_PHASE (n : Nat) : Fld := ⟨PL_RATE n, 31, 16⟩
abbrev PL_RATE_DIV (n : Nat) : Fld := ⟨PL_RATE n, 15, 0⟩
abbrev PL_SP (n : Nat) : Nat := 0x0b0014 + 0x100 * n
abbrev PL_SP_SP (n : Nat) : Fld := ⟨PL_SP n, 31, 8⟩
abbrev PL_SP_RAMP (n : Nat) : Nat := 0x0b0018 + 0x100 * n
abbrev PL_SP_RAMP_SP_RAMP (n : Nat) : Fld := ⟨PL_SP_RAMP n, 31, 8⟩
abbrev PL_MAN (n : Nat) : Nat := 0x0b001c + 0x100 * n
abbrev PL_MAN_MAN (n : Nat) : Fld := ⟨PL_MAN n, 31, 16⟩
abbrev PL_OUTLIM (n : Nat) : Nat := 0x0b0020 + 0x100 * n
abbrev PL_OUTLIM_OUT_MAX (n : Nat) : Fld := ⟨PL_OUTLIM n, 31, 16⟩
abbrev PL_OUTLIM_OUT_MIN (n : Nat) : Fld := ⟨PL_OUTLIM n, 15, 0⟩
abbrev PL_ALARM (n : Nat) : Nat := 0x0b0024 + 0x100 * n
abbrev PL_ALARM_PV_HI (n : Nat) : Fld := ⟨PL_ALARM n, 31, 16⟩
abbrev PL_ALARM_DEV (n : Nat) : Fld := ⟨PL_ALARM n, 15, 0⟩
abbrev PL_REPLIM (n : Nat) : Nat := 0x0b0028 + 0x100 * n
abbrev PL_REPLIM_REP_LIM (n : Nat) : Fld := ⟨PL_REPLIM n, 15, 0⟩
abbrev PL_CMD (n : Nat) : Nat := 0x0b002c + 0x100 * n
abbrev PL_CMD_REFUSE (n : Nat) : Fld := ⟨PL_CMD n, 15, 12⟩
abbrev PL_CMD_APPLY (n : Nat) : Fld := ⟨PL_CMD n, 4, 4⟩
abbrev PL_CMD_TUNE_ABORT (n : Nat) : Fld := ⟨PL_CMD n, 3, 3⟩
abbrev PL_CMD_TUNE (n : Nat) : Fld := ⟨PL_CMD n, 2, 2⟩
abbrev PL_CMD_COMMIT (n : Nat) : Fld := ⟨PL_CMD n, 1, 1⟩
abbrev PL_CMD_CLR (n : Nat) : Fld := ⟨PL_CMD n, 0, 0⟩
abbrev PL_B0 (n : Nat) : Nat := 0x0b0030 + 0x100 * n
abbrev PL_B0_COEF (n : Nat) : Fld := ⟨PL_B0 n, 31, 8⟩
abbrev PL_B1 (n : Nat) : Nat := 0x0b0034 + 0x100 * n
abbrev PL_B1_COEF (n : Nat) : Fld := ⟨PL_B1 n, 31, 8⟩
abbrev PL_B2 (n : Nat) : Nat := 0x0b0038 + 0x100 * n
abbrev PL_B2_COEF (n : Nat) : Fld := ⟨PL_B2 n, 31, 8⟩
abbrev PL_B3 (n : Nat) : Nat := 0x0b003c + 0x100 * n
abbrev PL_B3_COEF (n : Nat) : Fld := ⟨PL_B3 n, 31, 8⟩
abbrev PL_A1 (n : Nat) : Nat := 0x0b0040 + 0x100 * n
abbrev PL_A1_COEF (n : Nat) : Fld := ⟨PL_A1 n, 31, 8⟩
abbrev PL_A2 (n : Nat) : Nat := 0x0b0044 + 0x100 * n
abbrev PL_A2_COEF (n : Nat) : Fld := ⟨PL_A2 n, 31, 8⟩
abbrev PL_A3 (n : Nat) : Nat := 0x0b0048 + 0x100 * n
abbrev PL_A3_COEF (n : Nat) : Fld := ⟨PL_A3 n, 31, 8⟩
abbrev PL_PV (n : Nat) : Nat := 0x0b0050 + 0x100 * n
abbrev PL_PV_VALUE (n : Nat) : Fld := ⟨PL_PV n, 31, 8⟩
abbrev PL_OUT (n : Nat) : Nat := 0x0b0054 + 0x100 * n
abbrev PL_OUT_VALUE (n : Nat) : Fld := ⟨PL_OUT n, 31, 8⟩
abbrev PL_SP_ACT (n : Nat) : Nat := 0x0b0058 + 0x100 * n
abbrev PL_SP_ACT_VALUE (n : Nat) : Fld := ⟨PL_SP_ACT n, 31, 8⟩
abbrev PL_RES (n : Nat) : Nat := 0x0b005c + 0x100 * n
abbrev PL_RES_VALUE (n : Nat) : Fld := ⟨PL_RES n, 31, 8⟩
abbrev PL_MODEL_K (n : Nat) : Nat := 0x0b0060 + 0x100 * n
abbrev PL_MODEL_A (n : Nat) : Nat := 0x0b0064 + 0x100 * n
abbrev PL_MODEL_A_ALPHA (n : Nat) : Fld := ⟨PL_MODEL_A n, 31, 8⟩
abbrev PL_MODEL_Y0 (n : Nat) : Nat := 0x0b0068 + 0x100 * n
abbrev PL_MODEL_Y0_Y0 (n : Nat) : Fld := ⟨PL_MODEL_Y0 n, 31, 8⟩
abbrev PL_MODEL_CFG (n : Nat) : Nat := 0x0b006c + 0x100 * n
abbrev PL_MODEL_CFG_RES_LIM (n : Nat) : Fld := ⟨PL_MODEL_CFG n, 31, 24⟩
abbrev PL_MODEL_CFG_RES_N (n : Nat) : Fld := ⟨PL_MODEL_CFG n, 23, 16⟩
abbrev PL_MODEL_CFG_CORR (n : Nat) : Fld := ⟨PL_MODEL_CFG n, 15, 12⟩
abbrev PL_MODEL_CFG_D (n : Nat) : Fld := ⟨PL_MODEL_CFG n, 6, 0⟩
abbrev PL_TUNE_OUT (n : Nat) : Nat := 0x0b0080 + 0x100 * n
abbrev PL_TUNE_OUT_BIAS (n : Nat) : Fld := ⟨PL_TUNE_OUT n, 31, 16⟩
abbrev PL_TUNE_OUT_AMP (n : Nat) : Fld := ⟨PL_TUNE_OUT n, 15, 0⟩
abbrev PL_TUNE_HYS (n : Nat) : Nat := 0x0b0084 + 0x100 * n
abbrev PL_TUNE_HYS_HYS (n : Nat) : Fld := ⟨PL_TUNE_HYS n, 31, 8⟩
abbrev PL_TUNE_TIME (n : Nat) : Nat := 0x0b0088 + 0x100 * n
abbrev PL_TUNE_TIME_TMO (n : Nat) : Fld := ⟨PL_TUNE_TIME n, 31, 16⟩
abbrev PL_TUNE_TIME_LAMBDA (n : Nat) : Fld := ⟨PL_TUNE_TIME n, 15, 0⟩
abbrev PL_TUNE_KU (n : Nat) : Nat := 0x0b0090 + 0x100 * n
abbrev PL_TUNE_PU (n : Nat) : Nat := 0x0b0094 + 0x100 * n
abbrev PL_TUNE_THETA (n : Nat) : Nat := 0x0b0098 + 0x100 * n
abbrev PL_TUNE_TAU (n : Nat) : Nat := 0x0b009c + 0x100 * n
abbrev PL_TUNE_K (n : Nat) : Nat := 0x0b00a0 + 0x100 * n
abbrev PL_TUNE_Y0 (n : Nat) : Nat := 0x0b00a4 + 0x100 * n
abbrev PL_TUNE_Y0_Y0 (n : Nat) : Fld := ⟨PL_TUNE_Y0 n, 31, 8⟩
abbrev PL_TUNE_B0 (n : Nat) : Nat := 0x0b00a8 + 0x100 * n
abbrev PL_TUNE_B1 (n : Nat) : Nat := 0x0b00ac + 0x100 * n
abbrev PL_CNT_HELD (n : Nat) : Nat := 0x0b00c0 + 0x100 * n
abbrev PL_CNT_IMPL (n : Nat) : Nat := 0x0b00c4 + 0x100 * n
abbrev ENC_CFG (n : Nat) : Nat := 0x0c0000 + 0x40 * n
abbrev ENC_CFG_MIN_EDGE (n : Nat) : Fld := ⟨ENC_CFG n, 31, 24⟩
abbrev ENC_CFG_DIR_HYST (n : Nat) : Fld := ⟨ENC_CFG n, 23, 16⟩
abbrev ENC_CFG_WRAP_IE (n : Nat) : Fld := ⟨ENC_CFG n, 12, 12⟩
abbrev ENC_CFG_DIR_IE (n : Nat) : Fld := ⟨ENC_CFG n, 11, 11⟩
abbrev ENC_CFG_Z_MODE (n : Nat) : Fld := ⟨ENC_CFG n, 10, 9⟩
abbrev ENC_CFG_FILT (n : Nat) : Fld := ⟨ENC_CFG n, 8, 4⟩
abbrev ENC_CFG_INV (n : Nat) : Fld := ⟨ENC_CFG n, 3, 3⟩
abbrev ENC_CFG_MODE (n : Nat) : Fld := ⟨ENC_CFG n, 2, 0⟩
abbrev ENC_SPD_CFG (n : Nat) : Nat := 0x0c0004 + 0x40 * n
abbrev ENC_SPD_CFG_SW (n : Nat) : Fld := ⟨ENC_SPD_CFG n, 31, 16⟩
abbrev ENC_SPD_CFG_WIN_LOG2 (n : Nat) : Fld := ⟨ENC_SPD_CFG n, 7, 4⟩
abbrev ENC_SPD_CFG_IVL (n : Nat) : Fld := ⟨ENC_SPD_CFG n, 3, 2⟩
abbrev ENC_SPD_CFG_SPD_MODE (n : Nat) : Fld := ⟨ENC_SPD_CFG n, 1, 0⟩
abbrev ENC_STILL (n : Nat) : Nat := 0x0c0008 + 0x40 * n
abbrev ENC_CNT (n : Nat) : Nat := 0x0c000c + 0x40 * n
abbrev ENC_SPD (n : Nat) : Nat := 0x0c0010 + 0x40 * n
abbrev ENC_IVL (n : Nat) : Nat := 0x0c0014 + 0x40 * n
abbrev ENC_Z_CNT (n : Nat) : Nat := 0x0c0018 + 0x40 * n
abbrev ENC_Z_NS (n : Nat) : Nat := 0x0c001c + 0x40 * n
abbrev ENC_Z_SEC (n : Nat) : Nat := 0x0c0020 + 0x40 * n
abbrev ENC_STAT (n : Nat) : Nat := 0x0c0024 + 0x40 * n
abbrev ENC_STAT_Z_SEEN (n : Nat) : Fld := ⟨ENC_STAT n, 14, 14⟩
abbrev ENC_STAT_WRAP_DN (n : Nat) : Fld := ⟨ENC_STAT n, 13, 13⟩
abbrev ENC_STAT_WRAP_UP (n : Nat) : Fld := ⟨ENC_STAT n, 12, 12⟩
abbrev ENC_STAT_DIR_CHG (n : Nat) : Fld := ⟨ENC_STAT n, 11, 11⟩
abbrev ENC_STAT_STEP_SETUP (n : Nat) : Fld := ⟨ENC_STAT n, 10, 10⟩
abbrev ENC_STAT_EDGE_FAST (n : Nat) : Fld := ⟨ENC_STAT n, 9, 9⟩
abbrev ENC_STAT_QUAD_ERR (n : Nat) : Fld := ⟨ENC_STAT n, 8, 8⟩
abbrev ENC_STAT_Z_ARMED (n : Nat) : Fld := ⟨ENC_STAT n, 2, 2⟩
abbrev ENC_STAT_METHOD (n : Nat) : Fld := ⟨ENC_STAT n, 1, 1⟩
abbrev ENC_STAT_DIR (n : Nat) : Fld := ⟨ENC_STAT n, 0, 0⟩
abbrev ENC_CTL (n : Nat) : Nat := 0x0c0028 + 0x40 * n
abbrev ENC_CTL_CLR_CNT (n : Nat) : Fld := ⟨ENC_CTL n, 1, 1⟩
abbrev ENC_CTL_Z_ARM (n : Nat) : Fld := ⟨ENC_CTL n, 0, 0⟩
abbrev ENC_FAULTS (n : Nat) : Nat := 0x0c002c + 0x40 * n
abbrev ENC_CNT_BELL (n : Nat) : Nat := 0x0c0030 + 0x40 * n
abbrev CAP_CFG (n : Nat) : Nat := 0x0c1000 + 0x20 * n
abbrev CAP_CFG_LATCH (n : Nat) : Fld := ⟨CAP_CFG n, 9, 7⟩
abbrev CAP_CFG_FILT (n : Nat) : Fld := ⟨CAP_CFG n, 6, 2⟩
abbrev CAP_CFG_EDGE (n : Nat) : Fld := ⟨CAP_CFG n, 1, 0⟩
abbrev CAP_NS (n : Nat) : Nat := 0x0c1004 + 0x20 * n
abbrev CAP_SEC (n : Nat) : Nat := 0x0c1008 + 0x20 * n
abbrev CAP_CNT (n : Nat) : Nat := 0x0c100c + 0x20 * n
abbrev CAP_STAT (n : Nat) : Nat := 0x0c1010 + 0x20 * n
abbrev CAP_STAT_OVR (n : Nat) : Fld := ⟨CAP_STAT n, 8, 8⟩
abbrev CAP_STAT_LEVEL (n : Nat) : Fld := ⟨CAP_STAT n, 2, 0⟩
abbrev CAP_TOTAL (n : Nat) : Nat := 0x0c1014 + 0x20 * n
abbrev NODE_STAT (n : Nat) : Nat := 0x0d0000 + 0x40 * n
abbrev NODE_STAT_LANE_A (n : Nat) : Fld := ⟨NODE_STAT n, 27, 24⟩
abbrev NODE_STAT_LANE_B (n : Nat) : Fld := ⟨NODE_STAT n, 23, 20⟩
abbrev NODE_STAT_POS (n : Nat) : Fld := ⟨NODE_STAT n, 19, 12⟩
abbrev NODE_STAT_RESULT (n : Nat) : Fld := ⟨NODE_STAT n, 11, 8⟩
abbrev NODE_STAT_STATE (n : Nat) : Fld := ⟨NODE_STAT n, 3, 0⟩
abbrev NODE_UID_LO (n : Nat) : Nat := 0x0d0004 + 0x40 * n
abbrev NODE_UID_HI (n : Nat) : Nat := 0x0d0008 + 0x40 * n
abbrev NODE_DELAY (n : Nat) : Nat := 0x0d000c + 0x40 * n
abbrev NODE_DELAY_DELAY_B (n : Nat) : Fld := ⟨NODE_DELAY n, 31, 16⟩
abbrev NODE_DELAY_DELAY_A (n : Nat) : Fld := ⟨NODE_DELAY n, 15, 0⟩
abbrev NODE_HOP (n : Nat) : Nat := 0x0d0010 + 0x40 * n
abbrev NODE_HOP_LENGTH (n : Nat) : Fld := ⟨NODE_HOP n, 31, 16⟩
abbrev NODE_HOP_HOP (n : Nat) : Fld := ⟨NODE_HOP n, 15, 0⟩
abbrev NODE_CTL (n : Nat) : Nat := 0x0d0014 + 0x40 * n
abbrev NODE_CTL_RELEASE (n : Nat) : Fld := ⟨NODE_CTL n, 0, 0⟩
abbrev NODE_CRC (n : Nat) : Nat := 0x0d0018 + 0x40 * n
abbrev NODE_MISS (n : Nat) : Nat := 0x0d001c + 0x40 * n
abbrev NODE_EDGE (n : Nat) : Nat := 0x0d0020 + 0x40 * n
abbrev NODE_DRIFT (n : Nat) : Nat := 0x0d0024 + 0x40 * n
abbrev NODE_DETAIN (n : Nat) : Nat := 0x0d0028 + 0x40 * n
abbrev NODE_PROT (n : Nat) : Nat := 0x0d002c + 0x40 * n
abbrev NODE_PROT_CFG_OK (n : Nat) : Fld := ⟨NODE_PROT n, 16, 16⟩
abbrev NODE_PROT_FLAGS (n : Nat) : Fld := ⟨NODE_PROT n, 15, 0⟩
abbrev NODE_RAWSW (n : Nat) : Nat := 0x0d0030 + 0x40 * n
abbrev NODE_RAWSW_WIDTH (n : Nat) : Fld := ⟨NODE_RAWSW n, 31, 16⟩
abbrev NODE_RAWSW_RESULT (n : Nat) : Fld := ⟨NODE_RAWSW n, 15, 8⟩
abbrev NODE_RAWSW_PATTERN (n : Nat) : Fld := ⟨NODE_RAWSW n, 5, 0⟩
abbrev NODE_PWR (n : Nat) : Nat := 0x0d0034 + 0x40 * n
abbrev NODE_CNT_CMDBAD (n : Nat) : Nat := 0x0d0038 + 0x40 * n
abbrev NODE_RC_CTL : Nat := 0x0d4000
abbrev NODE_RC_CTL_REFUSE : Fld := ⟨NODE_RC_CTL, 7, 4⟩
abbrev NODE_RC_CTL_FULL : Fld := ⟨NODE_RC_CTL, 0, 0⟩
abbrev NODE_RC_STAT : Nat := 0x0d4004
abbrev NODE_RC_STAT_RUNS : Fld := ⟨NODE_RC_STAT, 31, 16⟩
abbrev NODE_RC_STAT_FAIL_STATION : Fld := ⟨NODE_RC_STAT, 15, 8⟩
abbrev NODE_RC_STAT_RESULT : Fld := ⟨NODE_RC_STAT, 1, 0⟩
abbrev NODE_RC_LANE (n : Nat) : Nat := 0x0d4010 + 0x4 * n
abbrev NODE_RC_LANE_FOUND (n : Nat) : Fld := ⟨NODE_RC_LANE n, 31, 24⟩
abbrev NODE_RC_LANE_EXPECTED (n : Nat) : Fld := ⟨NODE_RC_LANE n, 23, 16⟩
abbrev NODE_RC_LANE_EXTRA (n : Nat) : Fld := ⟨NODE_RC_LANE n, 15, 8⟩
abbrev NODE_RC_LANE_STOP_POS (n : Nat) : Fld := ⟨NODE_RC_LANE n, 7, 0⟩
abbrev DCB_CFG (n : Nat) : Nat := 0x0d5000 + 0x20 * n
abbrev DCB_CFG_CHOP_STATION (n : Nat) : Fld := ⟨DCB_CFG n, 15, 8⟩
abbrev DCB_CFG_MEMBERS (n : Nat) : Fld := ⟨DCB_CFG n, 7, 0⟩
abbrev DCB_VCHOP (n : Nat) : Nat := 0x0d5004 + 0x20 * n
abbrev DCB_VCHOP_V_FULL (n : Nat) : Fld := ⟨DCB_VCHOP n, 31, 16⟩
abbrev DCB_VCHOP_V_ON (n : Nat) : Fld := ⟨DCB_VCHOP n, 15, 0⟩
abbrev DCB_OV (n : Nat) : Nat := 0x0d5008 + 0x20 * n
abbrev DCB_OV_OV_TRIP (n : Nat) : Fld := ⟨DCB_OV n, 31, 16⟩
abbrev DCB_OV_DV_MIN (n : Nat) : Fld := ⟨DCB_OV n, 15, 0⟩
abbrev DCB_REGEN (n : Nat) : Nat := 0x0d500c + 0x20 * n
abbrev DCB_REGEN_REGEN (n : Nat) : Fld := ⟨DCB_REGEN n, 31, 8⟩
abbrev DCB_STAT (n : Nat) : Nat := 0x0d5010 + 0x20 * n
abbrev DCB_STAT_VDC (n : Nat) : Fld := ⟨DCB_STAT n, 31, 16⟩
abbrev DCB_STAT_DUTY (n : Nat) : Fld := ⟨DCB_STAT n, 15, 8⟩
abbrev DCB_STAT_CHOP_LOST (n : Nat) : Fld := ⟨DCB_STAT n, 2, 2⟩
abbrev DCB_STAT_LOCK (n : Nat) : Fld := ⟨DCB_STAT n, 1, 1⟩
abbrev DCB_STAT_CHOP_FAIL (n : Nat) : Fld := ⟨DCB_STAT n, 0, 0⟩
abbrev DCB_CTL (n : Nat) : Nat := 0x0d5014 + 0x20 * n
abbrev DCB_CTL_REFUSE (n : Nat) : Fld := ⟨DCB_CTL n, 15, 12⟩
abbrev DCB_CTL_CLR_LOCK (n : Nat) : Fld := ⟨DCB_CTL n, 1, 1⟩
abbrev DCB_CTL_CLR_FAIL (n : Nat) : Fld := ⟨DCB_CTL n, 0, 0⟩
abbrev DCB_TRIP_NS (n : Nat) : Nat := 0x0d5018 + 0x20 * n
abbrev DCB_TRIP_SEC (n : Nat) : Nat := 0x0d501c + 0x20 * n
abbrev DCB_AXES (n : Nat) : Nat := 0x0d6000 + 0x4 * n
abbrev SAFE_STATUS : Nat := 0x0e0000
abbrev SAFE_STATUS_SS1_RUN : Fld := ⟨SAFE_STATUS, 31, 31⟩
abbrev SAFE_STATUS_PARAM : Fld := ⟨SAFE_STATUS, 30, 30⟩
abbrev SAFE_STATUS_ISL_FAULT : Fld := ⟨SAFE_STATUS, 29, 29⟩
abbrev SAFE_STATUS_RESET_REQ : Fld := ⟨SAFE_STATUS, 28, 28⟩
abbrev SAFE_STATUS_CORE_WD : Fld := ⟨SAFE_STATUS, 27, 27⟩
abbrev SAFE_STATUS_FS_STOP : Fld := ⟨SAFE_STATUS, 26, 26⟩
abbrev SAFE_STATUS_FS_SAG : Fld := ⟨SAFE_STATUS, 25, 25⟩
abbrev SAFE_STATUS_FS_WARN : Fld := ⟨SAFE_STATUS, 24, 24⟩
abbrev SAFE_STATUS_LOCK : Fld := ⟨SAFE_STATUS, 23, 20⟩
abbrev SAFE_STATUS_DEMAND : Fld := ⟨SAFE_STATUS, 19, 12⟩
abbrev SAFE_STATUS_IN : Fld := ⟨SAFE_STATUS, 11, 4⟩
abbrev SAFE_STATUS_OUT : Fld := ⟨SAFE_STATUS, 3, 0⟩
abbrev SAFE_REQ : Nat := 0x0e0004
abbrev SAFE_REQ_EARLY : Fld := ⟨SAFE_REQ, 15, 12⟩
abbrev SAFE_REQ_ACK : Fld := ⟨SAFE_REQ, 11, 8⟩
abbrev SAFE_REQ_REQ : Fld := ⟨SAFE_REQ, 7, 0⟩
abbrev SAFE_IN : Nat := 0x0e0008
abbrev SAFE_IN_FAULT : Fld := ⟨SAFE_IN, 23, 16⟩
abbrev SAFE_IN_FILTERED : Fld := ⟨SAFE_IN, 15, 8⟩
abbrev SAFE_IN_RAW : Fld := ⟨SAFE_IN, 7, 0⟩
abbrev SAFE_OUT : Nat := 0x0e000c
abbrev SAFE_OUT_SRB : Fld := ⟨SAFE_OUT, 7, 4⟩
abbrev SAFE_OUT_SOUT : Fld := ⟨SAFE_OUT, 3, 0⟩
abbrev SAFE_LOCK : Nat := 0x0e0010
abbrev SAFE_LOCK_CAUSE : Fld := ⟨SAFE_LOCK, 15, 0⟩
abbrev SAFE_INFLT : Nat := 0x0e0014
abbrev SAFE_INFLT_KIND : Fld := ⟨SAFE_INFLT, 15, 0⟩
abbrev SAFE_FS : Nat := 0x0e0018
abbrev SAFE_FS_VOLT : Fld := ⟨SAFE_FS, 25, 16⟩
abbrev SAFE_FS_CODE : Fld := ⟨SAFE_FS, 9, 0⟩
abbrev SAFE_SS1_01 : Nat := 0x0e001c
abbrev SAFE_SS1_01_LEFT_16 : Fld := ⟨SAFE_SS1_01, 31, 16⟩
abbrev SAFE_SS1_01_LEFT_0 : Fld := ⟨SAFE_SS1_01, 15, 0⟩
abbrev SAFE_SS1_23 : Nat := 0x0e0020
abbrev SAFE_SS1_23_LEFT_16 : Fld := ⟨SAFE_SS1_23, 31, 16⟩
abbrev SAFE_SS1_23_LEFT_0 : Fld := ⟨SAFE_SS1_23, 15, 0⟩
abbrev SAFE_FAULT : Nat := 0x0e0024
abbrev SAFE_FAULT_CODE : Fld := ⟨SAFE_FAULT, 7, 0⟩
abbrev SAFE_SIG : Nat := 0x0e0028
abbrev SAFE_TEST : Nat := 0x0e002c
abbrev SAFE_TEST_SKIPPED : Fld := ⟨SAFE_TEST, 31, 16⟩
abbrev SAFE_TEST_DONE : Fld := ⟨SAFE_TEST, 15, 0⟩
abbrev SAFE_RESET : Nat := 0x0e0030
abbrev SAFE_RESET_IGNORED : Fld := ⟨SAFE_RESET, 31, 16⟩
abbrev SAFE_RESET_ACCEPTED : Fld := ⟨SAFE_RESET, 15, 0⟩
abbrev SAFE_SEQ : Nat := 0x0e0034
abbrev SAFE_SPARE : Nat := 0x0e0038
abbrev SAFE_CRC : Nat := 0x0e003c
abbrev SAFE_CORE : Nat := 0x0e0100
abbrev SAFE_CORE_BADREC : Fld := ⟨SAFE_CORE, 31, 16⟩
abbrev SAFE_CORE_ISLAND_CLOCK : Fld := ⟨SAFE_CORE, 1, 1⟩
abbrev SAFE_CORE_ISLAND_LOSS : Fld := ⟨SAFE_CORE, 0, 0⟩
abbrev SAFE_WD_IVL : Nat := 0x0e0104
abbrev SAFE_RECIPE_SIG : Nat := 0x0e0108
abbrev SAFE_AXMAP (n : Nat) : Nat := 0x0e0200 + 0x4 * n
abbrev RED_CFG : Nat := 0x0f0000
abbrev RED_CFG_PAIR : Fld := ⟨RED_CFG, 31, 31⟩
abbrev RED_CFG_SIDE : Fld := ⟨RED_CFG, 30, 30⟩
abbrev RED_CFG_MIRROR_DIV : Fld := ⟨RED_CFG, 29, 24⟩
abbrev RED_CFG_RING : Fld := ⟨RED_CFG, 23, 16⟩
abbrev RED_CFG_PARTNER : Fld := ⟨RED_CFG, 15, 8⟩
abbrev RED_CFG_H : Fld := ⟨RED_CFG, 7, 0⟩
abbrev RED_STAT : Nat := 0x0f0004
abbrev RED_STAT_EPOCH : Fld := ⟨RED_STAT, 31, 16⟩
abbrev RED_STAT_P_STATE : Fld := ⟨RED_STAT, 15, 12⟩
abbrev RED_STAT_STATE : Fld := ⟨RED_STAT, 11, 8⟩
abbrev RED_STAT_ROLE : Fld := ⟨RED_STAT, 7, 4⟩
abbrev RED_HB_DUE : Nat := 0x0f0008
abbrev RED_HB_DUE_P_EPOCH : Fld := ⟨RED_HB_DUE, 31, 16⟩
abbrev RED_HB_DUE_HB_DUE : Fld := ⟨RED_HB_DUE, 15, 0⟩
abbrev RED_HEALTH : Nat := 0x0f000c
abbrev RED_PHEALTH : Nat := 0x0f0010
abbrev RED_GRID : Nat := 0x0f0014
abbrev RED_CTL : Nat := 0x0f0018
abbrev RED_CTL_HANDOFF : Fld := ⟨RED_CTL, 0, 0⟩
abbrev RED_EVT : Nat := 0x0f001c
abbrev RED_EVT_HANDOFF : Fld := ⟨RED_EVT, 7, 7⟩
abbrev RED_EVT_DIVERGE : Fld := ⟨RED_EVT, 6, 6⟩
abbrev RED_EVT_MISMATCH : Fld := ⟨RED_EVT, 5, 5⟩
abbrev RED_EVT_READY : Fld := ⟨RED_EVT, 4, 4⟩
abbrev RED_EVT_NOT_READY : Fld := ⟨RED_EVT, 3, 3⟩
abbrev RED_EVT_SPLIT : Fld := ⟨RED_EVT, 2, 2⟩
abbrev RED_EVT_PARTNER_LOST : Fld := ⟨RED_EVT, 1, 1⟩
abbrev RED_EVT_TAKEOVER : Fld := ⟨RED_EVT, 0, 0⟩
abbrev RED_MISS_LL : Nat := 0x0f0020
abbrev RED_MISS_HBT : Nat := 0x0f0024
abbrev RED_DIVERGE : Nat := 0x0f0028
abbrev RED_LATE : Nat := 0x0f002c
abbrev RED_TAKEOVERS : Nat := 0x0f0030
abbrev RED_TK_NS : Nat := 0x0f0034
abbrev RED_TK_SEC : Nat := 0x0f0038
abbrev ACQ_CTL : Nat := 0x100000
abbrev ACQ_CTL_REFUSE : Fld := ⟨ACQ_CTL, 15, 12⟩
abbrev ACQ_CTL_FORCE : Fld := ⟨ACQ_CTL, 2, 2⟩
abbrev ACQ_CTL_STOP : Fld := ⟨ACQ_CTL, 1, 1⟩
abbrev ACQ_CTL_ARM : Fld := ⟨ACQ_CTL, 0, 0⟩
abbrev ACQ_CFG : Nat := 0x100004
abbrev ACQ_CFG_AUTOARM : Fld := ⟨ACQ_CFG, 7, 7⟩
abbrev ACQ_CFG_NSEG_LOG2 : Fld := ⟨ACQ_CFG, 6, 4⟩
abbrev ACQ_CFG_RING : Fld := ⟨ACQ_CFG, 3, 3⟩
abbrev ACQ_CFG_AUTO : Fld := ⟨ACQ_CFG, 2, 2⟩
abbrev ACQ_CFG_MODE : Fld := ⟨ACQ_CFG, 1, 0⟩
abbrev ACQ_RATE : Nat := 0x100008
abbrev ACQ_RATE_OFS : Fld := ⟨ACQ_RATE, 31, 16⟩
abbrev ACQ_RATE_DIV : Fld := ⟨ACQ_RATE, 15, 0⟩
abbrev ACQ_PRE : Nat := 0x10000c
abbrev ACQ_POST : Nat := 0x100010
abbrev ACQ_TRIG : Nat := 0x100014
abbrev ACQ_TRIG_PROBE : Fld := ⟨ACQ_TRIG, 6, 4⟩
abbrev ACQ_TRIG_KIND : Fld := ⟨ACQ_TRIG, 3, 0⟩
abbrev ACQ_TRIG_LEVEL : Nat := 0x100018
abbrev ACQ_TRIG_MASK : Nat := 0x10001c
abbrev ACQ_TRIG_NS : Nat := 0x100020
abbrev ACQ_TRIG_SEC : Nat := 0x100024
abbrev ACQ_STAT : Nat := 0x100028
abbrev ACQ_STAT_RECORDS : Fld := ⟨ACQ_STAT, 31, 16⟩
abbrev ACQ_STAT_SEG : Fld := ⟨ACQ_STAT, 13, 8⟩
abbrev ACQ_STAT_STATE : Fld := ⟨ACQ_STAT, 2, 0⟩
abbrev ACQ_DEAD : Nat := 0x10002c
abbrev ACQ_DEAD_MAX : Nat := 0x100030
abbrev ACQ_MISSED : Nat := 0x100034
abbrev ACQ_PRB_CTL (n : Nat) : Nat := 0x100100 + 0x10 * n
abbrev ACQ_PRB_CTL_SRC (n : Nat) : Fld := ⟨ACQ_PRB_CTL n, 31, 8⟩
abbrev ACQ_PRB_CTL_EN (n : Nat) : Fld := ⟨ACQ_PRB_CTL n, 2, 2⟩
abbrev ACQ_PRB_CTL_KIND (n : Nat) : Fld := ⟨ACQ_PRB_CTL n, 1, 0⟩
abbrev ACQ_PRB_MASK (n : Nat) : Nat := 0x100104 + 0x10 * n
abbrev MST_STAT : Nat := 0x110000
abbrev MST_STAT_LAST_TR : Fld := ⟨MST_STAT, 31, 23⟩
abbrev MST_STAT_RUN : Fld := ⟨MST_STAT, 8, 8⟩
abbrev MST_STAT_CO_SAFE : Fld := ⟨MST_STAT, 7, 7⟩
abbrev MST_STAT_STATE : Fld := ⟨MST_STAT, 5, 0⟩
abbrev MST_TIMER : Nat := 0x110004
abbrev MST_REQ : Nat := 0x110008
abbrev MST_FLAGS : Nat := 0x11000c
abbrev MST_NOTIFY : Nat := 0x110010
abbrev MST_NOTIFY_VALID : Fld := ⟨MST_NOTIFY, 16, 16⟩
abbrev MST_NOTIFY_CODE : Fld := ⟨MST_NOTIFY, 15, 0⟩
abbrev MST_FORCE : Nat := 0x110014
abbrev MST_FORCE_GO : Fld := ⟨MST_FORCE, 6, 6⟩
abbrev MST_FORCE_STATE : Fld := ⟨MST_FORCE, 5, 0⟩
abbrev MST_REFUSE : Nat := 0x110018
abbrev MST_REFUSE_ACTION : Fld := ⟨MST_REFUSE, 31, 16⟩
abbrev MST_REFUSE_STATUS : Fld := ⟨MST_REFUSE, 7, 0⟩
abbrev MST_CNT_TR : Nat := 0x11001c
abbrev MST_CNT_SKIP : Nat := 0x110020
abbrev MST_STATES (n : Nat) : Nat := 0x111000 + 0x4 * n
abbrev MST_TRANS (n : Nat) : Nat := 0x112000 + 0x4 * n
abbrev MST_ACTS (n : Nat) : Nat := 0x114000 + 0x4 * n
abbrev HOST_STAT : Nat := 0x120000
abbrev HOST_STAT_HELD : Fld := ⟨HOST_STAT, 31, 24⟩
abbrev HOST_STAT_DONE : Fld := ⟨HOST_STAT, 23, 16⟩
abbrev HOST_STAT_FREE : Fld := ⟨HOST_STAT, 15, 7⟩
abbrev HOST_STAT_LOCKED : Fld := ⟨HOST_STAT, 2, 2⟩
abbrev HOST_STAT_ENG_OPEN : Fld := ⟨HOST_STAT, 1, 1⟩
abbrev HOST_STAT_HRDY : Fld := ⟨HOST_STAT, 0, 0⟩
abbrev HOST_EVT : Nat := 0x120004
abbrev HOST_EVT_ENG_CLOSED : Fld := ⟨HOST_EVT, 7, 7⟩
abbrev HOST_EVT_REPORT : Fld := ⟨HOST_EVT, 6, 6⟩
abbrev HOST_EVT_PAIR : Fld := ⟨HOST_EVT, 5, 5⟩
abbrev HOST_EVT_SAFETY : Fld := ⟨HOST_EVT, 4, 4⟩
abbrev HOST_EVT_NOTIFY : Fld := ⟨HOST_EVT, 3, 3⟩
abbrev HOST_EVT_ROLLCALL_FAIL : Fld := ⟨HOST_EVT, 2, 2⟩
abbrev HOST_EVT_NO_RECIPE : Fld := ⟨HOST_EVT, 1, 1⟩
abbrev HOST_EVT_TKT_DONE : Fld := ⟨HOST_EVT, 0, 0⟩
abbrev HOST_EVT_EN : Nat := 0x120008
abbrev HOST_EVT_EN_EN_4 : Fld := ⟨HOST_EVT_EN, 7, 4⟩
abbrev HOST_EVT_EN_EN_0 : Fld := ⟨HOST_EVT_EN, 0, 0⟩
abbrev HOST_CTL : Nat := 0x12000c
abbrev HOST_CTL_FLUSH : Fld := ⟨HOST_CTL, 0, 0⟩
abbrev HOST_ENG_CTL : Nat := 0x120010
abbrev HOST_ENG_CTL_LOCK : Fld := ⟨HOST_ENG_CTL, 31, 16⟩
abbrev HOST_ENG_CTL_CLOSE : Fld := ⟨HOST_ENG_CTL, 1, 1⟩
abbrev HOST_ENG_CTL_REQ : Fld := ⟨HOST_ENG_CTL, 0, 0⟩
abbrev HOST_ENG_CHAL : Nat := 0x120014
abbrev HOST_ENG_RESP : Nat := 0x120018
abbrev HOST_ENG_STAT : Nat := 0x12001c
abbrev HOST_ENG_STAT_IDLE : Fld := ⟨HOST_ENG_STAT, 31, 16⟩
abbrev HOST_ENG_STAT_FAILS : Fld := ⟨HOST_ENG_STAT, 7, 4⟩
abbrev HOST_ENG_STAT_CHAL_OPEN : Fld := ⟨HOST_ENG_STAT, 0, 0⟩
abbrev HOST_CNT_NRDY : Nat := 0x120020
abbrev HOST_CNT_ABORT : Nat := 0x120024
abbrev HOST_CNT_BADOP : Nat := 0x120028
abbrev HOST_CNT_REFUSED : Nat := 0x12002c
abbrev TKT_STAT (n : Nat) : Nat := 0x120400 + 0x4 * n
abbrev TKT_STAT_STATE (n : Nat) : Fld := ⟨TKT_STAT n, 31, 29⟩
abbrev TKT_STAT_OWNER (n : Nat) : Fld := ⟨TKT_STAT n, 28, 28⟩
abbrev TKT_STAT_OP (n : Nat) : Fld := ⟨TKT_STAT n, 23, 16⟩
abbrev TKT_STAT_STATUS (n : Nat) : Fld := ⟨TKT_STAT n, 15, 8⟩
abbrev TKT_STAT_COUNT (n : Nat) : Fld := ⟨TKT_STAT n, 7, 0⟩
abbrev BKG_SCRUB : Nat := 0x130000
abbrev BKG_SCRUB_PASS_MS : Fld := ⟨BKG_SCRUB, 31, 16⟩
abbrev BKG_SCRUB_PASSES : Fld := ⟨BKG_SCRUB, 15, 0⟩
abbrev BKG_ECC_CORR : Nat := 0x130004
abbrev BKG_ECC_UNC : Nat := 0x130008
abbrev BKG_ECC_ADDR : Nat := 0x13000c
abbrev BKG_ECC_ADDR_REGION : Fld := ⟨BKG_ECC_ADDR, 31, 28⟩
abbrev BKG_ECC_ADDR_ADDR : Fld := ⟨BKG_ECC_ADDR, 23, 0⟩
abbrev BKG_TEMP : Nat := 0x130010
abbrev BKG_TEMP_NOW : Fld := ⟨BKG_TEMP, 15, 0⟩
abbrev BKG_TEMP_MAX : Nat := 0x130014
abbrev BKG_TEMP_MAX_MAX : Fld := ⟨BKG_TEMP_MAX, 15, 0⟩
abbrev BKG_SUP (n : Nat) : Nat := 0x130020 + 0x4 * n
abbrev BKG_SUP_MV (n : Nat) : Fld := ⟨BKG_SUP n, 15, 0⟩
abbrev BKG_CAL : Nat := 0x130040
abbrev BKG_CAL_FAULT : Fld := ⟨BKG_CAL, 10, 0⟩
abbrev BKG_LOG_STAT : Nat := 0x130044
abbrev BKG_LOG_STAT_QUEUED : Fld := ⟨BKG_LOG_STAT, 23, 16⟩
abbrev BKG_LOG_STAT_FAULT : Fld := ⟨BKG_LOG_STAT, 1, 1⟩
abbrev BKG_LOG_STAT_BUSY : Fld := ⟨BKG_LOG_STAT, 0, 0⟩
abbrev BKG_LOG_SEQ : Nat := 0x130048
abbrev BKG_LOG_ERASES : Nat := 0x13004c
abbrev BKG_LOG_LOST : Nat := 0x130050
abbrev BKG_HOURS : Nat := 0x130060
abbrev BKG_HOT : Nat := 0x130064
abbrev BKG_POWERUPS : Nat := 0x130068
abbrev BKG_POWERUPS_COUNT : Fld := ⟨BKG_POWERUPS, 15, 0⟩
abbrev BKG_HRS_LIM : Nat := 0x13006c
abbrev BKG_RC_SUM : Nat := 0x130100
abbrev BKG_RC_SUM_SEEN : Fld := ⟨BKG_RC_SUM, 7, 0⟩
abbrev BKG_RC_HOST : Nat := 0x130104
abbrev BKG_RC_HOST_HOST : Fld := ⟨BKG_RC_HOST, 7, 0⟩
abbrev BKG_RC_LAST : Nat := 0x130108
abbrev BKG_RC_LAST_CODE : Fld := ⟨BKG_RC_LAST, 15, 0⟩
abbrev BKG_RC_LAST_NS : Nat := 0x13010c
abbrev BKG_RC_LAST_SEC : Nat := 0x130110
abbrev BKG_RC_CNT (n : Nat) : Nat := 0x130140 + 0x4 * n

end Sys2Proof.Machine
end

