-- ==== Sys2Proof/Machine/RegMap.lean ====
section
/-! DEFINITION. The register map: every register page of the spec as one row (name, addresses, fields with their
access code of Table 00-4, the /P mark, and the reset value). A reset value the pages give as Recipe, Store, Log,
Strap, Pin or Descriptor stands as 0 here (notes/assumptions/3.md); the step that supplies it writes it. -/

namespace Sys2Proof.Machine

/-- Table 00-4 (R3). -/
inductive Access where
  | ro | rw | w1c | rc | wo
  deriving DecidableEq, Repr

/-- One field of a register page. `priv` is the suffix /P (R3, R5). -/
structure FieldRow where
  name : String
  hi : Nat
  lo : Nat
  acc : Access
  priv : Bool
  reset : Nat
  deriving DecidableEq, Repr

/-- Whether a word is one of the two halves of a value wider than 32 bits (R7). -/
inductive Half where
  | one | lower | upper
  deriving DecidableEq, Repr

/-- One register page entry: the registers stand at `base + stride * n` for `first ≤ n < last`. `priv` marks a
register that carries /P as a whole (R5). -/
structure RegRow where
  name : String
  base : Nat
  stride : Nat
  first : Nat
  last : Nat
  half : Half
  priv : Bool
  fields : List FieldRow
  deriving DecidableEq, Repr

def rows00_0 : List RegRow := [
  ⟨"SYS_ID", 0x000000, 0x4, 0, 1, .one, false, [⟨"PART", 31, 16, .ro, false, 0x1280⟩, ⟨"REV", 15, 8, .ro, false, 0xa1⟩]⟩,
  ⟨"SYS_UID_LO", 0x000004, 0x4, 0, 1, .lower, false, [⟨"UID", 31, 0, .ro, false, 0⟩]⟩,
  ⟨"SYS_UID_HI", 0x000008, 0x4, 0, 1, .upper, false, [⟨"UID", 31, 0, .ro, false, 0⟩]⟩,
  ⟨"SYS_STRAP", 0x00000c, 0x4, 0, 1, .one, false, [⟨"SVC_EN_LIVE", 4, 4, .ro, false, 0⟩, ⟨"SVC_EN", 3, 3, .ro, false, 0⟩, ⟨"ROLE", 2, 2, .ro, false, 0⟩, ⟨"BOOT_MODE", 1, 0, .ro, false, 0⟩]⟩,
  ⟨"SYS_STATUS", 0x000010, 0x4, 0, 1, .one, false, [⟨"KEY_FAULT", 7, 7, .ro, false, 0⟩, ⟨"ENG_OPEN", 6, 6, .ro, false, 0⟩, ⟨"KEY_BLANK", 5, 5, .ro, false, 0⟩, ⟨"TRIM_BAD", 4, 4, .ro, false, 0⟩, ⟨"STATE", 3, 0, .ro, false, 0⟩]⟩,
  ⟨"SYS_RESET_CAUSE", 0x000014, 0x4, 0, 1, .one, false, [⟨"SW", 2, 2, .rc, false, 0⟩, ⟨"PIN", 1, 1, .rc, false, 0⟩, ⟨"POR", 0, 0, .rc, false, 0⟩]⟩,
  ⟨"SYS_SWRST", 0x000018, 0x4, 0, 1, .one, true, [⟨"CODE", 31, 0, .wo, true, 0⟩]⟩,
  ⟨"SYS_TRIM_CTL", 0x000020, 0x4, 0, 1, .one, true, [⟨"COMMIT", 1, 1, .rw, true, 0⟩, ⟨"VIEW", 0, 0, .rw, true, 0⟩]⟩,
  ⟨"SYS_TRIM_STAT", 0x000024, 0x4, 0, 1, .one, false, [⟨"COUNT", 31, 16, .ro, false, 0⟩, ⟨"REFUSE", 2, 2, .w1c, false, 0⟩, ⟨"ORIGIN", 1, 1, .ro, false, 0⟩, ⟨"BUSY", 0, 0, .ro, false, 0⟩]⟩,
  ⟨"SYS_TRIM", 0x000800, 0x4, 0, 512, .one, false, [⟨"DATA", 31, 0, .rw, false, 0⟩]⟩]

def rows01_0 : List RegRow := [
  ⟨"BOOT_STATUS", 0x010000, 0x4, 0, 1, .one, false, [⟨"SLOT", 11, 8, .ro, false, 0⟩, ⟨"HOSTLOAD", 3, 3, .ro, false, 0⟩, ⟨"FALLBACK", 2, 2, .ro, false, 0⟩, ⟨"FAILED", 1, 1, .ro, false, 0⟩, ⟨"LOADED", 0, 0, .ro, false, 0⟩]⟩,
  ⟨"BOOT_FAIL", 0x010004, 0x4, 0, 1, .one, false, [⟨"SECTION", 15, 8, .ro, false, 0⟩, ⟨"CODE", 7, 0, .ro, false, 0⟩]⟩,
  ⟨"BOOT_SLOT", 0x010008, 0x4, 0, 1, .one, false, [⟨"UPDATE", 16, 16, .rw, false, 0⟩, ⟨"FALLBACK", 15, 8, .rw, false, 0⟩, ⟨"SEL", 7, 0, .rw, false, 0⟩]⟩,
  ⟨"BOOT_RECIPE_ID", 0x01000c, 0x4, 0, 1, .one, false, [⟨"VALUE", 31, 0, .ro, false, 0⟩]⟩,
  ⟨"BOOT_RECIPE_VER", 0x010010, 0x4, 0, 1, .one, false, [⟨"VALUE", 31, 0, .ro, false, 0⟩]⟩,
  ⟨"BOOT_LEVEL", 0x010014, 0x4, 0, 1, .one, false, [⟨"SUPPORTED", 31, 16, .ro, false, 1⟩, ⟨"LEVEL", 7, 0, .ro, false, 0⟩]⟩,
  ⟨"BOOT_RELEASE", 0x010018, 0x4, 0, 1, .one, false, [⟨"GO", 0, 0, .wo, false, 0⟩]⟩,
  ⟨"BOOT_RELOAD", 0x01001c, 0x4, 0, 1, .one, false, [⟨"REFUSE", 15, 12, .ro, false, 0⟩, ⟨"BUSY", 9, 9, .ro, false, 0⟩, ⟨"REQ", 8, 8, .wo, false, 0⟩, ⟨"SLOT", 3, 0, .rw, false, 0⟩]⟩,
  ⟨"BOOT_FLASH", 0x010020, 0x4, 0, 1, .one, false, [⟨"READ", 19, 0, .ro, false, 3⟩]⟩,
  ⟨"BOOT_LOAD_TIME", 0x010024, 0x4, 0, 1, .one, false, [⟨"US", 31, 0, .ro, false, 0⟩]⟩,
  ⟨"BOOT_KEY_STAT", 0x010028, 0x4, 0, 1, .one, false, [⟨"KEY_ID", 31, 0, .ro, false, 0⟩]⟩,
  ⟨"BOOT_KEY_CHECK", 0x01002c, 0x4, 0, 1, .one, false, [⟨"CHECK", 31, 0, .ro, false, 0⟩]⟩,
  ⟨"BOOT_HL_CTL", 0x010030, 0x4, 0, 1, .one, false, [⟨"START", 31, 31, .wo, false, 0⟩, ⟨"ABORT", 30, 30, .wo, false, 0⟩, ⟨"LEN", 23, 0, .rw, false, 0⟩]⟩,
  ⟨"BOOT_HL_DATA", 0x010034, 0x4, 0, 1, .one, false, [⟨"DATA", 31, 0, .wo, false, 0⟩]⟩,
  ⟨"BOOT_FLOP", 0x010038, 0x4, 0, 1, .one, false, [⟨"RESULT", 31, 30, .ro, false, 0⟩, ⟨"OP", 2, 0, .wo, false, 0⟩]⟩,
  ⟨"BOOT_FLOP_ADDR", 0x01003c, 0x4, 0, 1, .one, false, [⟨"ADDR", 31, 0, .rw, false, 0⟩]⟩,
  ⟨"BOOT_KEY_DATA", 0x010040, 0x4, 0, 8, .one, true, [⟨"KEY", 31, 0, .wo, true, 0⟩]⟩,
  ⟨"BOOT_KEY_ID", 0x010060, 0x4, 0, 1, .one, true, [⟨"ID", 31, 0, .wo, true, 0⟩]⟩,
  ⟨"BOOT_KEY_PROG", 0x010064, 0x4, 0, 1, .one, true, [⟨"PROG", 31, 0, .wo, true, 0⟩]⟩,
  ⟨"BOOT_FLOP_DATA", 0x010100, 0x4, 0, 64, .one, false, [⟨"DATA", 31, 0, .rw, false, 0⟩]⟩]

def rows02_0 : List RegRow := [
  ⟨"LANE_TOPO", 0x020000, 0x4, 0, 1, .one, false, [⟨"LL_USED", 4, 4, .ro, false, 0⟩, ⟨"TOPO_B", 3, 2, .ro, false, 0⟩, ⟨"TOPO_A", 1, 0, .ro, false, 0⟩]⟩,
  ⟨"LANE_UP", 0x020004, 0x4, 0, 1, .one, false, [⟨"UP", 9, 0, .ro, false, 0⟩]⟩,
  ⟨"LANE_CTL", 0x020100, 0x40, 0, 10, .one, false, [⟨"LOOP", 8, 8, .rw, true, 0⟩, ⟨"EQ_HOLD", 2, 2, .rw, false, 0⟩, ⟨"EMPH", 1, 0, .rw, false, 0⟩]⟩,
  ⟨"LANE_STAT", 0x020104, 0x40, 0, 10, .one, false, [⟨"EQ", 11, 8, .ro, false, 0⟩, ⟨"INV", 4, 4, .ro, false, 0⟩, ⟨"LOS", 3, 3, .ro, false, 1⟩, ⟨"STATE", 2, 0, .ro, false, 0⟩]⟩,
  ⟨"LANE_EVT", 0x020108, 0x40, 0, 10, .one, false, [⟨"GATE", 4, 4, .w1c, false, 0⟩, ⟨"OVERRUN", 3, 3, .w1c, false, 0⟩, ⟨"LOS", 2, 2, .w1c, false, 0⟩, ⟨"SYNC_LOSS", 1, 1, .w1c, false, 0⟩, ⟨"UP", 0, 0, .w1c, false, 0⟩]⟩,
  ⟨"LANE_CV", 0x02010c, 0x40, 0, 10, .one, false, [⟨"CV", 31, 0, .rc, false, 0⟩]⟩,
  ⟨"LANE_SYNCLOSS", 0x020110, 0x40, 0, 10, .one, false, [⟨"SYNCLOSS", 31, 0, .rc, false, 0⟩]⟩,
  ⟨"LANE_FRAMING", 0x020114, 0x40, 0, 10, .one, false, [⟨"FRAMING", 31, 0, .rc, false, 0⟩]⟩,
  ⟨"LANE_OVERRUN", 0x020118, 0x40, 0, 10, .one, false, [⟨"OVERRUN", 31, 0, .rc, false, 0⟩]⟩,
  ⟨"LANE_GATE", 0x02011c, 0x40, 0, 10, .one, false, [⟨"GATE", 31, 0, .rc, false, 0⟩]⟩,
  ⟨"LANE_ELASTIC", 0x020120, 0x40, 0, 10, .one, false, [⟨"ELASTIC", 31, 0, .rc, false, 0⟩]⟩,
  ⟨"LANE_LENGTH", 0x020124, 0x40, 0, 10, .one, false, [⟨"LENGTH", 31, 0, .rc, false, 0⟩]⟩,
  ⟨"LANE_HEADER", 0x020128, 0x40, 0, 10, .one, false, [⟨"HEADER", 31, 0, .rc, false, 0⟩]⟩,
  ⟨"LANE_CRC", 0x02012c, 0x40, 0, 10, .one, false, [⟨"CRC", 31, 0, .rc, false, 0⟩]⟩]

def rows03_0 : List RegRow := [
  ⟨"TIME_MT_NS", 0x030000, 0x4, 0, 1, .lower, false, [⟨"NS", 31, 2, .ro, false, 0⟩, ⟨"DOMAIN", 1, 0, .ro, false, 0⟩]⟩,
  ⟨"TIME_MT_SEC", 0x030004, 0x4, 0, 1, .upper, false, [⟨"SEC", 31, 0, .ro, false, 0⟩]⟩,
  ⟨"TIME_LT_NS", 0x030008, 0x4, 0, 1, .lower, false, [⟨"NS", 31, 2, .rw, false, 0⟩, ⟨"DOMAIN", 1, 0, .rw, false, 1⟩]⟩,
  ⟨"TIME_LT_SEC", 0x03000c, 0x4, 0, 1, .upper, false, [⟨"SEC", 31, 0, .rw, false, 0⟩]⟩,
  ⟨"TIME_FR_NS", 0x030010, 0x4, 0, 1, .lower, false, [⟨"NS", 31, 2, .ro, false, 0⟩, ⟨"DOMAIN", 1, 0, .ro, false, 2⟩]⟩,
  ⟨"TIME_FR_SEC", 0x030014, 0x4, 0, 1, .upper, false, [⟨"SEC", 31, 0, .ro, false, 0⟩]⟩,
  ⟨"TIME_MT_ADDEND", 0x030018, 0x4, 0, 1, .one, false, [⟨"F_MT", 31, 0, .ro, false, 0⟩]⟩,
  ⟨"TIME_LT_ADDEND", 0x03001c, 0x4, 0, 1, .one, false, [⟨"F_LT", 31, 0, .rw, false, 0⟩]⟩,
  ⟨"TIME_MT_CTL", 0x030020, 0x4, 0, 1, .one, false, [⟨"KI_SHIFT", 15, 12, .rw, false, 0⟩, ⟨"KP_SHIFT", 11, 8, .rw, false, 0⟩, ⟨"REF_MODE", 1, 0, .ro, false, 0⟩]⟩,
  ⟨"TIME_MT_STAT", 0x030024, 0x4, 0, 1, .one, false, [⟨"CAND", 25, 24, .ro, false, 0⟩, ⟨"SRC_HEAD", 23, 16, .ro, false, 0⟩, ⟨"REF", 15, 8, .ro, false, 0⟩, ⟨"STEPPED", 4, 4, .ro, false, 0⟩, ⟨"STATE", 3, 0, .ro, false, 0⟩]⟩,
  ⟨"TIME_MT_OFFSET", 0x030028, 0x4, 0, 1, .one, false, [⟨"E", 31, 0, .ro, false, 0⟩]⟩,
  ⟨"TIME_MT_HOFS_NS", 0x03002c, 0x4, 0, 1, .lower, false, [⟨"NS", 31, 2, .ro, false, 0⟩]⟩,
  ⟨"TIME_MT_HOFS_SEC", 0x030030, 0x4, 0, 1, .upper, false, [⟨"SEC", 31, 0, .ro, false, 0⟩]⟩,
  ⟨"TIME_BELL_CNT", 0x030034, 0x4, 0, 1, .one, false, [⟨"COUNT", 31, 0, .ro, false, 0⟩]⟩,
  ⟨"TIME_EVT", 0x030038, 0x4, 0, 1, .one, false, [⟨"TRG_OVR", 19, 16, .w1c, false, 0⟩, ⟨"TRG_LATE", 15, 12, .w1c, false, 0⟩, ⟨"PPS_IN", 8, 8, .w1c, false, 0⟩, ⟨"SRC_CONFLICT", 7, 7, .w1c, false, 0⟩, ⟨"REF_FAULT", 6, 6, .w1c, false, 0⟩, ⟨"RATE_LIMIT", 5, 5, .w1c, false, 0⟩, ⟨"HANDOVER", 4, 4, .w1c, false, 0⟩, ⟨"HOLDOVER", 3, 3, .w1c, false, 0⟩, ⟨"UNLOCK", 2, 2, .w1c, false, 0⟩, ⟨"LOCK", 1, 1, .w1c, false, 0⟩, ⟨"STEP", 0, 0, .w1c, false, 0⟩]⟩,
  ⟨"TIME_PPS_CTL", 0x030040, 0x4, 0, 1, .one, false, [⟨"WIDTH_MS", 24, 16, .rw, false, 0x64⟩, ⟨"OUT_SCALE", 1, 1, .rw, false, 0⟩, ⟨"OUT_EN", 0, 0, .rw, false, 0⟩]⟩,
  ⟨"TIME_PPS_MT_NS", 0x030044, 0x4, 0, 1, .lower, false, [⟨"MT_NS__MT_SEC", 31, 0, .ro, false, 0⟩]⟩,
  ⟨"TIME_PPS_MT_SEC", 0x030048, 0x4, 0, 1, .upper, false, [⟨"MT_NS__MT_SEC", 31, 0, .ro, false, 0⟩]⟩,
  ⟨"TIME_PPS_LT_NS", 0x03004c, 0x4, 0, 1, .lower, false, [⟨"LT_NS__LT_SEC", 31, 0, .ro, false, 0⟩]⟩,
  ⟨"TIME_PPS_LT_SEC", 0x030050, 0x4, 0, 1, .upper, false, [⟨"LT_NS__LT_SEC", 31, 0, .ro, false, 0⟩]⟩,
  ⟨"TIME_PPS_CNT", 0x030054, 0x4, 0, 1, .one, false, [⟨"CNT", 31, 0, .ro, false, 0⟩]⟩,
  ⟨"TIME_TRG_CTL", 0x030100, 0x20, 0, 4, .one, false, [⟨"WIDTH", 31, 16, .rw, false, 1⟩, ⟨"POL", 4, 4, .rw, false, 0⟩, ⟨"EDGE", 3, 2, .rw, false, 0⟩, ⟨"MODE", 1, 0, .rw, false, 0⟩]⟩,
  ⟨"TIME_TRG_NS", 0x030104, 0x20, 0, 4, .lower, false, [⟨"NS", 31, 2, .rw, false, 0⟩, ⟨"DOMAIN", 1, 0, .rw, false, 3⟩]⟩,
  ⟨"TIME_TRG_SEC", 0x030108, 0x20, 0, 4, .upper, false, [⟨"SEC", 31, 0, .rw, false, 0⟩]⟩,
  ⟨"TIME_TRG_PER", 0x03010c, 0x20, 0, 4, .one, false, [⟨"PER", 31, 0, .rw, false, 0⟩]⟩,
  ⟨"TIME_TRG_STAMP_NS", 0x030110, 0x20, 0, 4, .lower, false, [⟨"NS", 31, 0, .ro, false, 3⟩]⟩,
  ⟨"TIME_TRG_STAMP_SEC", 0x030114, 0x20, 0, 4, .upper, false, [⟨"SEC", 31, 0, .ro, false, 0⟩]⟩]

def rows04_0 : List RegRow := [
  ⟨"SCHED_CFG", 0x040000, 0x4, 0, 1, .one, false, [⟨"PRIV_RES", 31, 16, .ro, false, 0⟩, ⟨"BMAX", 15, 0, .ro, false, 0⟩]⟩,
  ⟨"SCHED_LOAD", 0x040004, 0x4, 0, 1, .one, false, [⟨"CYC", 31, 16, .ro, false, 0⟩, ⟨"TOTAL", 15, 0, .ro, false, 0⟩]⟩,
  ⟨"SCHED_LOAD_PEAK", 0x040008, 0x4, 0, 1, .one, false, [⟨"PEAK", 15, 0, .rc, false, 0⟩]⟩,
  ⟨"SCHED_WC", 0x04000c, 0x4, 0, 1, .one, false, [⟨"WC_LOAD", 15, 0, .ro, false, 0⟩]⟩,
  ⟨"SCHED_EN_SET", 0x040010, 0x4, 0, 1, .one, false, [⟨"TID", 9, 0, .wo, false, 0⟩]⟩,
  ⟨"SCHED_FLAG_SET", 0x040014, 0x4, 0, 1, .one, false, [⟨"SOFT", 23, 16, .wo, false, 0⟩, ⟨"TID", 9, 0, .wo, false, 0⟩]⟩,
  ⟨"SCHED_EVT", 0x040018, 0x4, 0, 1, .one, false, [⟨"PRIV_DEFER", 2, 2, .w1c, false, 0⟩, ⟨"OVR_FAULT", 1, 1, .w1c, false, 0⟩, ⟨"OVERRUN", 0, 0, .w1c, false, 0⟩]⟩,
  ⟨"SCHED_COAL", 0x04001c, 0x4, 0, 1, .one, false, [⟨"COUNT", 31, 0, .rc, false, 0⟩]⟩,
  ⟨"SCHED_PRIVQ", 0x040020, 0x4, 0, 1, .one, false, [⟨"Q3", 31, 24, .ro, false, 0⟩, ⟨"Q2", 23, 16, .ro, false, 0⟩, ⟨"Q1", 15, 8, .ro, false, 0⟩, ⟨"Q0", 7, 0, .ro, false, 0⟩]⟩,
  ⟨"SCHED_TSTAT", 0x044000, 0x4, 0, 1024, .one, false, [⟨"STATE", 31, 30, .ro, false, 0⟩, ⟨"ENG", 29, 26, .ro, false, 0⟩, ⟨"CONSEC", 25, 24, .ro, false, 0⟩, ⟨"FAULT", 23, 16, .ro, false, 0⟩]⟩,
  ⟨"SCHED_OVR", 0x045000, 0x4, 0, 1024, .one, false, [⟨"COUNT", 31, 0, .rc, false, 0⟩]⟩,
  ⟨"SCHED_FLAGS", 0x046000, 0x4, 0, 1024, .one, false, [⟨"FLAGS", 31, 0, .ro, false, 0⟩]⟩,
  ⟨"SCHED_DESC", 0x048000, 0x4, 0, 8192, .one, false, [⟨"WORD0_WORD7", 31, 0, .ro, false, 0⟩]⟩]

def rows05_0 : List RegRow := [
  ⟨"LE_SEL", 0x050000, 0x4, 0, 1, .one, true, [⟨"ENG", 3, 0, .rw, true, 0⟩]⟩,
  ⟨"LE_ROM", 0x050004, 0x4, 0, 1, .one, true, [⟨"LEVELS", 31, 16, .ro, true, 1⟩, ⟨"VER", 15, 0, .ro, true, 0⟩]⟩,
  ⟨"LE_CTL", 0x050100, 0x20, 0, 16, .one, true, [⟨"RUN", 2, 2, .wo, true, 0⟩, ⟨"STEP", 1, 1, .wo, true, 0⟩, ⟨"HALT", 0, 0, .rw, true, 0⟩]⟩,
  ⟨"LE_STAT", 0x050104, 0x20, 0, 16, .one, true, [⟨"PC", 28, 16, .ro, true, 0⟩, ⟨"TID", 15, 6, .ro, true, 0⟩, ⟨"STATE", 2, 0, .ro, true, 0⟩]⟩,
  ⟨"LE_FAULT", 0x050108, 0x20, 0, 16, .one, true, [⟨"CODE", 31, 24, .rc, true, 0⟩, ⟨"TID", 23, 14, .rc, true, 0⟩, ⟨"PC", 12, 0, .rc, true, 0⟩]⟩,
  ⟨"LE_PC", 0x05010c, 0x20, 0, 16, .one, true, [⟨"PC", 12, 0, .rw, true, 0⟩]⟩,
  ⟨"LE_BUSY", 0x050110, 0x20, 0, 16, .one, true, [⟨"BUSY", 31, 0, .rc, true, 0⟩]⟩,
  ⟨"LE_ECC", 0x050114, 0x20, 0, 16, .one, true, [⟨"ECC", 31, 0, .rc, true, 0⟩]⟩]

def rows08_0 : List RegRow := [
  ⟨"AX_CTL", 0x080000, 0x400, 0, 128, .one, false, [⟨"CLR_BRIDGE", 5, 5, .wo, true, 0⟩, ⟨"CLR", 4, 4, .wo, false, 0⟩, ⟨"CTRL", 3, 2, .rw, false, 0⟩, ⟨"FB", 1, 1, .ro, false, 0⟩, ⟨"EN", 0, 0, .rw, false, 0⟩]⟩,
  ⟨"AX_STAT", 0x080004, 0x400, 0, 128, .one, false, [⟨"CATCHES", 9, 8, .ro, false, 0⟩, ⟨"ILIMIT", 7, 7, .ro, false, 0⟩, ⟨"VLIMIT", 6, 6, .ro, false, 0⟩, ⟨"NOWIN", 5, 5, .ro, false, 0⟩, ⟨"SHIFTED", 4, 4, .ro, false, 0⟩, ⟨"STATE", 3, 0, .ro, false, 0⟩]⟩,
  ⟨"AX_FAULT", 0x080008, 0x400, 0, 128, .one, false, [⟨"FAULT", 13, 0, .ro, false, 0⟩]⟩,
  ⟨"AX_MOTOR", 0x080010, 0x400, 0, 128, .one, false, [⟨"DIR", 8, 8, .rw, false, 0⟩, ⟨"PP", 7, 0, .rw, false, 0⟩]⟩,
  ⟨"AX_ENC_CPR", 0x080014, 0x400, 0, 128, .one, false, [⟨"CPR", 31, 0, .rw, false, 0⟩]⟩,
  ⟨"AX_ENC_ZERO", 0x080018, 0x400, 0, 128, .one, false, [⟨"ZERO", 31, 8, .rw, false, 0⟩]⟩,
  ⟨"AX_RS", 0x080020, 0x400, 0, 128, .one, false, [⟨"RS", 31, 0, .rw, false, 0⟩]⟩,
  ⟨"AX_LD", 0x080024, 0x400, 0, 128, .one, false, [⟨"LD", 31, 0, .rw, false, 0⟩]⟩,
  ⟨"AX_LQ", 0x080028, 0x400, 0, 128, .one, false, [⟨"LQ", 31, 0, .rw, false, 0⟩]⟩,
  ⟨"AX_PSI", 0x08002c, 0x400, 0, 128, .one, false, [⟨"PSI", 31, 0, .rw, false, 0⟩]⟩,
  ⟨"AX_CUR_BW", 0x080030, 0x400, 0, 128, .one, false, [⟨"BW_Q", 31, 16, .rw, false, 0⟩, ⟨"BW_D", 15, 0, .rw, false, 0⟩]⟩,
  ⟨"AX_RATED_N", 0x080034, 0x400, 0, 128, .one, false, [⟨"RPM", 15, 0, .rw, false, 0⟩]⟩,
  ⟨"AX_RATED_I", 0x080038, 0x400, 0, 128, .one, false, [⟨"I", 31, 8, .rw, false, 0⟩]⟩,
  ⟨"AX_IREF_D", 0x080040, 0x400, 0, 128, .one, false, [⟨"VALUE", 31, 8, .rw, false, 0⟩]⟩,
  ⟨"AX_IREF_Q", 0x080044, 0x400, 0, 128, .one, false, [⟨"VALUE", 31, 8, .rw, false, 0⟩]⟩,
  ⟨"AX_ILIM", 0x080048, 0x400, 0, 128, .one, false, [⟨"VALUE", 31, 8, .rw, false, 0⟩]⟩,
  ⟨"AX_ILIM_REGEN", 0x08004c, 0x400, 0, 128, .one, false, [⟨"VALUE", 31, 8, .rw, false, 0⟩]⟩,
  ⟨"AX_VLIM", 0x080050, 0x400, 0, 128, .one, false, [⟨"MMAX", 15, 0, .rw, false, 0⟩]⟩,
  ⟨"AX_SHUNT", 0x080060, 0x400, 0, 128, .one, false, [⟨"TSET", 31, 24, .ro, false, 0⟩, ⟨"TAP", 23, 16, .ro, false, 0⟩, ⟨"CMP_MIN", 15, 0, .ro, false, 0⟩]⟩,
  ⟨"AX_SHIFT", 0x080064, 0x400, 0, 128, .one, false, [⟨"CORR_LIM", 31, 16, .rw, false, 0⟩, ⟨"SH_LIM", 15, 0, .rw, false, 0⟩]⟩,
  ⟨"AX_DTC", 0x080068, 0x400, 0, 128, .one, false, [⟨"DT", 31, 24, .ro, false, 0⟩, ⟨"DTC_TICKS", 23, 16, .rw, false, 0⟩, ⟨"BAND", 15, 0, .rw, false, 0⟩]⟩,
  ⟨"AX_OBS", 0x080070, 0x400, 0, 128, .one, false, [⟨"OBS_BW", 31, 16, .rw, false, 0⟩, ⟨"OBS_MIN", 15, 0, .rw, false, 0⟩]⟩,
  ⟨"AX_OBS_JUMP", 0x080074, 0x400, 0, 128, .one, false, [⟨"WJUMP", 15, 0, .rw, false, 0⟩]⟩,
  ⟨"AX_IF", 0x080078, 0x400, 0, 128, .one, false, [⟨"IF_CUR", 31, 8, .rw, false, 0⟩, ⟨"IF_RAMP", 7, 0, .rw, false, 0⟩]⟩,
  ⟨"AX_NOWIN_LIM", 0x080080, 0x400, 0, 128, .one, false, [⟨"LIM", 15, 0, .rw, false, 0x20⟩]⟩,
  ⟨"AX_I_D", 0x0800a0, 0x400, 0, 128, .one, false, [⟨"VALUE", 31, 8, .ro, false, 0⟩]⟩,
  ⟨"AX_I_Q", 0x0800a4, 0x400, 0, 128, .one, false, [⟨"VALUE", 31, 8, .ro, false, 0⟩]⟩,
  ⟨"AX_V_D", 0x0800a8, 0x400, 0, 128, .one, false, [⟨"VALUE", 31, 8, .ro, false, 0⟩]⟩,
  ⟨"AX_V_Q", 0x0800ac, 0x400, 0, 128, .one, false, [⟨"VALUE", 31, 8, .ro, false, 0⟩]⟩,
  ⟨"AX_THETA", 0x0800b0, 0x400, 0, 128, .one, false, [⟨"VALUE", 31, 8, .ro, false, 0⟩]⟩,
  ⟨"AX_THETA_OBS", 0x0800b4, 0x400, 0, 128, .one, false, [⟨"VALUE", 31, 8, .ro, false, 0⟩]⟩,
  ⟨"AX_W_OBS", 0x0800b8, 0x400, 0, 128, .one, false, [⟨"W", 31, 0, .ro, false, 0⟩]⟩,
  ⟨"AX_OFS", 0x0800bc, 0x400, 0, 128, .one, false, [⟨"OFS1", 31, 16, .ro, false, 0⟩, ⟨"OFS2", 15, 0, .ro, false, 0⟩]⟩,
  ⟨"AX_CNT_NOWIN", 0x0800c0, 0x400, 0, 128, .one, false, [⟨"COUNT", 31, 0, .rc, false, 0⟩]⟩,
  ⟨"AX_CNT_SHIFT", 0x0800c4, 0x400, 0, 128, .one, false, [⟨"COUNT", 31, 0, .rc, false, 0⟩]⟩,
  ⟨"AX_CNT_CATCH", 0x0800c8, 0x400, 0, 128, .one, false, [⟨"COUNT", 31, 0, .rc, false, 0⟩]⟩,
  ⟨"AX_PT_CTL", 0x0800e0, 0x400, 0, 128, .one, false, [⟨"CUR", 31, 16, .rw, false, 0⟩, ⟨"APPLY", 4, 4, .wo, false, 0⟩, ⟨"SPIN", 3, 3, .rw, false, 0⟩, ⟨"MOVE", 2, 2, .rw, false, 0⟩, ⟨"ABORT", 1, 1, .wo, false, 0⟩, ⟨"START", 0, 0, .wo, false, 0⟩]⟩,
  ⟨"AX_PT_STAT", 0x0800e4, 0x400, 0, 128, .one, false, [⟨"RESULT", 31, 24, .ro, false, 0⟩, ⟨"STEP", 23, 16, .ro, false, 0⟩]⟩,
  ⟨"AX_PT_RS", 0x0800e8, 0x400, 0, 128, .one, false, [⟨"RS_LD_LQ_PSI", 31, 0, .ro, false, 0⟩]⟩,
  ⟨"AX_PT_LD", 0x0800ec, 0x400, 0, 128, .one, false, [⟨"RS_LD_LQ_PSI", 31, 0, .ro, false, 0⟩]⟩]

def rows08_1 : List RegRow := [
  ⟨"AX_PT_LQ", 0x0800f0, 0x400, 0, 128, .one, false, [⟨"RS_LD_LQ_PSI", 31, 0, .ro, false, 0⟩]⟩,
  ⟨"AX_PT_PSI", 0x0800f4, 0x400, 0, 128, .one, false, [⟨"RS_LD_LQ_PSI", 31, 0, .ro, false, 0⟩]⟩,
  ⟨"AX_PT_ENC", 0x0800f8, 0x400, 0, 128, .one, false, [⟨"ZERO", 31, 8, .ro, false, 0⟩, ⟨"DIR", 7, 7, .ro, false, 0⟩, ⟨"PP", 6, 0, .ro, false, 0⟩]⟩,
  ⟨"AX_MSTAT", 0x080100, 0x400, 0, 128, .one, false, [⟨"MV_ID", 31, 16, .ro, false, 0⟩, ⟨"QCOUNT", 15, 12, .ro, false, 0⟩, ⟨"REFD", 7, 7, .ro, false, 0⟩, ⟨"REMAIN", 6, 6, .ro, false, 0⟩, ⟨"LIMIT", 5, 5, .ro, false, 0⟩, ⟨"MSTATE", 3, 0, .ro, false, 0⟩]⟩,
  ⟨"AX_MFAULT", 0x080104, 0x400, 0, 128, .one, false, [⟨"STEP_LOSS", 2, 2, .ro, false, 0⟩, ⟨"POS_MODEL", 1, 1, .ro, false, 0⟩, ⟨"FOLLOW_ERR", 0, 0, .ro, false, 0⟩]⟩,
  ⟨"AX_SPD_REF", 0x080108, 0x400, 0, 128, .one, false, [⟨"SPD_REF", 31, 0, .rw, false, 0⟩]⟩,
  ⟨"AX_ACC", 0x08010c, 0x400, 0, 128, .one, false, [⟨"ACC_DEC", 31, 0, .rw, false, 0⟩]⟩,
  ⟨"AX_DEC", 0x080110, 0x400, 0, 128, .one, false, [⟨"ACC_DEC", 31, 0, .rw, false, 0⟩]⟩,
  ⟨"AX_STOP_DEC", 0x080114, 0x400, 0, 128, .one, false, [⟨"STOP_DEC_QSTOP_DEC", 31, 0, .rw, false, 0⟩]⟩,
  ⟨"AX_QSTOP_DEC", 0x080118, 0x400, 0, 128, .one, false, [⟨"STOP_DEC_QSTOP_DEC", 31, 0, .rw, false, 0⟩]⟩,
  ⟨"AX_REV", 0x08011c, 0x400, 0, 128, .one, false, [⟨"REV_HOLD", 15, 0, .rw, false, 0⟩]⟩,
  ⟨"AX_SPD_FILT", 0x080120, 0x400, 0, 128, .one, false, [⟨"FILT", 3, 0, .rw, false, 0⟩]⟩,
  ⟨"AX_SPD_KP", 0x080124, 0x400, 0, 128, .one, false, [⟨"KP_S_KI_S", 31, 0, .rw, false, 0⟩]⟩,
  ⟨"AX_SPD_KI", 0x080128, 0x400, 0, 128, .one, false, [⟨"KP_S_KI_S", 31, 0, .rw, false, 0⟩]⟩,
  ⟨"AX_SPD_KFF", 0x08012c, 0x400, 0, 128, .one, false, [⟨"KFF", 31, 0, .rw, false, 0⟩]⟩,
  ⟨"AX_POS_KP", 0x080130, 0x400, 0, 128, .one, false, [⟨"KP_P", 31, 0, .rw, false, 0⟩]⟩,
  ⟨"AX_POS_KVFF", 0x080134, 0x400, 0, 128, .one, false, [⟨"KVFF", 31, 0, .rw, false, 0x1000000⟩]⟩,
  ⟨"AX_FE", 0x080138, 0x400, 0, 128, .one, false, [⟨"FE_LIM", 31, 8, .rw, false, 0⟩, ⟨"FE_N", 7, 0, .rw, false, 4⟩]⟩,
  ⟨"AX_MODEL", 0x08013c, 0x400, 0, 128, .one, false, [⟨"MODEL_LIM", 31, 8, .rw, false, 0⟩, ⟨"TM_SHIFT", 7, 4, .rw, false, 0⟩, ⟨"CORR_SHIFT", 3, 0, .rw, false, 0⟩]⟩,
  ⟨"AX_POS_MIN", 0x080140, 0x400, 0, 128, .one, false, [⟨"MIN_MAX", 31, 0, .rw, false, 0⟩]⟩,
  ⟨"AX_POS_MAX", 0x080144, 0x400, 0, 128, .one, false, [⟨"MIN_MAX", 31, 0, .rw, false, 0⟩]⟩,
  ⟨"AX_MODULO", 0x080148, 0x400, 0, 128, .one, false, [⟨"MOD", 31, 0, .rw, false, 0⟩]⟩,
  ⟨"AX_POS_ACT_LO", 0x080150, 0x400, 0, 128, .lower, false, [⟨"ACT_LO_ACT_HI", 31, 0, .ro, false, 0⟩]⟩,
  ⟨"AX_POS_ACT_HI", 0x080154, 0x400, 0, 128, .upper, false, [⟨"ACT_LO_ACT_HI", 31, 0, .ro, false, 0⟩]⟩,
  ⟨"AX_POS_REF_LO", 0x080158, 0x400, 0, 128, .lower, false, [⟨"REF_LO_REF_HI", 31, 0, .ro, false, 0⟩]⟩,
  ⟨"AX_POS_REF_HI", 0x08015c, 0x400, 0, 128, .upper, false, [⟨"REF_LO_REF_HI", 31, 0, .ro, false, 0⟩]⟩,
  ⟨"AX_POS_SET_LO", 0x080160, 0x400, 0, 128, .lower, false, [⟨"SET_LO_SET_HI", 31, 0, .wo, false, 0⟩]⟩,
  ⟨"AX_POS_SET_HI", 0x080164, 0x400, 0, 128, .upper, false, [⟨"SET_LO_SET_HI", 31, 0, .wo, false, 0⟩]⟩,
  ⟨"AX_SPD_ACT", 0x080168, 0x400, 0, 128, .one, false, [⟨"SPD_ACT", 31, 0, .ro, false, 0⟩]⟩,
  ⟨"AX_SPD_CMD", 0x08016c, 0x400, 0, 128, .one, false, [⟨"SPD_CMD", 31, 0, .ro, false, 0⟩]⟩,
  ⟨"AX_FE_ACT", 0x080170, 0x400, 0, 128, .one, false, [⟨"FE", 31, 0, .ro, false, 0⟩]⟩,
  ⟨"AX_MV_TGT_LO", 0x080180, 0x400, 0, 128, .lower, false, [⟨"TGT", 31, 0, .rw, false, 0⟩]⟩,
  ⟨"AX_MV_TGT_HI", 0x080184, 0x400, 0, 128, .upper, false, [⟨"TGT", 31, 0, .rw, false, 0⟩]⟩,
  ⟨"AX_MV_VEL", 0x080188, 0x400, 0, 128, .one, false, [⟨"VEL", 31, 0, .rw, false, 0⟩]⟩,
  ⟨"AX_MV_ACC", 0x08018c, 0x400, 0, 128, .one, false, [⟨"ACC_DEC", 31, 0, .rw, false, 0⟩]⟩,
  ⟨"AX_MV_DEC", 0x080190, 0x400, 0, 128, .one, false, [⟨"ACC_DEC", 31, 0, .rw, false, 0⟩]⟩,
  ⟨"AX_MV_MODE", 0x080194, 0x400, 0, 128, .one, false, [⟨"ID", 31, 16, .rw, false, 0⟩, ⟨"BLEND", 8, 8, .rw, false, 0⟩, ⟨"DIRM", 5, 4, .rw, false, 0⟩, ⟨"TYPE", 3, 0, .rw, false, 0⟩]⟩,
  ⟨"AX_MV_CTL", 0x080198, 0x400, 0, 128, .one, false, [⟨"REFUSE", 15, 12, .ro, false, 0⟩, ⟨"FLUSH", 4, 4, .wo, false, 0⟩, ⟨"RESUME", 3, 3, .wo, false, 0⟩, ⟨"QSTOP", 2, 2, .wo, false, 0⟩, ⟨"STOP", 1, 1, .wo, false, 0⟩, ⟨"PUSH", 0, 0, .wo, false, 0⟩]⟩,
  ⟨"AX_MV_REMAIN", 0x08019c, 0x400, 0, 128, .one, false, [⟨"REMAIN", 31, 0, .ro, false, 0⟩]⟩,
  ⟨"AX_MV_DONE", 0x0801a0, 0x400, 0, 128, .one, false, [⟨"LAST_ID", 31, 16, .ro, false, 0⟩, ⟨"COUNT", 15, 0, .ro, false, 0⟩]⟩]

def rows08_2 : List RegRow := [
  ⟨"AX_STP_CFG", 0x0801c0, 0x400, 0, 128, .one, false, [⟨"SPR", 31, 16, .rw, false, 0⟩, ⟨"MS_LOG2", 3, 0, .rw, false, 0⟩]⟩,
  ⟨"AX_STP_I", 0x0801c4, 0x400, 0, 128, .one, false, [⟨"I_RUN", 31, 16, .rw, false, 0⟩, ⟨"I_STBY", 15, 0, .rw, false, 0⟩]⟩,
  ⟨"AX_STP_STBY", 0x0801c8, 0x400, 0, 128, .one, false, [⟨"STBY_DELAY", 15, 0, .rw, false, 0⟩]⟩,
  ⟨"AX_STP_KC", 0x0801cc, 0x400, 0, 128, .one, false, [⟨"KC", 31, 16, .rw, false, 0⟩, ⟨"DUTY_MAX", 15, 0, .rw, false, 0xf333⟩]⟩,
  ⟨"AX_STP_LOSS", 0x0801d0, 0x400, 0, 128, .one, false, [⟨"LOSS_LIM", 15, 0, .rw, false, 0⟩]⟩,
  ⟨"AX_FOL_CFG", 0x080200, 0x400, 0, 128, .one, false, [⟨"LEAD", 31, 16, .rw, false, 0⟩, ⟨"CLU_CAP", 12, 10, .rw, false, 0⟩, ⟨"CLU_TRIG", 9, 8, .rw, false, 0⟩, ⟨"ISTOP", 4, 4, .rw, false, 0⟩, ⟨"MODE", 3, 3, .rw, false, 0⟩, ⟨"VM", 2, 0, .rw, false, 0⟩]⟩,
  ⟨"AX_FOL_NUM", 0x080204, 0x400, 0, 128, .one, false, [⟨"NUM", 31, 0, .rw, false, 0⟩]⟩,
  ⟨"AX_FOL_DEN", 0x080208, 0x400, 0, 128, .one, false, [⟨"DEN", 31, 0, .rw, false, 0⟩]⟩,
  ⟨"AX_CAM_SEL", 0x08020c, 0x400, 0, 128, .one, false, [⟨"AT_WRAP", 16, 16, .wo, false, 0⟩, ⟨"SEG", 13, 0, .wo, false, 0⟩]⟩,
  ⟨"AX_CLU_CTL", 0x080210, 0x400, 0, 128, .one, false, [⟨"REFUSE", 15, 12, .ro, false, 0⟩, ⟨"DISENGAGE", 1, 1, .wo, false, 0⟩, ⟨"ENGAGE", 0, 0, .wo, false, 0⟩]⟩,
  ⟨"AX_CLU_POS", 0x080214, 0x400, 0, 128, .one, false, [⟨"CLU_POS", 31, 0, .rw, false, 0⟩]⟩,
  ⟨"AX_CLU_RAMP", 0x080218, 0x400, 0, 128, .one, false, [⟨"CLU_RAMP", 31, 0, .rw, false, 0⟩]⟩,
  ⟨"AX_FOL_STAT", 0x08021c, 0x400, 0, 128, .one, false, [⟨"CAM_REFUSE", 15, 12, .ro, false, 0⟩, ⟨"PEND", 8, 8, .ro, false, 0⟩, ⟨"CAM", 7, 4, .ro, false, 0⟩, ⟨"CLU", 3, 0, .ro, false, 0⟩]⟩,
  ⟨"AX_CAM_PHASE_LO", 0x080220, 0x400, 0, 128, .lower, false, [⟨"PHASE", 31, 0, .ro, false, 0⟩]⟩,
  ⟨"AX_CAM_PHASE_HI", 0x080224, 0x400, 0, 128, .upper, false, [⟨"PHASE", 31, 0, .ro, false, 0⟩]⟩,
  ⟨"AX_CAM_ACT", 0x080228, 0x400, 0, 128, .one, false, [⟨"SEG_NOW", 29, 16, .ro, false, 0⟩, ⟨"SEG_FIRST", 13, 0, .ro, false, 0⟩]⟩,
  ⟨"AX_CAM_LEN", 0x08022c, 0x400, 0, 128, .one, false, [⟨"LEN", 31, 0, .ro, false, 0⟩]⟩,
  ⟨"AX_CAM_RISE_LO", 0x080230, 0x400, 0, 128, .lower, false, [⟨"RISE", 31, 0, .ro, false, 0⟩]⟩,
  ⟨"AX_CAM_RISE_HI", 0x080234, 0x400, 0, 128, .upper, false, [⟨"RISE", 31, 0, .ro, false, 0⟩]⟩,
  ⟨"AX_REG_CFG", 0x080240, 0x400, 0, 128, .one, false, [⟨"RATE", 31, 16, .rw, false, 0x800⟩, ⟨"MISS_LIM", 15, 8, .rw, false, 8⟩, ⟨"EN", 3, 3, .rw, false, 0⟩, ⟨"CAP", 2, 0, .rw, false, 0⟩]⟩,
  ⟨"AX_REG_EXP", 0x080244, 0x400, 0, 128, .one, false, [⟨"EXP", 31, 0, .rw, false, 0⟩]⟩,
  ⟨"AX_REG_WIN", 0x080248, 0x400, 0, 128, .one, false, [⟨"WIN", 31, 0, .rw, false, 0⟩]⟩,
  ⟨"AX_REG_GAIN", 0x08024c, 0x400, 0, 128, .one, false, [⟨"GAIN", 15, 0, .rw, false, 0⟩]⟩,
  ⟨"AX_REG_MAX", 0x080250, 0x400, 0, 128, .one, false, [⟨"MAX", 31, 0, .rw, false, 0⟩]⟩,
  ⟨"AX_REG_PITCH", 0x080254, 0x400, 0, 128, .one, false, [⟨"PITCH", 31, 0, .rw, false, 0⟩]⟩,
  ⟨"AX_REG_ERR", 0x080258, 0x400, 0, 128, .one, false, [⟨"ERR", 31, 0, .ro, false, 0⟩]⟩,
  ⟨"AX_REG_PEND", 0x08025c, 0x400, 0, 128, .one, false, [⟨"PEND", 31, 0, .ro, false, 0⟩]⟩,
  ⟨"AX_REG_STAT", 0x080260, 0x400, 0, 128, .one, false, [⟨"LOST", 8, 8, .ro, false, 0⟩, ⟨"MISS", 7, 0, .ro, false, 0⟩]⟩,
  ⟨"AX_REG_MARKS", 0x080264, 0x400, 0, 128, .one, false, [⟨"MARKS", 31, 0, .rc, false, 0⟩]⟩,
  ⟨"AX_REG_OUT", 0x080268, 0x400, 0, 128, .one, false, [⟨"OUT", 31, 0, .rc, false, 0⟩]⟩,
  ⟨"AX_REG_EXTRA", 0x08026c, 0x400, 0, 128, .one, false, [⟨"EXTRA", 31, 0, .rc, false, 0⟩]⟩]

def rows0A_0 : List RegRow := [
  ⟨"VM_CFG", 0x0a0000, 0x80, 0, 8, .one, false, [⟨"SRC_HEAD", 23, 16, .rw, false, 0⟩, ⟨"SRC_IDX", 15, 8, .rw, false, 0⟩, ⟨"PUB", 2, 2, .rw, false, 0⟩, ⟨"SRC", 1, 0, .rw, false, 0⟩]⟩,
  ⟨"VM_MCYC", 0x0a0004, 0x80, 0, 8, .one, false, [⟨"MCYC", 31, 0, .rw, false, 0⟩]⟩,
  ⟨"VM_NUM", 0x0a0008, 0x80, 0, 8, .one, false, [⟨"NUM", 31, 0, .rw, false, 0⟩]⟩,
  ⟨"VM_DEN", 0x0a000c, 0x80, 0, 8, .one, false, [⟨"DEN", 31, 0, .rw, false, 0⟩]⟩,
  ⟨"VM_SPD_REF", 0x0a0010, 0x80, 0, 8, .one, false, [⟨"SPD_REF", 31, 0, .rw, false, 0⟩]⟩,
  ⟨"VM_ACC", 0x0a0014, 0x80, 0, 8, .one, false, [⟨"ACC_DEC_QSTOP_DEC", 31, 0, .rw, false, 0⟩]⟩,
  ⟨"VM_DEC", 0x0a0018, 0x80, 0, 8, .one, false, [⟨"ACC_DEC_QSTOP_DEC", 31, 0, .rw, false, 0⟩]⟩,
  ⟨"VM_QSTOP_DEC", 0x0a001c, 0x80, 0, 8, .one, false, [⟨"ACC_DEC_QSTOP_DEC", 31, 0, .rw, false, 0⟩]⟩,
  ⟨"VM_CTL", 0x0a0020, 0x80, 0, 8, .one, false, [⟨"REFUSE", 15, 12, .ro, false, 0⟩, ⟨"RESYNC", 5, 5, .wo, false, 0⟩, ⟨"SET", 4, 4, .wo, false, 0⟩, ⟨"STOP_AT", 3, 3, .wo, false, 0⟩, ⟨"QSTOP", 2, 2, .wo, false, 0⟩, ⟨"STOP", 1, 1, .wo, false, 0⟩, ⟨"RUN", 0, 0, .wo, false, 0⟩]⟩,
  ⟨"VM_STOP_POS", 0x0a0024, 0x80, 0, 8, .one, false, [⟨"STOP_POS", 31, 0, .rw, false, 0⟩]⟩,
  ⟨"VM_SET_LO", 0x0a0028, 0x80, 0, 8, .lower, false, [⟨"SET", 31, 0, .rw, false, 0⟩]⟩,
  ⟨"VM_SET_HI", 0x0a002c, 0x80, 0, 8, .upper, false, [⟨"SET", 31, 0, .rw, false, 0⟩]⟩,
  ⟨"VM_OFS_LO", 0x0a0030, 0x80, 0, 8, .lower, false, [⟨"OFS", 31, 0, .rw, false, 0⟩]⟩,
  ⟨"VM_OFS_HI", 0x0a0034, 0x80, 0, 8, .upper, false, [⟨"OFS", 31, 0, .rw, false, 0⟩]⟩,
  ⟨"VM_LINE", 0x0a0038, 0x80, 0, 8, .one, false, [⟨"HOLD", 31, 16, .rw, false, 0x14⟩, ⟨"TMO", 15, 0, .rw, false, 0⟩]⟩,
  ⟨"VM_PUB", 0x0a003c, 0x80, 0, 8, .one, false, [⟨"PUB_DIV", 7, 0, .ro, false, 0⟩]⟩,
  ⟨"VM_POS_LO", 0x0a0040, 0x80, 0, 8, .lower, false, [⟨"POS", 31, 0, .ro, false, 0⟩]⟩,
  ⟨"VM_POS_HI", 0x0a0044, 0x80, 0, 8, .upper, false, [⟨"POS", 31, 0, .ro, false, 0⟩]⟩,
  ⟨"VM_SPD", 0x0a0048, 0x80, 0, 8, .one, false, [⟨"SPD", 31, 0, .ro, false, 0⟩]⟩,
  ⟨"VM_ACC_ACT", 0x0a004c, 0x80, 0, 8, .one, false, [⟨"ACC", 31, 0, .ro, false, 0⟩]⟩,
  ⟨"VM_STAT", 0x0a0050, 0x80, 0, 8, .one, false, [⟨"FOLLOWERS", 15, 8, .ro, false, 0⟩, ⟨"ISTOP", 6, 6, .ro, false, 0⟩, ⟨"ENC_FLT", 5, 5, .ro, false, 0⟩, ⟨"LINE_OK", 4, 4, .ro, false, 0⟩, ⟨"STATE", 3, 0, .ro, false, 0⟩]⟩,
  ⟨"VM_AGE", 0x0a0054, 0x80, 0, 8, .one, false, [⟨"AGE", 31, 0, .ro, false, 0⟩]⟩,
  ⟨"VM_PUB_SKIP", 0x0a0058, 0x80, 0, 8, .one, false, [⟨"SKIP", 31, 0, .rc, false, 0⟩]⟩,
  ⟨"VM_LINE_MISMATCH", 0x0a005c, 0x80, 0, 8, .one, false, [⟨"MISMATCH", 31, 0, .rc, false, 0⟩]⟩,
  ⟨"CAM_INUSE", 0x0a1800, 0x4, 0, 512, .one, false, [⟨"USE", 31, 0, .ro, false, 0⟩]⟩]

def rows0B_0 : List RegRow := [
  ⟨"PL_MODE", 0x0b0000, 0x100, 0, 32, .one, false, [⟨"MODE", 2, 0, .rw, false, 0⟩]⟩,
  ⟨"PL_STAT", 0x0b0004, 0x100, 0, 32, .one, false, [⟨"FAULT", 23, 16, .ro, false, 0⟩, ⟨"PHASE", 15, 12, .ro, false, 0⟩, ⟨"RESULT", 11, 8, .ro, false, 0⟩, ⟨"ISTOP_ACT", 1, 1, .ro, false, 0⟩, ⟨"BUMP", 0, 0, .w1c, false, 0⟩]⟩,
  ⟨"PL_MAP", 0x0b0008, 0x100, 0, 32, .one, false, [⟨"STATION", 31, 16, .ro, false, 0⟩, ⟨"CHAN", 3, 0, .ro, false, 0⟩]⟩,
  ⟨"PL_CFG", 0x0b000c, 0x100, 0, 32, .one, false, [⟨"FAIL_OUT", 31, 16, .rw, false, 0⟩, ⟨"KS", 7, 5, .rw, false, 0⟩, ⟨"FORM", 4, 4, .rw, false, 0⟩, ⟨"ISTOP", 2, 2, .rw, false, 0⟩, ⟨"FAIL", 1, 0, .rw, false, 0⟩]⟩,
  ⟨"PL_RATE", 0x0b0010, 0x100, 0, 32, .one, false, [⟨"PHASE", 31, 16, .ro, false, 0⟩, ⟨"DIV", 15, 0, .ro, false, 0⟩]⟩,
  ⟨"PL_SP", 0x0b0014, 0x100, 0, 32, .one, false, [⟨"SP", 31, 8, .rw, false, 0⟩]⟩,
  ⟨"PL_SP_RAMP", 0x0b0018, 0x100, 0, 32, .one, false, [⟨"SP_RAMP", 31, 8, .rw, false, 0⟩]⟩,
  ⟨"PL_MAN", 0x0b001c, 0x100, 0, 32, .one, false, [⟨"MAN", 31, 16, .rw, false, 0⟩]⟩,
  ⟨"PL_OUTLIM", 0x0b0020, 0x100, 0, 32, .one, false, [⟨"OUT_MAX", 31, 16, .rw, false, 0⟩, ⟨"OUT_MIN", 15, 0, .rw, false, 0⟩]⟩,
  ⟨"PL_ALARM", 0x0b0024, 0x100, 0, 32, .one, false, [⟨"PV_HI", 31, 16, .rw, false, 0⟩, ⟨"DEV", 15, 0, .rw, false, 0⟩]⟩,
  ⟨"PL_REPLIM", 0x0b0028, 0x100, 0, 32, .one, false, [⟨"REP_LIM", 15, 0, .rw, false, 0⟩]⟩,
  ⟨"PL_CMD", 0x0b002c, 0x100, 0, 32, .one, false, [⟨"REFUSE", 15, 12, .ro, false, 0⟩, ⟨"APPLY", 4, 4, .wo, false, 0⟩, ⟨"TUNE_ABORT", 3, 3, .wo, false, 0⟩, ⟨"TUNE", 2, 2, .wo, false, 0⟩, ⟨"COMMIT", 1, 1, .wo, false, 0⟩, ⟨"CLR", 0, 0, .wo, false, 0⟩]⟩,
  ⟨"PL_B0", 0x0b0030, 0x100, 0, 32, .one, false, [⟨"COEF", 31, 8, .rw, false, 0⟩]⟩,
  ⟨"PL_B1", 0x0b0034, 0x100, 0, 32, .one, false, [⟨"COEF", 31, 8, .rw, false, 0⟩]⟩,
  ⟨"PL_B2", 0x0b0038, 0x100, 0, 32, .one, false, [⟨"COEF", 31, 8, .rw, false, 0⟩]⟩,
  ⟨"PL_B3", 0x0b003c, 0x100, 0, 32, .one, false, [⟨"COEF", 31, 8, .rw, false, 0⟩]⟩,
  ⟨"PL_A1", 0x0b0040, 0x100, 0, 32, .one, false, [⟨"COEF", 31, 8, .rw, false, 0⟩]⟩,
  ⟨"PL_A2", 0x0b0044, 0x100, 0, 32, .one, false, [⟨"COEF", 31, 8, .rw, false, 0⟩]⟩,
  ⟨"PL_A3", 0x0b0048, 0x100, 0, 32, .one, false, [⟨"COEF", 31, 8, .rw, false, 0⟩]⟩,
  ⟨"PL_PV", 0x0b0050, 0x100, 0, 32, .one, false, [⟨"VALUE", 31, 8, .ro, false, 0⟩]⟩,
  ⟨"PL_OUT", 0x0b0054, 0x100, 0, 32, .one, false, [⟨"VALUE", 31, 8, .ro, false, 0⟩]⟩,
  ⟨"PL_SP_ACT", 0x0b0058, 0x100, 0, 32, .one, false, [⟨"VALUE", 31, 8, .ro, false, 0⟩]⟩,
  ⟨"PL_RES", 0x0b005c, 0x100, 0, 32, .one, false, [⟨"VALUE", 31, 8, .ro, false, 0⟩]⟩,
  ⟨"PL_MODEL_K", 0x0b0060, 0x100, 0, 32, .one, false, [⟨"K", 31, 0, .rw, false, 0⟩]⟩,
  ⟨"PL_MODEL_A", 0x0b0064, 0x100, 0, 32, .one, false, [⟨"ALPHA", 31, 8, .rw, false, 0⟩]⟩,
  ⟨"PL_MODEL_Y0", 0x0b0068, 0x100, 0, 32, .one, false, [⟨"Y0", 31, 8, .rw, false, 0⟩]⟩,
  ⟨"PL_MODEL_CFG", 0x0b006c, 0x100, 0, 32, .one, false, [⟨"RES_LIM", 31, 24, .rw, false, 0⟩, ⟨"RES_N", 23, 16, .rw, false, 0x10⟩, ⟨"CORR", 15, 12, .rw, false, 0⟩, ⟨"D", 6, 0, .rw, false, 0⟩]⟩,
  ⟨"PL_TUNE_OUT", 0x0b0080, 0x100, 0, 32, .one, false, [⟨"BIAS", 31, 16, .rw, false, 0⟩, ⟨"AMP", 15, 0, .rw, false, 0⟩]⟩,
  ⟨"PL_TUNE_HYS", 0x0b0084, 0x100, 0, 32, .one, false, [⟨"HYS", 31, 8, .rw, false, 0⟩]⟩,
  ⟨"PL_TUNE_TIME", 0x0b0088, 0x100, 0, 32, .one, false, [⟨"TMO", 31, 16, .rw, false, 0x258⟩, ⟨"LAMBDA", 15, 0, .rw, false, 0⟩]⟩,
  ⟨"PL_TUNE_KU", 0x0b0090, 0x100, 0, 32, .one, false, [⟨"KU__K", 31, 0, .ro, false, 0⟩]⟩,
  ⟨"PL_TUNE_PU", 0x0b0094, 0x100, 0, 32, .one, false, [⟨"PU_THETA_TAU", 31, 0, .ro, false, 0⟩]⟩,
  ⟨"PL_TUNE_THETA", 0x0b0098, 0x100, 0, 32, .one, false, [⟨"PU_THETA_TAU", 31, 0, .ro, false, 0⟩]⟩,
  ⟨"PL_TUNE_TAU", 0x0b009c, 0x100, 0, 32, .one, false, [⟨"PU_THETA_TAU", 31, 0, .ro, false, 0⟩]⟩,
  ⟨"PL_TUNE_K", 0x0b00a0, 0x100, 0, 32, .one, false, [⟨"KU__K", 31, 0, .ro, false, 0⟩]⟩,
  ⟨"PL_TUNE_Y0", 0x0b00a4, 0x100, 0, 32, .one, false, [⟨"Y0", 31, 8, .ro, false, 0⟩]⟩,
  ⟨"PL_TUNE_B0", 0x0b00a8, 0x100, 0, 32, .one, false, [⟨"B0_B1", 31, 0, .ro, false, 0⟩]⟩,
  ⟨"PL_TUNE_B1", 0x0b00ac, 0x100, 0, 32, .one, false, [⟨"B0_B1", 31, 0, .ro, false, 0⟩]⟩,
  ⟨"PL_CNT_HELD", 0x0b00c0, 0x100, 0, 32, .one, false, [⟨"COUNT", 31, 0, .rc, false, 0⟩]⟩,
  ⟨"PL_CNT_IMPL", 0x0b00c4, 0x100, 0, 32, .one, false, [⟨"COUNT", 31, 0, .rc, false, 0⟩]⟩]

def rows0C_0 : List RegRow := [
  ⟨"ENC_CFG", 0x0c0000, 0x40, 0, 4, .one, false, [⟨"MIN_EDGE", 31, 24, .rw, false, 0⟩, ⟨"DIR_HYST", 23, 16, .rw, false, 0⟩, ⟨"WRAP_IE", 12, 12, .rw, false, 0⟩, ⟨"DIR_IE", 11, 11, .rw, false, 0⟩, ⟨"Z_MODE", 10, 9, .rw, false, 0⟩, ⟨"FILT", 8, 4, .rw, false, 0⟩, ⟨"INV", 3, 3, .rw, false, 0⟩, ⟨"MODE", 2, 0, .rw, false, 0⟩]⟩,
  ⟨"ENC_SPD_CFG", 0x0c0004, 0x40, 0, 4, .one, false, [⟨"SW", 31, 16, .rw, false, 0x40⟩, ⟨"WIN_LOG2", 7, 4, .rw, false, 0⟩, ⟨"IVL", 3, 2, .rw, false, 0⟩, ⟨"SPD_MODE", 1, 0, .rw, false, 0⟩]⟩,
  ⟨"ENC_STILL", 0x0c0008, 0x40, 0, 4, .one, false, [⟨"STILL", 31, 0, .rw, false, 0x1e8480⟩]⟩,
  ⟨"ENC_CNT", 0x0c000c, 0x40, 0, 4, .one, false, [⟨"CNT", 31, 0, .ro, false, 0⟩]⟩,
  ⟨"ENC_SPD", 0x0c0010, 0x40, 0, 4, .one, false, [⟨"SPD", 31, 0, .ro, false, 0⟩]⟩,
  ⟨"ENC_IVL", 0x0c0014, 0x40, 0, 4, .one, false, [⟨"IVL", 31, 0, .ro, false, 0⟩]⟩,
  ⟨"ENC_Z_CNT", 0x0c0018, 0x40, 0, 4, .one, false, [⟨"CNT", 31, 0, .ro, false, 0⟩]⟩,
  ⟨"ENC_Z_NS", 0x0c001c, 0x40, 0, 4, .lower, false, [⟨"NS_SEC", 31, 0, .ro, false, 3⟩]⟩,
  ⟨"ENC_Z_SEC", 0x0c0020, 0x40, 0, 4, .upper, false, [⟨"NS_SEC", 31, 0, .ro, false, 0⟩]⟩,
  ⟨"ENC_STAT", 0x0c0024, 0x40, 0, 4, .one, false, [⟨"Z_SEEN", 14, 14, .w1c, false, 0⟩, ⟨"WRAP_DN", 13, 13, .w1c, false, 0⟩, ⟨"WRAP_UP", 12, 12, .w1c, false, 0⟩, ⟨"DIR_CHG", 11, 11, .w1c, false, 0⟩, ⟨"STEP_SETUP", 10, 10, .w1c, false, 0⟩, ⟨"EDGE_FAST", 9, 9, .w1c, false, 0⟩, ⟨"QUAD_ERR", 8, 8, .w1c, false, 0⟩, ⟨"Z_ARMED", 2, 2, .ro, false, 0⟩, ⟨"METHOD", 1, 1, .ro, false, 0⟩, ⟨"DIR", 0, 0, .ro, false, 0⟩]⟩,
  ⟨"ENC_CTL", 0x0c0028, 0x40, 0, 4, .one, false, [⟨"CLR_CNT", 1, 1, .wo, false, 0⟩, ⟨"Z_ARM", 0, 0, .wo, false, 0⟩]⟩,
  ⟨"ENC_FAULTS", 0x0c002c, 0x40, 0, 4, .one, false, [⟨"FAULTS", 31, 0, .rc, false, 0⟩]⟩,
  ⟨"ENC_CNT_BELL", 0x0c0030, 0x40, 0, 4, .one, false, [⟨"CNT_BELL", 31, 0, .ro, false, 0⟩]⟩,
  ⟨"CAP_CFG", 0x0c1000, 0x20, 0, 8, .one, false, [⟨"LATCH", 9, 7, .rw, false, 4⟩, ⟨"FILT", 6, 2, .rw, false, 0⟩, ⟨"EDGE", 1, 0, .rw, false, 0⟩]⟩,
  ⟨"CAP_NS", 0x0c1004, 0x20, 0, 8, .lower, false, [⟨"NS", 31, 0, .ro, false, 3⟩]⟩,
  ⟨"CAP_SEC", 0x0c1008, 0x20, 0, 8, .upper, false, [⟨"SEC", 31, 0, .ro, false, 0⟩]⟩,
  ⟨"CAP_CNT", 0x0c100c, 0x20, 0, 8, .one, false, [⟨"CNT", 31, 0, .rc, false, 0⟩]⟩,
  ⟨"CAP_STAT", 0x0c1010, 0x20, 0, 8, .one, false, [⟨"OVR", 8, 8, .w1c, false, 0⟩, ⟨"LEVEL", 2, 0, .ro, false, 0⟩]⟩,
  ⟨"CAP_TOTAL", 0x0c1014, 0x20, 0, 8, .one, false, [⟨"TOTAL", 31, 0, .ro, false, 0⟩]⟩]

def rows0D_0 : List RegRow := [
  ⟨"NODE_STAT", 0x0d0000, 0x40, 1, 255, .one, false, [⟨"LANE_A", 27, 24, .ro, false, 0xf⟩, ⟨"LANE_B", 23, 20, .ro, false, 0xf⟩, ⟨"POS", 19, 12, .ro, false, 0⟩, ⟨"RESULT", 11, 8, .ro, false, 0⟩, ⟨"STATE", 3, 0, .ro, false, 0⟩]⟩,
  ⟨"NODE_UID_LO", 0x0d0004, 0x40, 1, 255, .lower, false, [⟨"UID", 31, 0, .ro, false, 0⟩]⟩,
  ⟨"NODE_UID_HI", 0x0d0008, 0x40, 1, 255, .upper, false, [⟨"UID", 31, 0, .ro, false, 0⟩]⟩,
  ⟨"NODE_DELAY", 0x0d000c, 0x40, 1, 255, .one, false, [⟨"DELAY_B", 31, 16, .ro, false, 0⟩, ⟨"DELAY_A", 15, 0, .ro, false, 0⟩]⟩,
  ⟨"NODE_HOP", 0x0d0010, 0x40, 1, 255, .one, false, [⟨"LENGTH", 31, 16, .ro, false, 0⟩, ⟨"HOP", 15, 0, .ro, false, 0⟩]⟩,
  ⟨"NODE_CTL", 0x0d0014, 0x40, 1, 255, .one, false, [⟨"RELEASE", 0, 0, .wo, false, 0⟩]⟩,
  ⟨"NODE_CRC", 0x0d0018, 0x40, 1, 255, .one, false, [⟨"CRC", 31, 0, .rc, false, 0⟩]⟩,
  ⟨"NODE_MISS", 0x0d001c, 0x40, 1, 255, .one, false, [⟨"MISS", 31, 0, .rc, false, 0⟩]⟩,
  ⟨"NODE_EDGE", 0x0d0020, 0x40, 1, 255, .one, false, [⟨"EDGE", 31, 0, .rc, false, 0⟩]⟩,
  ⟨"NODE_DRIFT", 0x0d0024, 0x40, 1, 255, .one, false, [⟨"DRIFT", 31, 0, .rc, false, 0⟩]⟩,
  ⟨"NODE_DETAIN", 0x0d0028, 0x40, 1, 255, .one, false, [⟨"DETAIN", 31, 0, .rc, false, 0⟩]⟩,
  ⟨"NODE_PROT", 0x0d002c, 0x40, 1, 255, .one, false, [⟨"CFG_OK", 16, 16, .ro, false, 0⟩, ⟨"FLAGS", 15, 0, .w1c, false, 0⟩]⟩,
  ⟨"NODE_RAWSW", 0x0d0030, 0x40, 1, 255, .one, true, [⟨"WIDTH", 31, 16, .rw, true, 0⟩, ⟨"RESULT", 15, 8, .ro, true, 0⟩, ⟨"PATTERN", 5, 0, .rw, true, 0⟩]⟩,
  ⟨"NODE_PWR", 0x0d0034, 0x40, 1, 255, .one, false, [⟨"PWR", 31, 0, .ro, false, 0⟩]⟩,
  ⟨"NODE_CNT_CMDBAD", 0x0d0038, 0x40, 1, 255, .one, false, [⟨"CMDBAD", 31, 0, .rc, false, 0⟩]⟩,
  ⟨"NODE_RC_CTL", 0x0d4000, 0x4, 0, 1, .one, false, [⟨"REFUSE", 7, 4, .ro, false, 0⟩, ⟨"FULL", 0, 0, .wo, false, 0⟩]⟩,
  ⟨"NODE_RC_STAT", 0x0d4004, 0x4, 0, 1, .one, false, [⟨"RUNS", 31, 16, .ro, false, 0⟩, ⟨"FAIL_STATION", 15, 8, .ro, false, 0⟩, ⟨"RESULT", 1, 0, .ro, false, 0⟩]⟩,
  ⟨"NODE_RC_LANE", 0x0d4010, 0x4, 0, 8, .one, false, [⟨"FOUND", 31, 24, .ro, false, 0⟩, ⟨"EXPECTED", 23, 16, .ro, false, 0⟩, ⟨"EXTRA", 15, 8, .ro, false, 0⟩, ⟨"STOP_POS", 7, 0, .ro, false, 0⟩]⟩,
  ⟨"DCB_CFG", 0x0d5000, 0x20, 0, 16, .one, false, [⟨"CHOP_STATION", 15, 8, .ro, false, 0⟩, ⟨"MEMBERS", 7, 0, .ro, false, 0⟩]⟩,
  ⟨"DCB_VCHOP", 0x0d5004, 0x20, 0, 16, .one, false, [⟨"V_FULL", 31, 16, .rw, false, 0⟩, ⟨"V_ON", 15, 0, .rw, false, 0⟩]⟩,
  ⟨"DCB_OV", 0x0d5008, 0x20, 0, 16, .one, false, [⟨"OV_TRIP", 31, 16, .ro, false, 0⟩, ⟨"DV_MIN", 15, 0, .rw, false, 0⟩]⟩,
  ⟨"DCB_REGEN", 0x0d500c, 0x20, 0, 16, .one, false, [⟨"REGEN", 31, 8, .rw, false, 0⟩]⟩,
  ⟨"DCB_STAT", 0x0d5010, 0x20, 0, 16, .one, false, [⟨"VDC", 31, 16, .ro, false, 0⟩, ⟨"DUTY", 15, 8, .ro, false, 0⟩, ⟨"CHOP_LOST", 2, 2, .ro, false, 0⟩, ⟨"LOCK", 1, 1, .ro, false, 0⟩, ⟨"CHOP_FAIL", 0, 0, .ro, false, 0⟩]⟩,
  ⟨"DCB_CTL", 0x0d5014, 0x20, 0, 16, .one, false, [⟨"REFUSE", 15, 12, .ro, false, 0⟩, ⟨"CLR_LOCK", 1, 1, .wo, true, 0⟩, ⟨"CLR_FAIL", 0, 0, .wo, false, 0⟩]⟩,
  ⟨"DCB_TRIP_NS", 0x0d5018, 0x20, 0, 16, .lower, false, [⟨"NS", 31, 0, .ro, false, 3⟩]⟩,
  ⟨"DCB_TRIP_SEC", 0x0d501c, 0x20, 0, 16, .upper, false, [⟨"SEC", 31, 0, .ro, false, 0⟩]⟩,
  ⟨"DCB_AXES", 0x0d6000, 0x4, 0, 64, .one, false, [⟨"AXES", 31, 0, .ro, false, 0⟩]⟩]

def rows0E_0 : List RegRow := [
  ⟨"SAFE_STATUS", 0x0e0000, 0x4, 0, 1, .one, false, [⟨"SS1_RUN", 31, 31, .ro, false, 0⟩, ⟨"PARAM", 30, 30, .ro, false, 1⟩, ⟨"ISL_FAULT", 29, 29, .ro, false, 0⟩, ⟨"RESET_REQ", 28, 28, .ro, false, 0⟩, ⟨"CORE_WD", 27, 27, .ro, false, 0⟩, ⟨"FS_STOP", 26, 26, .ro, false, 0⟩, ⟨"FS_SAG", 25, 25, .ro, false, 0⟩, ⟨"FS_WARN", 24, 24, .ro, false, 0⟩, ⟨"LOCK", 23, 20, .ro, false, 0⟩, ⟨"DEMAND", 19, 12, .ro, false, 0⟩, ⟨"IN", 11, 4, .ro, false, 0⟩, ⟨"OUT", 3, 0, .ro, false, 0⟩]⟩,
  ⟨"SAFE_REQ", 0x0e0004, 0x4, 0, 1, .one, false, [⟨"EARLY", 15, 12, .ro, false, 0⟩, ⟨"ACK", 11, 8, .ro, false, 0⟩, ⟨"REQ", 7, 0, .ro, false, 0xaa⟩]⟩,
  ⟨"SAFE_IN", 0x0e0008, 0x4, 0, 1, .one, false, [⟨"FAULT", 23, 16, .ro, false, 0⟩, ⟨"FILTERED", 15, 8, .ro, false, 0⟩, ⟨"RAW", 7, 0, .ro, false, 0⟩]⟩,
  ⟨"SAFE_OUT", 0x0e000c, 0x4, 0, 1, .one, false, [⟨"SRB", 7, 4, .ro, false, 0⟩, ⟨"SOUT", 3, 0, .ro, false, 0⟩]⟩,
  ⟨"SAFE_LOCK", 0x0e0010, 0x4, 0, 1, .one, false, [⟨"CAUSE", 15, 0, .ro, false, 0⟩]⟩,
  ⟨"SAFE_INFLT", 0x0e0014, 0x4, 0, 1, .one, false, [⟨"KIND", 15, 0, .ro, false, 0⟩]⟩,
  ⟨"SAFE_FS", 0x0e0018, 0x4, 0, 1, .one, false, [⟨"VOLT", 25, 16, .ro, false, 0⟩, ⟨"CODE", 9, 0, .ro, false, 0⟩]⟩,
  ⟨"SAFE_SS1_01", 0x0e001c, 0x4, 0, 1, .one, false, [⟨"LEFT", 31, 16, .ro, false, 0⟩, ⟨"LEFT", 15, 0, .ro, false, 0⟩]⟩,
  ⟨"SAFE_SS1_23", 0x0e0020, 0x4, 0, 1, .one, false, [⟨"LEFT", 31, 16, .ro, false, 0⟩, ⟨"LEFT", 15, 0, .ro, false, 0⟩]⟩,
  ⟨"SAFE_FAULT", 0x0e0024, 0x4, 0, 1, .one, false, [⟨"CODE", 7, 0, .ro, false, 0⟩]⟩,
  ⟨"SAFE_SIG", 0x0e0028, 0x4, 0, 1, .one, false, [⟨"SIG", 31, 0, .ro, false, 0⟩]⟩,
  ⟨"SAFE_TEST", 0x0e002c, 0x4, 0, 1, .one, false, [⟨"SKIPPED", 31, 16, .ro, false, 0⟩, ⟨"DONE", 15, 0, .ro, false, 0⟩]⟩,
  ⟨"SAFE_RESET", 0x0e0030, 0x4, 0, 1, .one, false, [⟨"IGNORED", 31, 16, .ro, false, 0⟩, ⟨"ACCEPTED", 15, 0, .ro, false, 0⟩]⟩,
  ⟨"SAFE_SEQ", 0x0e0034, 0x4, 0, 1, .one, false, [⟨"SEQ", 31, 0, .ro, false, 0⟩]⟩,
  ⟨"SAFE_SPARE", 0x0e0038, 0x4, 0, 1, .one, false, []⟩,
  ⟨"SAFE_CRC", 0x0e003c, 0x4, 0, 1, .one, false, [⟨"CRC", 31, 0, .ro, false, 0⟩]⟩,
  ⟨"SAFE_CORE", 0x0e0100, 0x4, 0, 1, .one, false, [⟨"BADREC", 31, 16, .ro, false, 0⟩, ⟨"ISLAND_CLOCK", 1, 1, .ro, false, 0⟩, ⟨"ISLAND_LOSS", 0, 0, .ro, false, 1⟩]⟩,
  ⟨"SAFE_WD_IVL", 0x0e0104, 0x4, 0, 1, .one, false, [⟨"IVL", 31, 0, .ro, false, 0⟩]⟩,
  ⟨"SAFE_RECIPE_SIG", 0x0e0108, 0x4, 0, 1, .one, false, [⟨"SIG", 31, 0, .ro, false, 0⟩]⟩,
  ⟨"SAFE_AXMAP", 0x0e0200, 0x4, 0, 260, .one, false, [⟨"DATA", 31, 0, .ro, false, 0⟩]⟩]

def rows0F_0 : List RegRow := [
  ⟨"RED_CFG", 0x0f0000, 0x4, 0, 1, .one, false, [⟨"PAIR", 31, 31, .ro, false, 0⟩, ⟨"SIDE", 30, 30, .ro, false, 0⟩, ⟨"MIRROR_DIV", 29, 24, .ro, false, 0⟩, ⟨"RING", 23, 16, .ro, false, 0⟩, ⟨"PARTNER", 15, 8, .ro, false, 0⟩, ⟨"H", 7, 0, .ro, false, 0⟩]⟩,
  ⟨"RED_STAT", 0x0f0004, 0x4, 0, 1, .one, false, [⟨"EPOCH", 31, 16, .ro, false, 0⟩, ⟨"P_STATE", 15, 12, .ro, false, 0⟩, ⟨"STATE", 11, 8, .ro, false, 0⟩, ⟨"ROLE", 7, 4, .ro, false, 0⟩]⟩,
  ⟨"RED_HB_DUE", 0x0f0008, 0x4, 0, 1, .one, false, [⟨"P_EPOCH", 31, 16, .ro, false, 0⟩, ⟨"HB_DUE", 15, 0, .ro, false, 0⟩]⟩,
  ⟨"RED_HEALTH", 0x0f000c, 0x4, 0, 1, .one, false, [⟨"OWN", 31, 0, .ro, false, 0⟩]⟩,
  ⟨"RED_PHEALTH", 0x0f0010, 0x4, 0, 1, .one, false, [⟨"PARTNER", 31, 0, .ro, false, 0⟩]⟩,
  ⟨"RED_GRID", 0x0f0014, 0x4, 0, 1, .one, false, [⟨"MEAN", 31, 0, .ro, false, 0⟩]⟩,
  ⟨"RED_CTL", 0x0f0018, 0x4, 0, 1, .one, true, [⟨"HANDOFF", 0, 0, .wo, true, 0⟩]⟩,
  ⟨"RED_EVT", 0x0f001c, 0x4, 0, 1, .one, false, [⟨"HANDOFF", 7, 7, .w1c, false, 0⟩, ⟨"DIVERGE", 6, 6, .w1c, false, 0⟩, ⟨"MISMATCH", 5, 5, .w1c, false, 0⟩, ⟨"READY", 4, 4, .w1c, false, 0⟩, ⟨"NOT_READY", 3, 3, .w1c, false, 0⟩, ⟨"SPLIT", 2, 2, .w1c, false, 0⟩, ⟨"PARTNER_LOST", 1, 1, .w1c, false, 0⟩, ⟨"TAKEOVER", 0, 0, .w1c, false, 0⟩]⟩,
  ⟨"RED_MISS_LL", 0x0f0020, 0x4, 0, 1, .one, false, [⟨"COUNT", 31, 0, .rc, false, 0⟩]⟩,
  ⟨"RED_MISS_HBT", 0x0f0024, 0x4, 0, 1, .one, false, [⟨"COUNT", 31, 0, .rc, false, 0⟩]⟩,
  ⟨"RED_DIVERGE", 0x0f0028, 0x4, 0, 1, .one, false, [⟨"COUNT", 31, 0, .rc, false, 0⟩]⟩,
  ⟨"RED_LATE", 0x0f002c, 0x4, 0, 1, .one, false, [⟨"COUNT", 31, 0, .rc, false, 0⟩]⟩,
  ⟨"RED_TAKEOVERS", 0x0f0030, 0x4, 0, 1, .one, false, [⟨"COUNT", 31, 0, .rc, false, 0⟩]⟩,
  ⟨"RED_TK_NS", 0x0f0034, 0x4, 0, 1, .lower, false, [⟨"NS", 31, 0, .ro, false, 3⟩]⟩,
  ⟨"RED_TK_SEC", 0x0f0038, 0x4, 0, 1, .upper, false, [⟨"SEC", 31, 0, .ro, false, 0⟩]⟩]

def rows10_0 : List RegRow := [
  ⟨"ACQ_CTL", 0x100000, 0x4, 0, 1, .one, false, [⟨"REFUSE", 15, 12, .ro, false, 0⟩, ⟨"FORCE", 2, 2, .wo, false, 0⟩, ⟨"STOP", 1, 1, .wo, false, 0⟩, ⟨"ARM", 0, 0, .wo, false, 0⟩]⟩,
  ⟨"ACQ_CFG", 0x100004, 0x4, 0, 1, .one, false, [⟨"AUTOARM", 7, 7, .ro, false, 0⟩, ⟨"NSEG_LOG2", 6, 4, .rw, false, 0⟩, ⟨"RING", 3, 3, .rw, false, 0⟩, ⟨"AUTO", 2, 2, .rw, false, 0⟩, ⟨"MODE", 1, 0, .rw, false, 0⟩]⟩,
  ⟨"ACQ_RATE", 0x100008, 0x4, 0, 1, .one, false, [⟨"OFS", 31, 16, .rw, false, 0⟩, ⟨"DIV", 15, 0, .rw, false, 0⟩]⟩,
  ⟨"ACQ_PRE", 0x10000c, 0x4, 0, 1, .one, false, [⟨"PRE", 31, 0, .rw, false, 0⟩]⟩,
  ⟨"ACQ_POST", 0x100010, 0x4, 0, 1, .one, false, [⟨"POST", 31, 0, .rw, false, 0⟩]⟩,
  ⟨"ACQ_TRIG", 0x100014, 0x4, 0, 1, .one, false, [⟨"PROBE", 6, 4, .rw, false, 0⟩, ⟨"KIND", 3, 0, .rw, false, 0⟩]⟩,
  ⟨"ACQ_TRIG_LEVEL", 0x100018, 0x4, 0, 1, .one, false, [⟨"LEVEL", 31, 0, .rw, false, 0⟩]⟩,
  ⟨"ACQ_TRIG_MASK", 0x10001c, 0x4, 0, 1, .one, false, [⟨"MASK", 31, 0, .rw, false, 0xffffffff⟩]⟩,
  ⟨"ACQ_TRIG_NS", 0x100020, 0x4, 0, 1, .lower, false, [⟨"NS_SEC", 31, 0, .rw, false, 3⟩]⟩,
  ⟨"ACQ_TRIG_SEC", 0x100024, 0x4, 0, 1, .upper, false, [⟨"NS_SEC", 31, 0, .rw, false, 0⟩]⟩,
  ⟨"ACQ_STAT", 0x100028, 0x4, 0, 1, .one, false, [⟨"RECORDS", 31, 16, .ro, false, 0⟩, ⟨"SEG", 13, 8, .ro, false, 0⟩, ⟨"STATE", 2, 0, .ro, false, 0⟩]⟩,
  ⟨"ACQ_DEAD", 0x10002c, 0x4, 0, 1, .one, false, [⟨"DEAD", 31, 0, .ro, false, 0⟩]⟩,
  ⟨"ACQ_DEAD_MAX", 0x100030, 0x4, 0, 1, .one, false, [⟨"MAX", 31, 0, .rc, false, 0⟩]⟩,
  ⟨"ACQ_MISSED", 0x100034, 0x4, 0, 1, .one, false, [⟨"MISSED", 31, 0, .rc, false, 0⟩]⟩,
  ⟨"ACQ_PRB_CTL", 0x100100, 0x10, 0, 8, .one, false, [⟨"SRC", 31, 8, .rw, false, 0⟩, ⟨"EN", 2, 2, .rw, false, 0⟩, ⟨"KIND", 1, 0, .rw, false, 0⟩]⟩,
  ⟨"ACQ_PRB_MASK", 0x100104, 0x10, 0, 8, .one, false, [⟨"MASK", 31, 0, .rw, false, 0xffffffff⟩]⟩]

def rows11_0 : List RegRow := [
  ⟨"MST_STAT", 0x110000, 0x4, 0, 1, .one, false, [⟨"LAST_TR", 31, 23, .ro, false, 0x1ff⟩, ⟨"RUN", 8, 8, .ro, false, 0⟩, ⟨"CO_SAFE", 7, 7, .ro, false, 0⟩, ⟨"STATE", 5, 0, .ro, false, 0⟩]⟩,
  ⟨"MST_TIMER", 0x110004, 0x4, 0, 1, .one, false, [⟨"TIMER", 31, 0, .ro, false, 0⟩]⟩,
  ⟨"MST_REQ", 0x110008, 0x4, 0, 1, .one, false, [⟨"REQ", 31, 0, .rw, false, 0⟩]⟩,
  ⟨"MST_FLAGS", 0x11000c, 0x4, 0, 1, .one, false, [⟨"FLAGS", 31, 0, .ro, false, 0⟩]⟩,
  ⟨"MST_NOTIFY", 0x110010, 0x4, 0, 1, .one, false, [⟨"VALID", 16, 16, .rc, false, 0⟩, ⟨"CODE", 15, 0, .rc, false, 0⟩]⟩,
  ⟨"MST_FORCE", 0x110014, 0x4, 0, 1, .one, true, [⟨"GO", 6, 6, .wo, true, 0⟩, ⟨"STATE", 5, 0, .wo, true, 0⟩]⟩,
  ⟨"MST_REFUSE", 0x110018, 0x4, 0, 1, .one, false, [⟨"ACTION", 31, 16, .rc, false, 0⟩, ⟨"STATUS", 7, 0, .rc, false, 0⟩]⟩,
  ⟨"MST_CNT_TR", 0x11001c, 0x4, 0, 1, .one, false, [⟨"COUNT", 31, 0, .rc, false, 0⟩]⟩,
  ⟨"MST_CNT_SKIP", 0x110020, 0x4, 0, 1, .one, false, [⟨"COUNT", 31, 0, .rc, false, 0⟩]⟩,
  ⟨"MST_STATES", 0x111000, 0x4, 0, 128, .one, false, [⟨"DATA", 31, 0, .ro, false, 0⟩]⟩,
  ⟨"MST_TRANS", 0x112000, 0x4, 0, 2048, .one, false, [⟨"DATA", 31, 0, .ro, false, 0⟩]⟩,
  ⟨"MST_ACTS", 0x114000, 0x4, 0, 2048, .one, false, [⟨"DATA", 31, 0, .ro, false, 0⟩]⟩]

def rows12_0 : List RegRow := [
  ⟨"HOST_STAT", 0x120000, 0x4, 0, 1, .one, false, [⟨"HELD", 31, 24, .ro, false, 0⟩, ⟨"DONE", 23, 16, .ro, false, 0⟩, ⟨"FREE", 15, 7, .ro, false, 0x100⟩, ⟨"LOCKED", 2, 2, .ro, false, 0⟩, ⟨"ENG_OPEN", 1, 1, .ro, false, 0⟩, ⟨"HRDY", 0, 0, .ro, false, 0⟩]⟩,
  ⟨"HOST_EVT", 0x120004, 0x4, 0, 1, .one, false, [⟨"ENG_CLOSED", 7, 7, .w1c, false, 0⟩, ⟨"REPORT", 6, 6, .w1c, false, 0⟩, ⟨"PAIR", 5, 5, .w1c, false, 0⟩, ⟨"SAFETY", 4, 4, .w1c, false, 0⟩, ⟨"NOTIFY", 3, 3, .ro, false, 0⟩, ⟨"ROLLCALL_FAIL", 2, 2, .w1c, false, 0⟩, ⟨"NO_RECIPE", 1, 1, .ro, false, 0⟩, ⟨"TKT_DONE", 0, 0, .w1c, false, 0⟩]⟩,
  ⟨"HOST_EVT_EN", 0x120008, 0x4, 0, 1, .one, false, [⟨"EN", 7, 4, .rw, false, 0⟩, ⟨"ALWAYS", 3, 1, .ro, false, 7⟩, ⟨"EN", 0, 0, .rw, false, 0⟩]⟩,
  ⟨"HOST_CTL", 0x12000c, 0x4, 0, 1, .one, false, [⟨"FLUSH", 0, 0, .wo, false, 0⟩]⟩,
  ⟨"HOST_ENG_CTL", 0x120010, 0x4, 0, 1, .one, false, [⟨"LOCK", 31, 16, .ro, false, 0⟩, ⟨"CLOSE", 1, 1, .wo, false, 0⟩, ⟨"REQ", 0, 0, .wo, false, 0⟩]⟩,
  ⟨"HOST_ENG_CHAL", 0x120014, 0x4, 0, 1, .one, false, [⟨"CHAL", 31, 0, .ro, false, 0⟩]⟩,
  ⟨"HOST_ENG_RESP", 0x120018, 0x4, 0, 1, .one, false, [⟨"RESP", 31, 0, .wo, false, 0⟩]⟩,
  ⟨"HOST_ENG_STAT", 0x12001c, 0x4, 0, 1, .one, false, [⟨"IDLE", 31, 16, .ro, false, 0⟩, ⟨"FAILS", 7, 4, .ro, false, 0⟩, ⟨"CHAL_OPEN", 0, 0, .ro, false, 0⟩]⟩,
  ⟨"HOST_CNT_NRDY", 0x120020, 0x4, 0, 1, .one, false, [⟨"COUNT", 31, 0, .rc, false, 0⟩]⟩,
  ⟨"HOST_CNT_ABORT", 0x120024, 0x4, 0, 1, .one, false, [⟨"COUNT", 31, 0, .rc, false, 0⟩]⟩,
  ⟨"HOST_CNT_BADOP", 0x120028, 0x4, 0, 1, .one, false, [⟨"COUNT", 31, 0, .rc, false, 0⟩]⟩,
  ⟨"HOST_CNT_REFUSED", 0x12002c, 0x4, 0, 1, .one, false, [⟨"COUNT", 31, 0, .rc, false, 0⟩]⟩,
  ⟨"TKT_STAT", 0x120400, 0x4, 0, 256, .one, false, [⟨"STATE", 31, 29, .ro, false, 0⟩, ⟨"OWNER", 28, 28, .ro, false, 0⟩, ⟨"OP", 23, 16, .ro, false, 0⟩, ⟨"STATUS", 15, 8, .ro, false, 0⟩, ⟨"COUNT", 7, 0, .ro, false, 0⟩]⟩]

def rows13_0 : List RegRow := [
  ⟨"BKG_SCRUB", 0x130000, 0x4, 0, 1, .one, false, [⟨"PASS_MS", 31, 16, .ro, false, 0⟩, ⟨"PASSES", 15, 0, .ro, false, 0⟩]⟩,
  ⟨"BKG_ECC_CORR", 0x130004, 0x4, 0, 1, .one, false, [⟨"CORR", 31, 0, .rc, false, 0⟩]⟩,
  ⟨"BKG_ECC_UNC", 0x130008, 0x4, 0, 1, .one, false, [⟨"UNC", 31, 0, .rc, false, 0⟩]⟩,
  ⟨"BKG_ECC_ADDR", 0x13000c, 0x4, 0, 1, .one, false, [⟨"REGION", 31, 28, .ro, false, 0⟩, ⟨"ADDR", 23, 0, .ro, false, 0⟩]⟩,
  ⟨"BKG_TEMP", 0x130010, 0x4, 0, 1, .one, false, [⟨"NOW", 15, 0, .ro, false, 0⟩]⟩,
  ⟨"BKG_TEMP_MAX", 0x130014, 0x4, 0, 1, .one, false, [⟨"MAX", 15, 0, .rc, false, 0⟩]⟩,
  ⟨"BKG_SUP", 0x130020, 0x4, 0, 5, .one, false, [⟨"MV", 15, 0, .ro, false, 0⟩]⟩,
  ⟨"BKG_CAL", 0x130040, 0x4, 0, 1, .one, false, [⟨"FAULT", 10, 0, .w1c, false, 0⟩]⟩,
  ⟨"BKG_LOG_STAT", 0x130044, 0x4, 0, 1, .one, false, [⟨"QUEUED", 23, 16, .ro, false, 0⟩, ⟨"FAULT", 1, 1, .ro, false, 0⟩, ⟨"BUSY", 0, 0, .ro, false, 0⟩]⟩,
  ⟨"BKG_LOG_SEQ", 0x130048, 0x4, 0, 1, .one, false, [⟨"SEQ", 31, 0, .ro, false, 0⟩]⟩,
  ⟨"BKG_LOG_ERASES", 0x13004c, 0x4, 0, 1, .one, false, [⟨"ERASES", 31, 0, .ro, false, 0⟩]⟩,
  ⟨"BKG_LOG_LOST", 0x130050, 0x4, 0, 1, .one, false, [⟨"LOST", 31, 0, .rc, false, 0⟩]⟩,
  ⟨"BKG_HOURS", 0x130060, 0x4, 0, 1, .one, false, [⟨"MIN", 31, 0, .ro, false, 0⟩]⟩,
  ⟨"BKG_HOT", 0x130064, 0x4, 0, 1, .one, false, [⟨"HOT", 31, 0, .ro, false, 0⟩]⟩,
  ⟨"BKG_POWERUPS", 0x130068, 0x4, 0, 1, .one, false, [⟨"COUNT", 15, 0, .ro, false, 0⟩]⟩,
  ⟨"BKG_HRS_LIM", 0x13006c, 0x4, 0, 1, .one, false, [⟨"LIM", 31, 0, .rw, false, 0⟩]⟩,
  ⟨"BKG_RC_SUM", 0x130100, 0x4, 0, 1, .one, false, [⟨"SEEN", 7, 0, .w1c, false, 0⟩]⟩,
  ⟨"BKG_RC_HOST", 0x130104, 0x4, 0, 1, .one, false, [⟨"HOST", 7, 0, .rw, false, 0⟩]⟩,
  ⟨"BKG_RC_LAST", 0x130108, 0x4, 0, 1, .one, false, [⟨"CODE", 15, 0, .ro, false, 0⟩]⟩,
  ⟨"BKG_RC_LAST_NS", 0x13010c, 0x4, 0, 1, .lower, false, [⟨"NS_SEC", 31, 0, .ro, false, 3⟩]⟩,
  ⟨"BKG_RC_LAST_SEC", 0x130110, 0x4, 0, 1, .upper, false, [⟨"NS_SEC", 31, 0, .ro, false, 0⟩]⟩,
  ⟨"BKG_RC_CNT", 0x130140, 0x4, 0, 11, .one, false, [⟨"COUNT", 31, 0, .rc, false, 0⟩]⟩]

/-- The rows of one 64 KiB block of the host address space (Table 01-1 gives the bases). -/
def rowsOf : Nat → List RegRow
  | 0x00 => rows00_0
  | 0x01 => rows01_0
  | 0x02 => rows02_0
  | 0x03 => rows03_0
  | 0x04 => rows04_0
  | 0x05 => rows05_0
  | 0x08 | 0x09 => rows08_0 ++ rows08_1 ++ rows08_2
  | 0x0A => rows0A_0
  | 0x0B => rows0B_0
  | 0x0C => rows0C_0
  | 0x0D => rows0D_0
  | 0x0E => rows0E_0
  | 0x0F => rows0F_0
  | 0x10 => rows10_0
  | 0x11 => rows11_0
  | 0x12 => rows12_0
  | 0x13 => rows13_0
  | _ => []

/-- The row holds a register at byte address `a`. -/
def RegRow.holds (r : RegRow) (a : Nat) : Bool :=
  r.base + r.stride * r.first ≤ a && (a - r.base) % r.stride == 0 && (a - r.base) / r.stride < r.last

/-- The register page entry of byte address `a`, if a register stands there. -/
def regRow? (a : Nat) : Option RegRow := (rowsOf (a / 65536)).find? (fun r => r.holds a)

/-- The bits of a register that the fields with a property cover. -/
def RegRow.mask (r : RegRow) (p : FieldRow → Bool) : Nat :=
  ((r.fields.filter p).map (fun f => (2 ^ (f.hi + 1 - f.lo) - 1) * 2 ^ f.lo)).foldl (· + ·) 0

/-- The bits of the word at `a` that are not reserved (R4): the fields of its page, and in a task descriptor those of Table 09-2. -/
def definedBits (a : Nat) : Nat :=
  match regRow? a with
  | none => 2 ^ 32 - 1
  | some r =>
    if 0x48000 ≤ a ∧ a < 0x50000 then
      (match a % 32 with
       | 0 => 0xFFFFFFFC
       | 12 | 16 => 0xFFFFFFF0
       | _ => 0xFFFFFFFF)
    else r.mask (fun _ => true)

/-- The word the fields' reset values spell. -/
def resetWord (fs : List FieldRow) : Nat := (fs.map (fun f => f.reset * 2 ^ f.lo)).foldl (· + ·) 0

/-- What a register reads as after reset, before any step has written it. -/
def regReset (a : Nat) : Word :=
  match regRow? a with
  | some r => BitVec.ofNat 32 (resetWord r.fields)
  | none => 0

end Sys2Proof.Machine
end

