-- ==== Sys2Proof/Machine/Head.lean ====
section
/-! DEFINITION. The head as plain data: the register store, the shadows and latches of R6 and R7, and the parts of every
block; its value right after a reset; the operations on registers, counters, stamps and events that every command uses. -/

namespace Sys2Proof.Machine

/-- The head (everything a reset of R54 clears). `now` counts ticks since the main PLL locked; `regs` holds every register
by its byte address; `latches` and `holds` are those of R7, keyed by the address of the lower word; `shadows` are the
writes that wait for the next Bell edge (R6), oldest first; `draws` counts the free values taken; `ecc` are the addresses of
words with an uncorrectable error that their owner has not written since (R449). -/
structure Head where
  now : Nat
  regs : Tbl Word
  latches : Tbl (Option Word)
  holds : Tbl (Option Word)
  shadows : List (Nat × Word)
  draws : Nat
  pins : Pins
  boot : Boot
  bell : Bell
  time : TimeUnit
  net : Net
  sched : Sched
  engines : Vector Engine 16
  mailbox : Tbl W24
  axes : Tbl Axis
  motion : Tbl Motion
  vms : Vector Vm 8
  follow : Tbl Follow
  encs : Vector Enc 4
  caps : Vector Capture 8
  cams : Tbl Word
  loops : Tbl Loop
  mst : Mst
  dcb : Tbl Dcb
  core : SafeCore
  red : Red
  acq : Acq
  host : HostPort
  log : Log
  ecc : List Nat
  deriving DecidableEq, Repr

/-! ## Right after reset -/

/-- A word of an unlisted key of a table of words. -/
def zeroWord (_ : Nat) : Word := 0
def zero24 (_ : Nat) : W24 := 0

def Boot.initial : Boot :=
  { dir := none, hl := none, hostImage := none, reload := .none, recipe := none, held := false, flop := none,
    dirOp := none, keyData := [], trimStage := [], keyTried := false, attempt := 0, want := 0 }

def Scale.initial : Scale := ⟨0, 0, 0, 0, 0, 0⟩

def Bell.initial : Bell :=
  { running := false, rollcall := false, instant := 0, edge := 0, prevInstant := 0, prevEdge := 0, prevRollcall := false, first := true, longLeft := 0, flags := 0,
    firstCyclic := none, cyclicCount := 0, gatesOff := false }

def Trigger.initial : Trigger :=
  { armed := false, late := false, domain := 0, time := 0, pulseEnd := none, unread := false }

def Steering.initial : Steering :=
  { stamps := [], integral := 0, offset := 0, fNext := none, keptRun := 0, lostRun := 0, clampRun := 0, handover := [],
    stepPending := none, readDue := false, stepTries := 0, linkDelay := 0, linkSamples := [], linkRetook := false,
    syncArrival := none, followSrc := none, syncEven := 0, latch := none, keptAt := 0, moved := false, started := false }

def TimeUnit.initial : TimeUnit :=
  { mt := .initial, lt := .initial, steer := .initial, trg := Vector.replicate 4 .initial, ppsHigh := none, ppsLast := 0,
    wdLevel := false }

def Lane.initial : Lane :=
  { enabled := false, aligned := false, eqSettled := false, bells := 0, banks := [], lastBroken := false, echoBell := none }

def SlotTx.initial (_ : Nat) : SlotTx := { payload := [], committed := false, commitAt := 0, before := ([], false), history := [] }

def Report.initial : Report := { payload := [], bell := 0, tick := 0, valid := false, sampled := 0 }

def Node.initial (_ : Nat) : Node :=
  { resync := .none, lost := false, rejoin := false, samples := [], retook := false, drifts := [], edges := [], crcs := [],
    edgeWarnAt := none, missRun := 0, missA := 0, missB := 0, seenThisBell := false, seenA := false, seenB := false, badA := false, badB := false, split := [], failedProb := 0,
    probDrift := false, probEdges := 0, probMiss := 0, limp := 0, limpNext := 0, slotsOut := false, inputs := [],
    stale := true, report := .initial, descriptor := [], half := [], record := [], configLeft := [], rawsw := 0,
    detainPending := false, judged := false, matched := false }

def RcLane.initial : RcLane :=
  { step := .ended, pos := 0, hop := 0, hold := 0, uid := 0, seq := 0, sent := false, sentAt := 0, repeats := 0,
    silent := 0, samples := [], retook := false, delay := 0, prevDelay := 0, prevFwd := 0, held := none, reading := false }

def RollCall.initial : RollCall :=
  { active := false, requested := false, byRequest := false, first := true, bells := 0, lanes := Vector.replicate 8 .initial, startsLeft := 0,
    restartAt := none }

def Net.initial : Net :=
  { lanes := Vector.replicate 10 .initial, tx := [], slots := [], nodes := [], waiting := [], flights := [],
    rc := .initial }

def TaskX.initial (_ : Nat) : TaskX :=
  { readySince := 0, rels := [], commits := [], discard := false, byNode := false,
    ranOn := none, rxValid := false, rxMiss := 0, latched := false, queued := false }

def Sched.initial : Sched :=
  { tasks := [], order := 0, queues := [], privUsed := Vector.replicate 16 0, load := [], busyNow := 0, cyclicNow := 0,
    routes := [] }

def Engine.initial : Engine :=
  { mode := .idle, k := Vector.replicate 8 0, sum := Vector.replicate 4 0, ap := Vector.replicate 8 0,
    am := Vector.replicate 8 0, ba := Vector.replicate 8 0, ln := Vector.replicate 8 0, lcnt := 0, fl := 0, rnd := 0,
    fidx := 0, tid := 0, axn := 0, bseq := 0, pc := 0, calls := [], loops := [], cache := none, hazard := ⟨[], [], false, false⟩,
    cycles := 0, budget := none, held := false, bench := false, released := false, xWin := (0, 0), yWin := (0, 0), cWin := (0, 0),
    stage := [], dirty := false, mail := [], ctrl := 0, parkTick := 0, prog := [], xRam := [], yRam := [], cRam := [], flawed := [], bad := [] }

def Placement.initial : Placement :=
  { active := false, abort := false, bridge := false, bell := 0, acc := [], amp := 0, reps := [], angle := 0, c0 := 0,
    rs := 0, ld := 0, lq := 0, psi := 0, enc := 0, move := false, spin := false, bad := 0 }

def Axis.initial (_ : Nat) : Axis :=
  { count := 0, lastPos := none, theta := 0, w := 0, catches := [], derived := none, motorData := [], deriving_ := false,
    encFlag := false, fltAck := false, pLast := 0, pStill := 0, newFaults := (0, 0), pt := .initial }

def Ramp.initial : Ramp := ⟨0, 0, 0, false, 0⟩

def Motion.initial (_ : Nat) : Motion :=
  { p := 0, w := 0, valid := false, ramp := .initial, wf := 0, integ := 0, preset := false, vm := 0, pm := 0, modelRun := 0, feRun := 0,
    pRef := 0, v := 0, aff := 0, vcmd := 0, queue := [], pushed := [], run := none, remain := none, stop := none,
    halted := 0, limited := false, posSet := none, posOffset := 0, yPrev := 0,
    level := 0, still := 0, energise := 0, lossRun := 0, lastPRef := 0, limitDir := 0, owed := none }

def Vm.initial : Vm :=
  { m := 0, v := 0, a := 0, ramp := .initial, running := false, dec := 0, stopAt := none, remainder := 0, lastSrc := 0,
    pub := none, pubSeq := 0, unsent := false, loose := false, resync := false, holdover := none, lost := false,
    istop := false, pending := 0 }

def Follow.initial (_ : Nat) : Follow :=
  { phi := 0, remainder := 0, lastM := 0, dphi := 0, cam := none, pendCam := none, camAtEdge := none,
    kappa := 0, wraps := 0, adj := 0, switched := false, ended := false, trigger := none, request := 0, reqStamp := 0,
    pend := 0, markSeen := false, marks := [], owedPhi := 0, owedAdj := 0 }

def Enc.initial : Enc :=
  { a := false, b := false, revRun := 0, lastEdge := none, lastB := none, bBefore := false, edges := [], dirNow := false,
    window := [], extLatched := 0, dirRaised := false, interval := false }

def Capture.initial : Capture := ⟨[], none, none⟩

def Loop.initial (_ : Nat) : Loop :=
  { e := [0, 0, 0, 0], u := [0, 0, 0, 0], spAct := 0, pvs := 0, sum := 0, cnt := 0, ym := 0, res := 0,
    delay := List.replicate 64 0, delayAt := 0, noReport := 0, resRun := 0, devOut := false, out := 0, en := false
    coef := [0, 0, 0, 0, 0, 0, 0], form := 0, ks := 0, commit := none, model := [0, 0, 0, 0], modelNew := false, request := none
    owed := none, chStat := 0, tune := none, abortTune := false, fit := none }

def Mst.initial : Mst := ⟨[], none, false, 0, 0⟩

def Dcb.initial (_ : Nat) : Dcb := ⟨[], 0, none, false, false⟩

def SafeCore.initial : SafeCore :=
  { codes := [2, 2, 2, 2], lastChange := none, badIvl := 0, badRec := 0, soundSince := none, still := [0, 0, 0, 0] }

def Red.initial : Red :=
  { newest := none, heardLL := false, heardLLPrev := false, heardPin := false, heardPinPrev := false, quietLL := none,
    quietPin := none, checkedBell := none, listenUntil := none, claimUntil := none, claimRival := none,
    backoffUntil := none, lostUntil := none, claimAtEdge := false, yieldAtEdge := false, handoffBell := none,
    sync := none, join := [], latches := [], waiting := [], fresh := [], grid := [], gridSum := 0, gridCnt := 0, lastDiverge := none,
    identOk := false, writesOut := [], inbox := [], pinEarly := false, lastBeat := [], timeState := [], lineSeq := 0
    reloadOut := none }

def Acq.initial : Acq :=
  { mem := [], armPending := false, force := false, armBell := 0, wr := 0, stored := 0, samples := 0, postLeft := 0,
    start := 0, trigPos := 0, trigStamp := 3, cause := 0, noTrig := false, trunc := false, full := false,
    last := List.replicate 8 none, prev := none, dtBase := 0, snapWord := 0, turned := 0, deadFrom := none, dead := 0, seq := 0,
    events := [], thenDone := false }

def Ticket.initial (_ : Nat) : Ticket :=
  { state := 0, head := false, op := 0, status := 0, count := 0, data := [], shadow := false, idx := 0, req := none }

def HostPort.initial : HostPort :=
  { tickets := [], free := List.range 256, reserved := none, fifo := [], up := false, chalTick := none, lockFrom := none,
    idleFrom := 0, driven := [], last := 0 }

def Log.initial : Log :=
  { buf := [], sector := 0, used := 0, seq := 0, ready := false, skip := 0, resumed := false, epoch := 0, claimed := false,
    lastCheckpoint := 0, minuteMs := 0, hotMs := 0, railRuns := [0, 0, 0, 0, 0], warm := false, hot := false, scrubStart := 0,
    scrubCorr := 0, adcCorr := List.replicate 8 (0, 0), laneCorr := List.replicate 10 (0, 0), laneNext := List.replicate 10 (0, 0) }

/-- The head right after a reset (R32, R34, R54). -/
def Head.initial : Head :=
  { now := 0, regs := [], latches := [], holds := [], shadows := [], draws := 0,
    pins := ⟨false, false⟩, boot := .initial, bell := .initial, time := .initial, net := .initial,
    sched := .initial, engines := Vector.replicate 16 .initial, mailbox := [], axes := [], motion := [],
    vms := Vector.replicate 8 .initial, follow := [], encs := Vector.replicate 4 .initial,
    caps := Vector.replicate 8 .initial, cams := [], loops := [], mst := .initial, dcb := [], core := .initial,
    red := .initial, acq := .initial, host := .initial, log := .initial, ecc := [] }

/-! ## Registers -/

/-- The word a register holds. -/
def Head.rd (h : Head) (a : Nat) : Nat := (h.regs.get regReset a).toNat

/-- Put a word into a register; the owner's write mends a word with an uncorrectable error (R449). -/
def Head.wr (h : Head) (a v : Nat) : Head :=
  { h with regs := h.regs.set regReset a (BitVec.ofNat 32 v), ecc := h.ecc.erase a }

/-- The value of a field. -/
def Head.fld (h : Head) (f : Fld) : Nat := bits (h.rd f.addr) f.hi f.lo

/-- The field is not 0. -/
def Head.on (h : Head) (f : Fld) : Bool := h.fld f != 0

/-- Put a value into a field. -/
def Head.put (h : Head) (f : Fld) (v : Nat) : Head := h.wr f.addr (putBits (h.rd f.addr) f.hi f.lo v)

/-- Put a bit into a field of one bit. -/
def Head.putBit (h : Head) (f : Fld) (b : Bool) : Head := h.put f (b2n b)

/-- Add to a counter of 32 bits, which stays at all ones (R98). -/
def Head.bumpBy (h : Head) (a n : Nat) : Head := h.wr a (min (2 ^ 32 - 1) (h.rd a + n))
def Head.bump (h : Head) (a : Nat) : Head := h.bumpBy a 1

/-- Add to a counter field that saturates. -/
def Head.bumpFld (h : Head) (f : Fld) : Head := h.put f (min (2 ^ (f.hi + 1 - f.lo) - 1) (h.fld f + 1))

/-- Add to a counter field that wraps. -/
def Head.wrapFld (h : Head) (f : Fld) : Head := h.put f (h.fld f + 1)

/-- OR bits into a register. -/
def Head.orReg (h : Head) (a v : Nat) : Head := h.wr a (bor (h.rd a) v)

/-- A value of two words, lower word first (R7). -/
def Head.rdPair (h : Head) (a : Nat) : Nat := pairOf (h.rd a) (h.rd (a + 4))
def Head.wrPair (h : Head) (a v : Nat) : Head := (h.wr a (v % 2 ^ 32)).wr (a + 4) (v / 2 ^ 32 % 2 ^ 32)

/-- A signed value of two words. -/
def Head.rdSigned (h : Head) (a : Nat) : Int := sext 64 (h.rdPair a)
def Head.wrSigned (h : Head) (a : Nat) (v : Int) : Head := h.wrPair a (toBits 64 v)

/-- The value a register will hold after the shadows that wait, or the one in force. -/
def Head.pendingRd (h : Head) (a : Nat) : Nat :=
  match (h.shadows.filter (fun e => e.1 == a)).getLast? with
  | some e => e.2.toNat
  | none => h.rd a

/-- A signed register of 32 bits. -/
def Head.rdInt (h : Head) (a : Nat) : Int := sext 32 (h.rd a)
def Head.wrInt (h : Head) (a : Nat) (v : Int) : Head := h.wr a (toBits 32 (satInt 32 v))

/-- A signed Q1.23 value in bits [31:8]. -/
def Head.rdQ (h : Head) (a : Nat) : Int := sext 24 (bits (h.rd a) 31 8)
def Head.wrQ (h : Head) (a : Nat) (v : Int) : Head := h.wr a (toBits 24 (satInt 24 v) * 256)

/-- Add a write to the shadows of R6; of two writes to one register the last counts (Tables 14-5 and 19-8). -/
def Head.shadow (h : Head) (a v : Nat) : Head :=
  { h with shadows := h.shadows.filter (fun e => e.1 != a) ++ [(a, BitVec.ofNat 32 v)] }

/-! ## Parts -/

def Head.axis (h : Head) (n : Nat) : Axis := h.axes.get Axis.initial n
def Head.setAxis (h : Head) (n : Nat) (f : Axis → Axis) : Head := { h with axes := h.axes.modify Axis.initial n f }
def Head.mot (h : Head) (n : Nat) : Motion := h.motion.get Motion.initial n
def Head.setMot (h : Head) (n : Nat) (f : Motion → Motion) : Head := { h with motion := h.motion.modify Motion.initial n f }
def Head.fol (h : Head) (n : Nat) : Follow := h.follow.get Follow.initial n
def Head.setFol (h : Head) (n : Nat) (f : Follow → Follow) : Head := { h with follow := h.follow.modify Follow.initial n f }
def Head.loop (h : Head) (i : Nat) : Loop := h.loops.get Loop.initial i
def Head.setLoop (h : Head) (i : Nat) (f : Loop → Loop) : Head := { h with loops := h.loops.modify Loop.initial i f }
def Head.node (h : Head) (s : Nat) : Node := h.net.nodes.get Node.initial s
def Head.setNode (h : Head) (s : Nat) (f : Node → Node) : Head :=
  { h with net := { h.net with nodes := h.net.nodes.modify Node.initial s f } }
def Head.group (h : Head) (g : Nat) : Dcb := h.dcb.get Dcb.initial g
def Head.setGroup (h : Head) (g : Nat) (f : Dcb → Dcb) : Head := { h with dcb := h.dcb.modify Dcb.initial g f }
def Head.task (h : Head) (t : Nat) : TaskX := h.sched.tasks.get TaskX.initial t
def Head.setTask (h : Head) (t : Nat) (f : TaskX → TaskX) : Head :=
  { h with sched := { h.sched with tasks := h.sched.tasks.modify TaskX.initial t f } }
def Head.slot (h : Head) (k : Nat) : SlotTx := h.net.slots.get SlotTx.initial k
def Head.setSlot (h : Head) (k : Nat) (f : SlotTx → SlotTx) : Head :=
  { h with net := { h.net with slots := h.net.slots.modify SlotTx.initial k f } }
def Head.vm (h : Head) (v : Nat) : Vm := h.vms.toList.getD v .initial
def Head.setVm (h : Head) (v : Nat) (f : Vm → Vm) : Head := { h with vms := h.vms.mapFinIdx (fun i x _ => if i = v then f x else x) }
def Head.enc (h : Head) (k : Nat) : Enc := h.encs.toList.getD k .initial
def Head.setEnc (h : Head) (k : Nat) (f : Enc → Enc) : Head := { h with encs := h.encs.mapFinIdx (fun i x _ => if i = k then f x else x) }
def Head.cap (h : Head) (k : Nat) : Capture := h.caps.toList.getD k .initial
def Head.setCap (h : Head) (k : Nat) (f : Capture → Capture) : Head := { h with caps := h.caps.mapFinIdx (fun i x _ => if i = k then f x else x) }
def Head.engine (h : Head) (e : Nat) : Engine := h.engines.toList.getD e .initial
def Head.setEngine (h : Head) (e : Nat) (f : Engine → Engine) : Head :=
  { h with engines := h.engines.mapFinIdx (fun i x _ => if i = e then f x else x) }
def Head.lane (h : Head) (n : Nat) : Lane := h.net.lanes.toList.getD n .initial
def Head.setLane (h : Head) (n : Nat) (f : Lane → Lane) : Head :=
  { h with net := { h.net with lanes := h.net.lanes.mapFinIdx (fun i x _ => if i = n then f x else x) } }
def Head.ticket (h : Head) (t : Nat) : Ticket := h.host.tickets.get Ticket.initial t
def Head.setTicket (h : Head) (t : Nat) (f : Ticket → Ticket) : Head :=
  { h with host := { h.host with tickets := h.host.tickets.modify Ticket.initial t f } }

/-- A unit mailbox word of axis `n` at X address 0xE100 + `o` (Table 10-7, Table 11-2, Table 12-4). -/
def Head.mail (h : Head) (n o : Nat) : Nat := (h.mailbox.get zero24 (256 * n + o)).toNat
def Head.setMail (h : Head) (n o v : Nat) : Head :=
  { h with mailbox := h.mailbox.set zero24 (256 * n + o) (BitVec.ofNat 24 v) }

/-- A 48-bit value in two mailbox words, bits [47:24] first (Table 11-2). -/
def Head.mailLong (h : Head) (n o : Nat) : Int := sext 48 (h.mail n o * 2 ^ 24 + h.mail n (o + 1))
def Head.setMailLong (h : Head) (n o : Nat) (v : Int) : Head :=
  let x := toBits 48 v
  (h.setMail n o (x / 2 ^ 24)).setMail n (o + 1) (x % 2 ^ 24)

/-- The contents of the recipe in force. -/
def Head.content? (h : Head) : Option Content := h.boot.recipe.map (·.content)

/-! ## Time -/

/-- A scale's value at a tick, in units of 2^-32 ns. -/
def Scale.at (s : Scale) (t : Nat) : Nat :=
  if s.tick ≤ t then (s.base + (t - s.tick : Nat) * (5 * 2 ^ 32 + s.f)).toNat
  else (s.prevBase + ((t : Int) - s.prevTick) * (5 * 2 ^ 32 + s.prevF)).toNat

/-- What the scale would read at tick `t` had its last change not come. -/
def Scale.old (s : Scale) (t : Nat) : Nat := (s.prevBase + ((t : Int) - s.prevTick) * (5 * 2 ^ 32 + s.prevF)).toNat

/-- The first tick at which a scale reaches or passes a value in units of 2^-32 ns (R19). -/
def Scale.tickOf (s : Scale) (x : Nat) : Nat :=
  if x ≤ s.base then s.tick else s.tick + ceilDiv (x - s.base) (5 * 2 ^ 32 + s.f).toNat

/-- The scale continued from tick `t` with F. -/
def Scale.setF (s : Scale) (t : Nat) (f : Int) : Scale :=
  if s.tick = t then { s with f := f } else { tick := t, base := s.at t, f := f, prevTick := s.tick, prevBase := s.base, prevF := s.f }

/-- The scale set to a value at tick `t`. -/
def Scale.setTo (s : Scale) (t x : Nat) : Scale :=
  if s.tick = t then { s with base := x } else { tick := t, base := x, f := s.f, prevTick := s.tick, prevBase := s.base, prevF := s.f }

/-- A scale's value at a tick in whole ns. -/
def Scale.ns (s : Scale) (t : Nat) : Nat := s.at t / 2 ^ 32

/-- A time-stamp word of R8 from whole ns and a domain: seconds, nanoseconds, domain. -/
def stampOf (ns dom : Nat) : Nat := ns / 10 ^ 9 % 2 ^ 32 * 2 ^ 32 + ns % 10 ^ 9 * 4 + dom

/-- Machine Time has been stepped on (R161). -/
def Head.stepped (h : Head) : Bool := h.on TIME_MT_STAT_STEPPED

/-- Machine Time is in use: it has been stepped, it starts without a step (R161), or nothing will ever step it (REF_MODE 2). -/
def Head.mtInUse (h : Head) : Bool :=
  h.stepped || h.fld TIME_MT_STAT_STATE != 0 || (h.fld TIME_MT_CTL_REF_MODE == 2 && h.fld RED_STAT_ROLE != 2)

/-- The stamp of a tick: Machine Time, or the free-running scale before the step (Table 07-1, R169). -/
def Head.stampAt (h : Head) (t : Nat) : Nat :=
  if h.mtInUse then stampOf (h.time.mt.ns t) 0 else stampOf (5 * t) 2
def Head.stamp (h : Head) : Nat := h.stampAt h.now

/-- The tick of an instant of the Bell in progress, in ticks from its edge (R19). -/
def Head.instantTick (h : Head) (off : Nat) : Nat := h.time.mt.tickOf ((h.bell.instant + 5 * off) * 2 ^ 32)

/-- Machine Time now in ns. -/
def Head.mtNs (h : Head) : Nat := h.time.mt.ns h.now

/-- Bring the clock forward to a tick; it never goes back. -/
def Head.forward (h : Head) (t : Nat) : Head := if h.now < t then { h with now := t } else h

/-- BELL_TICKS of the recipe in force; 25,000 in Roll Call Bells and without a recipe (R131). -/
def Head.bellTicks (h : Head) : Nat :=
  match h.boot.recipe with
  | some r => if r.bellTicks = 0 then 1 else r.bellTicks
  | none => 25000

/-- The Bell number, TIME_BELL_CNT. -/
def Head.bellNo (h : Head) : Nat := h.rd TIME_BELL_CNT

/-- Bells of this recipe per whole number of ms, rounded up. -/
def Head.bellsOfMs (h : Head) (ms : Nat) : Nat := ceilDiv (ms * 200000) h.bellTicks

/-! ## Events and the log -/

/-- Records of the log that a full buffer still takes: resets and epoch claims (R453). -/
def logReserved (typ : Nat) : Bool := typ == 1 || typ == 2

/-- An event code (Table 14-2). -/
def evCode (cls sub idx : Nat) : Nat := cls % 16 * 4096 + sub % 16 * 256 + idx % 256

/-- An event reaches the Report Card and the host's causes (R456, Table 19-5). -/
def Head.report (h : Head) (cls sub e : Nat) : Head :=
  let h := ((h.put BKG_RC_LAST_CODE e).wrPair BKG_RC_LAST_NS h.stamp).bump (BKG_RC_CNT cls)
  let h := if cls = 9 then h.orReg BKG_RC_SUM (2 ^ sub) else h
  let h := if cls = 9 ∧ bit (h.rd BKG_RC_HOST) sub then h.put HOST_EVT_REPORT 1 else h
  if cls = 7 then h.put HOST_EVT_SAFETY 1 else h

/-- An event reaches the table's snapshot. -/
def Head.tell (h : Head) (e : Nat) : Head :=
  { h with mst := { h.mst with events := if e ∈ h.mst.events then h.mst.events else h.mst.events ++ [e] } }

/-- An event reaches the table's and the acquisition engine's snapshots. -/
def Head.signal (h : Head) (e : Nat) : Head :=
  { h.tell e with acq := { h.acq with events := if e ∈ h.acq.events then h.acq.events else h.acq.events ++ [e] } }

/-- A record that the full buffer does not take: counted, with LOG_LOST to the table and the Report Card (R453). -/
def Head.logLost (h : Head) : Head := ((h.bump BKG_LOG_LOST).report 9 5 (evCode 9 5 0)).signal (evCode 9 5 0)

/-- A waiting record of the same event within a second. -/
def LogRec.repeats (r : LogRec) (typ code now : Nat) : Bool :=
  typ == 0 && r.typ == 0 && r.code == code && decide (now < r.tick + 200000000)

/-- The buffer with one more record. -/
def Head.logPut (h : Head) (r : LogRec) : Head :=
  { h with log := { h.log with buf := h.log.buf ++ [r] } }.put BKG_LOG_STAT_QUEUED (h.log.buf.length + 1)

/-- The buffer with the repetition counted at the record it repeats. -/
def Head.logRepeat (h : Head) (typ code : Nat) : Head :=
  { h with log := { h.log with buf := h.log.buf.map (fun r => if r.repeats typ code h.now then { r with rep := min 65535 (r.rep + 1) } else r) } }

/-- Add a record to the buffer, or count it as lost; a repetition within a second is counted at the record it repeats (R453). -/
def Head.logAdd (h : Head) (typ code data0 data1 : Nat) : Head :=
  if h.log.buf.any (fun r => r.repeats typ code h.now) then h.logRepeat typ code
  else if h.log.buf.length < (if logReserved typ then 64 else 56) then h.logPut ⟨typ, h.stamp, code, 0, data0, data1, h.now⟩
  else h.logLost

/-- Classes that the log records (R453). -/
def loggedClass (c : Nat) : Bool := [0, 1, 3, 6, 7, 9, 10].contains c

/-- Raise an event to the Machine State Table and the Report Card (R329, R453, R456, Table 19-5). -/
def Head.raise (h : Head) (cls sub idx : Nat) : Head :=
  let e := evCode cls sub idx
  let h := (h.signal e).report cls sub e
  if loggedClass cls then h.logAdd 0 e 0 0 else h

/-- Raise an event that names more than its code holds: the log record's data carries it. -/
def Head.raiseWith (h : Head) (cls sub idx data : Nat) : Head :=
  let e := evCode cls sub idx
  let h := (h.signal e).report cls sub e
  if loggedClass cls then h.logAdd 0 e data 0 else h

/-- Set a fault bit of an axis and raise its event when it is new (R250). -/
def Head.axisFault (h : Head) (n k : Nat) : Head :=
  if bit (h.rd (AX_FAULT n)) k then h
  else
    let h := h.setAxis n (fun x => { x with
      newFaults := (h.now, setBit (if x.newFaults.1 = h.now then x.newFaults.2 else 0) k) })
    (h.orReg (AX_FAULT n) (2 ^ k)).raise 1 k n

/-- Clear a fault bit of an axis. -/
def Head.axisClear (h : Head) (n k : Nat) : Head := h.wr (AX_FAULT n) (clearBit (h.rd (AX_FAULT n)) k)

/-- The fault bits of an axis. -/
def Head.faults (h : Head) (n : Nat) : Nat := h.rd (AX_FAULT n)

/-- Set a bit of RED_EVT, raise its class 0xA event and the PAIR cause (Table 19-5). -/
def Head.redEvent (h : Head) (k : Nat) : Head := ((h.orReg RED_EVT (2 ^ k)).put HOST_EVT_PAIR 1).raise 10 k 0

/-! ## What the recipe says -/

/-- The recipe's record of a station. -/
def Head.station? (h : Head) (s : Nat) : Option StationCfg :=
  match h.content? with
  | some c => c.stations.find? (fun x => x.station == s)
  | none => none

/-- The station that drives an axis. -/
def Head.stationOf (h : Head) (n : Nat) : Option Nat :=
  match h.content? with
  | some c => (c.stations.find? (fun x => x.axes.contains n)).map (·.station)
  | none => none

/-- The axes of a station (R336). -/
def Head.axesOf (h : Head) (s : Nat) : List Nat :=
  match h.station? s with
  | some c => c.axes
  | none => []

/-- The process loops of a station. -/
def Head.loopsOf (h : Head) (s : Nat) : List Nat :=
  match h.station? s with
  | some c => c.loops
  | none => []

/-- The stations of the recipe. -/
def Head.stations (h : Head) : List Nat :=
  match h.content? with
  | some c => c.stations.map (·.station)
  | none => []

/-- Every axis of the recipe. -/
def Head.allAxes (h : Head) : List Nat :=
  match h.content? with
  | some c => c.stations.flatMap (·.axes)
  | none => []

/-- The group an axis belongs to (DCB_AXES). -/
def Head.groupOf (h : Head) (n : Nat) : Option Nat :=
  (List.range 16).find? (fun g => bit (h.rd (DCB_AXES (4 * g + n / 32))) (n % 32))

/-- The axes of a group. -/
def Head.members (h : Head) (g : Nat) : List Nat :=
  (List.range 128).filter (fun n => bit (h.rd (DCB_AXES (4 * g + n / 32))) (n % 32))

/-- The safe output an axis is assigned to, 0xF none (Table 16-9). -/
def Head.axisOut (h : Head) (n : Nat) : Nat := bits (h.rd (SAFE_AXMAP n)) 3 0
/-- The SS1 deceleration of an axis. -/
def Head.axisDec (h : Head) (n : Nat) : Nat := h.rd (SAFE_AXMAP (128 + n))
/-- The safe output a process loop is assigned to. -/
def Head.loopOut (h : Head) (i : Nat) : Nat := bits (h.rd (SAFE_AXMAP (256 + i / 8))) (4 * (i % 8) + 3) (4 * (i % 8))

/-- The stop request code that stands for an axis (R378, R386). -/
def Head.stopCode (h : Head) (n : Nat) : Nat :=
  if h.on SAFE_CORE_ISLAND_LOSS then 2
  else nth h.core.codes (h.axisOut n)

/-- The stop request code of a loop's output. -/
def Head.loopStop (h : Head) (i : Nat) : Nat := nth h.core.codes (h.loopOut i)

/-- The axis is enabled (EN in force). -/
def Head.enabled (h : Head) (n : Nat) : Bool := h.on (AX_CTL_EN n)

/-- Whether the head acts as a Substitute (Table 17-2). -/
def Head.substitute (h : Head) : Bool := h.fld RED_STAT_ROLE == 2

/-- A fault that a Substitute's shadow raises counts as a divergence and is not acted on (R406). -/
def Head.diverge (h : Head) : Head :=
  let h := (h.bump RED_DIVERGE).redEvent 6
  { h with red := { h.red with lastDiverge := some h.bellNo } }

/-- Draw a free value. -/
def Head.draw (h : Head) : Head := { h with draws := h.draws + 1 }

end Sys2Proof.Machine
end

