-- ==== Sys2Proof/Machine/MotionLaw.lean ====
section
/-! DEFINITION. The motion laws of chapter 11: the ramp of R260, the speed and position laws, the move profile, stops and
resumes, the presets of R272, and the stepper law. Positions are raw Q32.16; speeds and accelerations inside the ramps and
the profile have 24 fraction bits (notes/assumptions/32.md). -/

namespace Sys2Proof.Machine

/-! ## The unit mailbox as the running task sees it (R203) -/

/-- Mailbox word 0xE100 + `o` as it stood when the task of engine `e` started. -/
def Head.seen (h : Head) (e o : Nat) : Nat := ((h.engine e).mail.get zero24 o).toNat
/-- A 48-bit value of two such words. -/
def Head.seenLong (h : Head) (e o : Nat) : Int := sext 48 (h.seen e o * 2 ^ 24 + h.seen e (o + 1))

/-! ## Ramps -/

/-- The sign of a number: -1, 0 or 1. -/
def sgn (x : Int) : Int := if x < 0 then -1 else if x = 0 then 0 else 1

/-- One Bell of the ramp of R260 toward `target`. -/
def rampStep (acc dec revHold : Nat) (target : Int) (x : Ramp) : Ramp :=
  let r := x.r
  if r = 0 ∧ sgn target ≠ sgn x.last ∧ x.hold < revHold then { x with hold := x.hold + 1, held := true, acc := 0 }
  else
    let r' :=
      if sgn target = sgn r ∨ r = 0 then
        if target.natAbs > r.natAbs then r + sgn target * (min acc (target.natAbs - r.natAbs) : Nat)
        else r - sgn r * (min dec (r.natAbs - target.natAbs) : Nat)
      else r - sgn r * (min dec r.natAbs : Nat)
    { r := r', last := if r' = 0 then x.last else r', hold := if r' = 0 then x.hold else 0, held := false, acc := r' - r }

/-- The ramp set to a speed that it does not step to (R262, R265, R272); its last sign stays while the speed is 0. -/
def Ramp.jump (x : Ramp) (r : Int) : Ramp :=
  { r := r, last := if r = 0 then x.last else r, hold := if r = 0 then x.hold else 0, held := false, acc := 0 }

/-- Repeat a step for each Bell of a run (R257). -/
def repeatStep {α : Type} (f : α → α) : Nat → α → α
  | 0, x => x
  | n + 1, x => repeatStep f n (f x)

/-! ## Positions -/

/-- A position wrapped as the axis counts it: modulo MOD counts, or modulo 2^32 signed (R9, R266). -/
def wrapPos (modulo : Nat) (x : Int) : Int :=
  if modulo = 0 then sext 48 (toBits 48 x) else x % (modulo * 65536 : Nat)

/-- The difference of two positions, wrapped to half a cycle on a modulo axis (R262). -/
def diffPos (modulo : Nat) (a b : Int) : Int :=
  if modulo = 0 then sext 48 (toBits 48 (a - b))
  else
    let c : Int := (modulo * 65536 : Nat)
    let d := (a - b) % c
    if 2 * d ≥ c then d - c else d

/-- p_ref of a linear axis moves within POS_MIN to POS_MAX (R266): a step from `old` toward `new` ends at the limit; where `old` lies
beyond one it comes no further out. -/
def withinLimits (modulo : Nat) (posMin posMax old new : Int) : Int :=
  if modulo = 0 then max (min (posMin * 65536) old) (min (max (posMax * 65536) old) new) else wrapPos modulo new

/-- The same with the limits of axis `n`. -/
def Head.keepRef (h : Head) (n : Nat) (old new : Int) : Int :=
  withinLimits (h.rd (AX_MODULO n)) (h.rdInt (AX_POS_MIN n)) (h.rdInt (AX_POS_MAX n)) old new

/-- A speed of 24 fraction bits as Q16.16. -/
def speed16 (v : Int) : Int := satInt 32 (v / 256)

/-- The stepper axes (R274): the station's command kind is 0x3. -/
def Head.isStepper (h : Head) (n : Nat) : Bool :=
  match h.content? with
  | some c => (c.stations.find? (fun x => x.axes.contains n)).any (fun x => bits (wordAt x.record 0) 15 12 == 3)
  | none => false

/-- The axis has an encoder: its node declares CAPS[4] (Table 15-2). -/
def Head.hasEncoder (h : Head) (n : Nat) : Bool :=
  match h.stationOf n with
  | some s => bit (wordAt (h.node s).descriptor 0) 4
  | none => false

/-- What MSTATE reads (AX_MSTAT, R265, R270, R276, R297). -/
def Head.mstate (h : Head) (n : Nat) : Nat :=
  let m := h.mot n
  if h.rd (AX_MFAULT n) ≠ 0 then 4
  else if m.stop.isSome ∨ m.run.any (fun r => r.halt.isSome) then 2
  else if m.halted ≠ 0 then 3
  else if m.run.isSome then 1
  else if h.fld (AX_CTL_CTRL n) = 3 ∧ h.fld (AX_FOL_STAT_CLU n) ≠ 0 then 1
  else if m.ramp.held then 5
  else if h.isStepper n ∧ m.still > 0 ∧ h.rd (AX_STP_STBY n) ≠ 0 ∧ m.still ≥ h.bellsOfMs (h.rd (AX_STP_STBY n)) then 6
  else 0

/-- Bring the motion registers to what the law holds. -/
def Head.motionShow (h : Head) (n : Nat) : Head :=
  let m := h.mot n
  let rem : Int := (m.remain.map (·.left)).getD 0
  let id := match m.run, m.remain with
    | some r, _ => r.entry.id
    | none, some r => r.entry.id
    | none, none => h.fld (AX_MSTAT_MV_ID n)
  let h := h.wr (AX_MSTAT n) (id * 65536 + (min 15 (m.queue.length)) * 4096 + h.fld (AX_MSTAT_REFD n) * 128 +
    b2n m.remain.isSome * 64 + b2n m.limited * 32 + h.mstate n)
  let h := h.wrInt (AX_MV_REMAIN n) (rem / 65536)
  let h := h.wrSigned (AX_POS_REF_LO n) m.pRef
  let h := h.wrSigned (AX_POS_ACT_LO n) m.p
  let h := h.wrInt (AX_SPD_ACT n) m.wf
  let h := h.wrInt (AX_SPD_CMD n) (speed16 m.ramp.r)
  h.wrInt (AX_FE_ACT n) (diffPos (h.rd (AX_MODULO n)) m.pRef m.p / 65536)

/-! ## Moves (R267 to R271) -/

/-- The signed distance an entry travels from `pos` (R268; the direction of a modulo move is DIRM's). -/
def entryLeft (modulo : Nat) (pos : Int) (x : MoveEntry) : Int :=
  if x.typ = 1 then x.target
  else if modulo = 0 then x.target - pos
  else
    let c : Int := (modulo * 65536 : Nat)
    let d := (x.target - pos) % c
    match x.dirm with
    | 1 => d
    | 2 => if d = 0 then 0 else d - c
    | _ => if 2 * d > c then d - c else d

/-- Start an entry from the present p_ref. -/
def startEntry (modulo : Nat) (pos : Int) (x : MoveEntry) : MoveRun :=
  let l := if x.typ = 2 then 0 else entryLeft modulo pos x
  ⟨x, wrapPos modulo (pos + l), l, none, false, none⟩

/-- Take the next READY entry of the queue. -/
def startNext (modulo : Nat) (m : Motion) : Motion :=
  match m.queue with
  | x :: q => if x.ready.isSome then { m with queue := q, run := some (startEntry modulo m.pRef x), limited := false } else m
  | [] => m

/-- The head of the queue is READY. -/
def Motion.nextReady (m : Motion) : Bool := (m.queue.head?).any (fun x => x.ready.isSome)

/-- The end speed of a position move, taken in its decision Bell (R269). -/
def decideEnd (modulo bell : Nat) (m : Motion) (r : MoveRun) : Int :=
  match m.queue with
  | x :: _ =>
    let s := sgn r.left
    if r.entry.blend ∧ x.ready.any (fun b => b != bell) ∧ x.typ < 2 ∧ sgn (entryLeft modulo r.target x) = s ∧ s ≠ 0 then
      min r.entry.vel x.vel
    else 0
  | [] => 0

/-- Deceleration to `vend` must begin: d ≤ (v² − vend²)/(2·DEC) + v (R268). -/
def mustBrake (d v vend : Int) (dec : Nat) : Bool := decide (2 * (dec : Int) * (d - v) ≤ v * v - vend * vend)

/-- The speed of a decelerating entry in the next Bell: one DEC less while the braking condition holds, the present speed where it has
lapsed; it never comes to rest ahead of the target (R268, notes/assumptions/32.md). -/
def brakeSpeed (d v vend : Int) (dec : Nat) : Int :=
  if !mustBrake d v vend dec then v else if vend = 0 ∧ v ≤ dec then v else max vend (v - dec)

/-- The speed of an entry that does not decelerate yet: toward VEL at ACC, or down to it at DEC. -/
def cruiseSpeed (x : MoveEntry) (v : Int) : Int := if v ≤ x.vel then min x.vel (v + x.acc) else max x.vel (v - x.dec)

/-- One Bell of a position move, and whether the target was reached. -/
def moveBell (modulo bell : Nat) (m : Motion) (r : MoveRun) : Motion × Bool :=
  let s : Int := if r.left < 0 then -1 else 1
  let d : Int := (r.left * s) * 256
  let vs := s * m.v
  let dec := r.entry.dec
  let go (v : Int) (r : MoveRun) : Motion × Bool :=
    let step := if r.braking then max 1 (v / 256) else v / 256
    if 0 ≤ v ∧ r.left * s ≤ step then
      ({ m with pRef := r.target, v := s * r.vend.getD 0, aff := s * r.vend.getD 0 - m.v, run := none }, true)
    else
      let r' := { r with left := r.left - s * step }
      ({ m with pRef := wrapPos modulo (m.pRef + s * step), v := s * v, aff := s * v - m.v, run := some r' }, false)
  if vs < 0 then go (min 0 (vs + dec)) r
  else
    let r := if r.vend.isNone ∧ mustBrake d vs 0 dec then { r with vend := some (decideEnd modulo bell m r) } else r
    match r.vend with
    | some e =>
      if r.braking ∨ (mustBrake d vs e dec ∧ vs > e) then go (brakeSpeed d vs e dec) { r with braking := true }
      else go (cruiseSpeed r.entry vs) r
    | none => go (cruiseSpeed r.entry vs) r

/-- The counts a stop ramp from speed `v` travels, with 24 fraction bits. -/
def stopDistance (v : Int) (dec : Nat) : Nat :=
  if dec = 0 then 0
  else
    let q := v.natAbs / dec
    q * v.natAbs - dec * (q * (q + 1) / 2)

/-- The distance to the limit ahead of speed `v` on a linear axis, in counts of 24 fraction bits (R266). -/
def limitAhead (posMin posMax : Int) (pos v : Int) : Int :=
  if v < 0 then (pos - posMin * 65536) * 256 else (posMax * 65536 - pos) * 256

/-- Braking at QSTOP_DEC must begin before the limit ahead of speed `v`, or of the target speed at rest (R266). -/
def atLimit (modulo qdec : Nat) (posMin posMax pos v target : Int) : Bool :=
  let to_ := if v = 0 then target else v
  modulo == 0 && to_ != 0 && decide (limitAhead posMin posMax pos to_ * 2 * qdec ≤ v * v)

/-- A stop ramp's step never carries p_ref past the target of the entry it interrupts (R270). -/
def MoveRun.stepTo (r : MoveRun) (step : Int) : Int :=
  if r.entry.typ < 2 ∧ sgn step = sgn r.left ∧ r.left.natAbs < step.natAbs then r.left else step

/-- The stops in progress or reached, as the bits of `halted`. -/
def Motion.halting (m : Motion) : Nat :=
  match m.stop, m.run.bind (·.halt) with
  | some s, _ => s.after - 2
  | none, some s => s.after - 2
  | none, none => m.halted

/-- A stop that ends in `after` beside those already in progress: one of the host and one of the island both hold the axis. -/
def Motion.stopBits (m : Motion) (after : Nat) : Nat := bor m.halting after

/-- The stop of a deceleration for the present entry and speed (R270): the entry finishes and the stop waits for its end where the ramp
would pass the target; without a move there is nothing to stop, and a command in the Bell in which an entry reached its target finds
none (R279). -/
def Motion.stopAs (m : Motion) (dec after : Nat) : Motion :=
  let after' := m.stopBits after
  match m.run with
  | none => if m.v = 0 ∨ (m.stop.isNone ∧ after = 1) then m else { m with stop := some ⟨dec, false, after' + 2⟩ }
  | some r =>
    if r.entry.typ < 2 ∧ sgn m.v = sgn r.left ∧ stopDistance m.v dec > r.left.natAbs * 256 then
      { m with stop := none, run := some { r with vend := some (r.vend.getD 0), halt := some ⟨dec, true, after' + 2⟩ } }
    else { m with stop := some ⟨dec, true, after' + 2⟩, run := some { r with halt := none } }

/-- The end of an entry for which a stop waits: at rest the axis is STOPPED; blended into the next entry, the ramp acts on that one. -/
def haltAfter (modulo : Nat) (m : Motion) (s : StopRamp) : Motion :=
  if m.v = 0 then { m with halted := s.after - 2 } else { startNext modulo m with stop := some s }

/-- One Bell of the profile: the stop ramp, the running entry, or the start of the next. Answers the IDs of the entries that ended. -/
def profileBell (modulo bell qdec : Nat) (posMin posMax : Int) (m : Motion) : Motion × List Nat :=
  let to_ (new : Int) : Int := withinLimits modulo posMin posMax m.pRef new
  match m.stop with
  | some s =>
    let v := if m.v < 0 then min 0 (m.v + s.dec) else max 0 (m.v - s.dec)
    let step := (m.run.map (fun r => r.stepTo (v / 256))).getD (v / 256)
    let run := m.run.map (fun r =>
      { r with left := if r.entry.typ = 2 then 0 else r.left - step, vend := none, braking := false, halt := none })
    let m := { m with pRef := to_ (m.pRef + step), v := v, aff := v - m.v }
    if v = 0 then
      let remain := if s.keep then run else m.remain
      ({ m with stop := none, run := none, halted := s.after - 2, remain := remain }, [])
    else ({ m with run := run }, [])
  | none =>
    if m.halted ≠ 0 ∨ m.remain.isSome then ({ m with v := 0, aff := 0 }, [])
    else
      let ended := m.run.any (fun r => r.entry.typ == 2) && m.nextReady
      let done := if ended then (m.run.map (fun r => r.entry.id)).toList else []
      let m := if m.run.isNone ∨ ended then startNext modulo (if ended then { m with run := none } else m) else m
      match m.run with
      | none => ({ m with v := 0, aff := 0 }, done)
      | some r =>
        if r.entry.typ = 2 then
          let target := if m.limited then 0 else r.entry.vel
          let hit := !m.limited && atLimit modulo qdec posMin posMax m.pRef m.v r.entry.vel
          let x := rampStep r.entry.acc (if hit ∨ m.limited then qdec else r.entry.dec) 0 (if hit then 0 else target)
            ⟨m.v, 0, 0, false, 0⟩
          ({ m with pRef := to_ (m.pRef + x.r / 256), v := x.r, aff := x.acc, limited := m.limited || hit }, done)
        else
          let res := moveBell modulo bell m r
          let kept := to_ res.1.pRef
          let next := { res.1 with pRef := kept, run := res.1.run.map (fun r => { r with left := r.left + (res.1.pRef - kept) }) }
          let m := match res.2, r.halt with
            | true, some s => haltAfter modulo next s
            | _, _ => next
          (m, if res.2 then done ++ [r.entry.id] else done)

/-- Count a completed entry and raise MOVE_DONE; QUEUE_EMPTY when none follows (R268). -/
def Head.moveDone (h : Head) (n id : Nat) : Head :=
  let h := (h.put (AX_MV_DONE_LAST_ID n) id).wrapFld (AX_MV_DONE_COUNT n)
  let h := h.raise 2 3 n
  if (h.mot n).queue.isEmpty ∧ (h.mot n).run.isNone then h.raise 2 4 n else h

/-- One Bell of the profile of axis `n`. -/
def Head.profile (h : Head) (n : Nat) : Head :=
  let was := (h.mot n).limited
  let res := profileBell (h.rd (AX_MODULO n)) h.bellNo (h.rd (AX_QSTOP_DEC n)) (h.rdInt (AX_POS_MIN n)) (h.rdInt (AX_POS_MAX n))
    (h.mot n)
  let h := h.setMot n (fun _ => res.1)
  let h := if res.1.limited ∧ !was then h.raise 2 5 n else h
  res.2.foldl (fun (h : Head) id => h.moveDone n id) h

/-! ## Faults and stops -/

/-- A stop cause opens the clutch of a CTRL 3 axis (R297). -/
def Head.declutch (h : Head) (n : Nat) : Head :=
  (h.put (AX_FOL_STAT_CLU n) 0).setFol n (fun f => { f with kappa := 0, request := 0, trigger := none })

/-- A motion fault (R265): 0 FOLLOW_ERR, 1 POS_MODEL, 2 STEP_LOSS. The queue freezes, the remainder is kept. -/
def Head.motionFault (h : Head) (n k : Nat) : Head :=
  if bit (h.rd (AX_MFAULT n)) k then h
  else if h.substitute then h.diverge
  else
    let h := ((h.orReg (AX_MFAULT n) (2 ^ k)).raise 2 k n).declutch n
    h.setMot n (fun m =>
      if h.isStepper n then m.stopAs (h.rd (AX_QSTOP_DEC n)) 0
      else { m with
        ramp := m.ramp.jump (m.wf * 256)
        v := 0, aff := 0, stop := none, run := none
        remain := match m.run with | some r => some r | none => m.remain })

/-- A stop of Table 11-4 under CTRL `c` at a deceleration of 24 fraction bits; `after` is the value of `halted` it ends in. An island
request stops an axis at rest too. -/
def Head.stopMove (h : Head) (n c dec after : Nat) : Head :=
  (if c = 3 then h.declutch n else h).setMot n (fun m =>
    if c = 1 then { m with stop := some ⟨dec, false, m.stopBits after + 2⟩ }
    else if c = 3 then
      if h.fld (AX_FOL_STAT_CLU n) = 0 ∧ m.v = 0 then m else { m with stop := some ⟨dec, false, m.stopBits after + 2⟩ }
    else if m.run.isNone ∧ m.v = 0 ∧ after = 2 ∧ m.halted = 0 then { m with halted := 2 }
    else m.stopAs dec after)

/-- A stop is in progress: its ramp, or an entry that finishes first. -/
def Head.stopping (h : Head) (n : Nat) : Bool :=
  let m := h.mot n
  m.stop.isSome || m.run.any (fun r => r.halt.isSome)

/-- The island's stop request as the law reads it in the same run (R270, R378). -/
def Head.followIsland (h : Head) (e n : Nat) : Head :=
  if bit (h.seen e 4) 6 then
    let m := h.mot n
    if 2 ≤ m.halting then h
    else h.stopMove n (h.engine e).ctrl (h.seen e 0x15 * 256) 2
  else if 2 ≤ (h.mot n).halted then h.setMot n (fun m => { m with halted := m.halted - 2 })
  else h

/-- The axis stays coupled through an island stop: ISTOP is 1 and its master is an internal generator (R297). -/
def Head.staysCoupled (h : Head) (n : Nat) : Bool :=
  h.on (AX_FOL_CFG_ISTOP n) && h.fld (VM_CFG_SRC (h.fld (AX_FOL_CFG_VM n))) == 0

/-- A stop cause of Table 11-4 stands for the axis. -/
def Head.stopStands (h : Head) (n : Nat) : Bool :=
  h.stopCode n != 0 || h.rd (AX_MFAULT n) != 0 || h.faults n != 0

/-! ## The laws (Table 11-1) -/

/-- The target of the ramp in CTRL 1: AX_SPD_REF, or 0 during a stop, after one, in MFAULT and at a limit (R266, R270). -/
def Head.rampTarget (h : Head) (n : Nat) : Int :=
  let m := h.mot n
  if h.rd (AX_MFAULT n) ≠ 0 ∨ m.stop.isSome ∨ m.halted ≠ 0 ∨ m.limited then 0 else h.rdInt (AX_SPD_REF n) * 256

/-- The deceleration of the ramp in CTRL 1. -/
def Head.rampDec (h : Head) (n : Nat) : Nat :=
  let m := h.mot n
  if h.rd (AX_MFAULT n) ≠ 0 ∨ m.limited then h.rd (AX_QSTOP_DEC n)
  else match m.stop with
    | some s => s.dec
    | none => h.rd (AX_DEC n)

/-- One Bell of the ramp of CTRL 1, with the limits of R266 and the integration of a stepper's p_ref (Table 11-1). -/
def Head.rampBell (h : Head) (n : Nat) : Head :=
  let m := h.mot n
  let pos := if h.isStepper n then m.pRef else m.p
  let lo := h.rdInt (AX_POS_MIN n)
  let hi := h.rdInt (AX_POS_MAX n)
  let ref := h.rdInt (AX_SPD_REF n)
  let free := m.limited ∧ sgn ref * m.limitDir < 0 ∧ sgn m.ramp.r ≠ m.limitDir
  let hit := !m.limited && atLimit (h.rd (AX_MODULO n)) (h.rd (AX_QSTOP_DEC n)) lo hi pos m.ramp.r ref
  let h := if hit then h.raise 2 5 n else h
  let h := h.setMot n (fun m => { m with
    limited := if hit then true else if free then false else m.limited
    limitDir := if hit then sgn (if m.ramp.r = 0 then ref else m.ramp.r) else m.limitDir })
  let x := rampStep (h.rd (AX_ACC n)) (h.rampDec n) (h.fld (AX_REV_REV_HOLD n)) (h.rampTarget n) m.ramp
  h.setMot n (fun m => { m with
    ramp := x
    pRef := if h.isStepper n then h.keepRef n m.pRef (m.pRef + x.r / 256) else m.pRef
    v := if h.isStepper n then x.r else m.v
    stop := if x.r = 0 then none else m.stop
    halted := if x.r = 0 then (match m.stop with | some s => s.after - 2 | none => m.halted) else m.halted })

/-- ωf after this run (R261). -/
def Head.speedFilter (h : Head) (e n : Nat) : Int :=
  let wf := (h.mot n).wf
  satInt 32 (if bit (h.seen e 0x14) 0 then wf + divEven (h.seenLong e 0x12 - wf) (2 ^ h.fld (AX_SPD_FILT_FILT n)) else wf)

/-- The compensator of R261: id_ref and iq_ref into X words 0 and 1 of the task's window. In the first run after a transfer into CTRL 1
r is the ωf of that run, so that e is 0 (R272). -/
def Head.speedComp (h : Head) (e n : Nat) : Head :=
  let fl := h.seen e 0x14
  let wf := h.speedFilter e n
  let h := h.setMot n (fun m => { m with ramp := if m.preset then m.ramp.jump (wf * 256) else m.ramp, preset := false })
  let m := h.mot n
  let err := m.ramp.r - wf * 256
  let prod (k : Nat) (x : Int) : Int := sat24 (divEven ((k : Int) * x) (2 ^ 25))
  let u := prod (h.rd (AX_SPD_KP n)) err + m.integ / 2 ^ 24 + prod (h.rd (AX_SPD_KFF n)) m.ramp.acc
  let limited := (bit fl 1 || bit fl 2) && sgn err == sgn u
  let integ := if bit fl 0 && !limited then satInt 48 (m.integ + prod (h.rd (AX_SPD_KI n)) err * 2 ^ 24) else m.integ
  let h := h.setMot n (fun m => { m with wf := wf, integ := integ })
  h.setEngine e (fun g => { g with
    xRam := (g.xRam.set zero24 g.xWin.1 (w24 (h.rdQ (AX_IREF_D n)))).set zero24 (g.xWin.1 + 1) (w24 (sat24 u)) })

/-- X words 2 to 6: p_ref, v_ref and a_ff (R257, R294). -/
def Head.putRefs (h : Head) (e n : Nat) : Head :=
  let m := h.mot n
  let p := toBits 48 m.pRef
  let v := toBits 48 (speed16 m.v)
  h.setEngine e (fun g => { g with
    xRam := ((((g.xRam.set zero24 (g.xWin.1 + 2) (BitVec.ofNat 24 (p / 2 ^ 24))).set zero24 (g.xWin.1 + 3)
      (BitVec.ofNat 24 p)).set zero24 (g.xWin.1 + 4) (BitVec.ofNat 24 (v / 2 ^ 24))).set zero24 (g.xWin.1 + 5)
      (BitVec.ofNat 24 v)).set zero24 (g.xWin.1 + 6) (w24 (sat24 (m.aff / 256))) })

/-- The Bells one run advances: the DIV of the task's descriptor. -/
def Head.divOf (h : Head) (e : Nat) : Nat := max 1 (bits (h.rd (SCHED_DESC (8 * (h.engine e).tid + 2))) 15 8)

/-- RUN of mailbox word 0xE114. -/
def Head.motionRuns (h : Head) (e : Nat) : Bool := bit (h.seen e 0x14) 3

/-- Without RUN the laws hold their state but for ωf, and the references are 0 (notes/assumptions/33.md). -/
def Head.holdRefs (h : Head) (e n : Nat) : Head :=
  (h.setMot n (fun m => { m with wf := h.speedFilter e n })).setEngine e (fun g => { g with xRam := (g.xRam.set zero24 g.xWin.1 0).set zero24 (g.xWin.1 + 1) 0 })

/-- A stepper moves only after the 16 Bells of its energise ramp (R277). -/
def Head.energised (h : Head) (n : Nat) : Bool := !(h.isStepper n) || decide ((h.mot n).energise ≥ 16)

/-- SPEED (R260, R261). -/
def lawSpeed (div e : Nat) (h : Head) : Head :=
  let n := (h.engine e).axn
  let ctrl := (h.engine e).ctrl
  if ctrl = 0 then h
  else if !h.motionRuns e then (if h.isStepper n then h.putRefs e n else h.holdRefs e n).motionShow n
  else
    let h := if ctrl = 1 then h.followIsland e n else h
    let h :=
      if ctrl = 1 ∨ (h.rd (AX_MFAULT n) ≠ 0 ∧ !h.isStepper n) then (if (h.mot n).preset ∨ !h.energised n then h else repeatStep (fun h => h.rampBell n) div h)
      else h.setMot n (fun m => { m with ramp := { m.ramp.jump (m.vcmd * 256) with acc := m.ramp.acc } })
    let h := if h.isStepper n then h.putRefs e n else h.speedComp e n
    h.motionShow n

/-- The following-error and model checks of R262 to R264 on the profile's p_ref, v_ff and a_ff. -/
def Head.positionLoop (h : Head) (div e n : Nat) : Head :=
  let m := h.mot n
  let modulo := h.rd (AX_MODULO n)
  let p := h.seenLong e 0x10
  let vff := speed16 m.v
  let fe := diffPos modulo m.pRef p
  let vcmd := satInt 32 (divEven ((h.rd (AX_POS_KP n) : Int) * fe) (2 ^ 24) +
    divEven ((h.rd (AX_POS_KVFF n) : Int) * vff) (2 ^ 24))
  let aff := divEven ((h.rd (AX_POS_KVFF n) : Int) * m.aff) (2 ^ 24)
  let feRun := if fe.natAbs > h.fld (AX_FE_FE_LIM n) * 65536 then m.feRun + 1 else 0
  let tm := 2 ^ h.fld (AX_MODEL_TM_SHIFT n)
  let corr := 2 ^ h.fld (AX_MODEL_CORR_SHIFT n)
  let model (x : Int × Int) : Int × Int :=
    let vm := x.1 + divEven (vcmd - x.1) tm
    (satInt 32 vm, wrapPos modulo (x.2 + vm + divEven (diffPos modulo p x.2) corr))
  let x := repeatStep model div (m.vm, m.pm)
  let off := (diffPos modulo x.2 p).natAbs > h.fld (AX_MODEL_MODEL_LIM n) * 65536
  let modelRun := if off ∧ bit (h.seen e 0x14) 0 then m.modelRun + 1 else 0
  let h := h.setMot n (fun m => { m with
    vcmd := vcmd, ramp := { m.ramp with acc := aff }, feRun := feRun, modelRun := modelRun, vm := x.1, pm := x.2 })
  let h := if feRun ≥ max 1 (h.fld (AX_FE_FE_N n)) then h.motionFault n 0 else h
  if modelRun ≥ 16 then h.motionFault n 1 else h

/-- POSITION (R262 to R264, R268, R297): the profile in CTRL 2, the stop ramp of CTRL 3, then the position loop. -/
def lawPosition (div e : Nat) (h : Head) : Head :=
  let n := (h.engine e).axn
  let ctrl := (h.engine e).ctrl
  if ctrl < 2 then h
  else if !h.motionRuns e then (if h.isStepper n then h.putRefs e n else h).motionShow n
  else
    let h := if ctrl = 2 ∨ !h.staysCoupled n then h.followIsland e n else h
    let ready := h.energised n
    let h :=
      if !ready ∨ (h.rd (AX_MFAULT n) ≠ 0 ∧ !(h.isStepper n && h.stopping n)) then h
      else if ctrl = 2 ∨ (h.mot n).stop.isSome then repeatStep (fun h => h.profile n) div h
      else h
    let h := h.putRefs e n
    let h := if h.isStepper n ∨ h.rd (AX_MFAULT n) ≠ 0 then h else h.positionLoop div e n
    h.motionShow n

/-! ## Presets (Table 11-5) -/

/-- A remainder once p_ref stands at `pos` and no longer at `old` (R271): its target less p_ref, on a modulo axis counted in the entry's
direction of travel; a velocity entry has none. -/
def MoveRun.moved (modulo : Nat) (old pos : Int) (r : MoveRun) : MoveRun :=
  let left := r.left - diffPos modulo pos old
  { r with
    vend := none, braking := false, halt := none
    left := if r.entry.typ = 2 then 0 else if modulo = 0 then r.target - pos
      else if left * sgn r.left < 0 then left + sgn r.left * (modulo * 65536 : Nat) else left }

/-- p_ref set to `pos`, with what a remainder is then. -/
def Motion.refTo (modulo : Nat) (pos : Int) (m : Motion) : Motion :=
  { m with pRef := pos, remain := m.remain.map (MoveRun.moved modulo m.pRef pos) }

/-- The presets of Table 11-5 for a transfer into CTRL `c`. A stepper has no ωf: its profile speed goes on. -/
def Head.presetLaws (h : Head) (n c : Nat) : Head :=
  let step := h.isStepper n
  match c with
  | 0 => h
  | 1 => h.setMot n (fun m => { m with
      ramp := m.ramp.jump (if step then m.v else m.wf * 256), preset := !step
      integ := sext 24 (h.mail n 1) * 2 ^ 24, stop := none, halted := 0, limited := false })
  | _ => h.setMot n (fun m =>
      let v := if step then m.v else m.ramp.r
      { m.refTo (h.rd (AX_MODULO n)) (if step ∧ !h.hasEncoder n then m.pRef else m.p) with
        v := v, pm := m.p, vm := m.w, feRun := 0, modelRun := 0, aff := 0, halted := 0, limited := false
        stop := if v = 0 then none else some ⟨h.rd (AX_STOP_DEC n), false, 0⟩ })

/-- A change of CTRL to `c` at a Bell edge (R272). -/
def Head.transfer (h : Head) (n c : Nat) : Head :=
  let h := h.put (AX_CTL_CTRL n) c
  let h := if c = 0 then (h.wr (AX_IREF_D n) (h.mail n 0 * 256)).wr (AX_IREF_Q n) (h.mail n 1 * 256) else h
  (h.presetLaws n c).motionShow n

/-- The presets of an enable: a transfer from CTRL 0 with id_ref = iq_ref = 0; a remainder is then the target less p, also for an
axis that comes up in CTRL 1 (R264, R271, R272, R277). -/
def Head.enablePreset (h : Head) (n : Nat) : Head :=
  let h := (h.setMail n 0 0).setMail n 1 0
  let h := h.presetLaws n (h.fld (AX_CTL_CTRL n))
  let h := h.setMot n (fun m =>
    let pRef := if h.isStepper n ∧ !h.hasEncoder n then m.pRef else m.p
    { m.refTo (h.rd (AX_MODULO n)) pRef with
      pm := m.p, vm := m.w, feRun := 0, modelRun := 0, run := none, energise := 0, still := 0, lossRun := 0, lastPRef := pRef })
  h.motionShow n

/-- A stepper without an encoder loses its reference when its gates go off (R277). -/
def Head.loseRef (h : Head) (n : Nat) : Head :=
  if h.isStepper n ∧ !h.hasEncoder n then h.put (AX_MSTAT_REFD n) 0 else h

/-- The gates of an axis whose law commands them go off. -/
def Head.gatedOff (h : Head) (n : Nat) : Head :=
  let st := h.fld (AX_STAT_STATE n)
  if h.enabled n ∧ 2 ≤ st ∧ st ≤ 4 then h.loseRef n else h

/-- A gates-off stop (R250, Table 11-4): the running entry becomes the remainder. -/
def Head.gatesOffStop (h : Head) (n : Nat) : Head :=
  let h := (h.declutch n).setMot n (fun m => { m with
    remain := match m.run with | some r => some r | none => m.remain
    run := none, stop := none, halted := 0, limited := false, v := 0, aff := 0, ramp := m.ramp.jump 0 })
  (h.loseRef n).motionShow n

/-! ## The stepper law (R275 to R278) -/

/-- What the stepper law takes from the axis: the current level I (unsigned Q0.16), KC, DUTY_MAX, MS_LOG2. -/
structure StepIn where
  level : Nat
  kc : Nat
  dutyMax : Nat
  msLog2 : Nat
  deriving DecidableEq, Repr

/-- STEPPER_V on a task's windows: X words 7 and 8 hold iA and iB, 9 and 10 the references of the last run. -/
def stepperV (s : StepIn) (c : Ctx) : Ctx :=
  let c := offsetRun (readReport c)
  let pref := sext 48 (c.mail 0x16 * 2 ^ 24 + c.mail 0x17)
  let vref := sext 48 (c.mail 0x18 * 2 ^ 24 + c.mail 0x19)
  let x := pref + divEven (vref * c.y 18) (2 * c.period)
  let span := 2 ^ (18 + s.msLog2)
  let th := (divEven ((x % (span : Nat)) * 2 ^ 24) span % 2 ^ 24).toNat
  let t := sinCos th
  let i : Int := s.level * 128
  let ia := qmul i t.1 23
  let ib := qmul i t.2 23
  let used := c.valid && !c.ride
  let ma := if used then sat24 (sext 24 (c.rx 0 31 8) - c.x 0) else c.x 7
  let mb := if used then sat24 (sext 24 (c.rx 1 31 8) - c.x 1) else c.x 8
  let term (k : Nat) (a : Int) (f : Nat) : Int := let q := c.coef k; sat24 (mulCoef a q.1 q.2 f)
  let emf := term 8 vref (18 + s.msLog2)
  let kc (prev meas : Int) : Int := if used then sat24 (divEven ((s.kc : Int) * (prev - meas)) 4096) else 0
  let va := sat24 (sat24 (term 28 ia 23 + term 30 (ia - c.x 9) 23 - qmul emf t.2 23) + kc (c.x 9) ma)
  let vb := sat24 (sat24 (term 28 ib 23 + term 30 (ib - c.x 10) 23 + qmul emf t.1 23) + kc (c.x 10) mb)
  let vdc := c.vdc
  let lim : Int := s.dutyMax / 2
  let duty (v : Int) : Int := if vdc ≤ 0 then 0 else max (-lim) (min lim (divEven (v * 32768) vdc.toNat))
  let c := c.setXs [(7, ma), (8, mb), (9, ia), (10, ib), (15, va), (16, vb), (19, th)]
  (c.setTx 0 (toBits 16 (duty va) * 65536 + toBits 16 (duty vb))).setTx 1 c.word4

/-- The current level of R276 and R277: I rises over 16 Bells at enable, and falls over 64 Bells after STBY_DELAY. -/
def Head.stepLevel (h : Head) (n : Nat) (moved : Bool) : Nat :=
  let m := h.mot n
  let still := if moved then 0 else m.still
  let iRun := h.fld (AX_STP_I_I_RUN n)
  let iStby := h.fld (AX_STP_I_I_STBY n)
  let d := h.rd (AX_STP_STBY n)
  if m.energise < 16 then iRun * m.energise / 16
  else if d = 0 ∨ still < h.bellsOfMs d then iRun
  else iRun - (iRun - iStby) * (min 64 (still - h.bellsOfMs d)) / 64

/-- The references that this run of the stepper law takes have moved since its last (R276). -/
def Head.stepMoved (h : Head) (e n : Nat) : Bool :=
  decide (h.seenLong e 0x16 ≠ (h.mot n).lastPRef) || decide (h.seenLong e 0x18 ≠ 0)

/-- The head's part of a stepper run: the counts of R276, R277 and the loss check of R278. -/
def Head.stepRun (h : Head) (e n : Nat) (valid run : Bool) : Head :=
  let pref := h.seenLong e 0x16
  let moved := h.stepMoved e n
  let off := (diffPos (h.rd (AX_MODULO n)) pref (h.mot n).p).natAbs > h.fld (AX_STP_LOSS_LOSS_LIM n) * 65536
  let loss := if !(h.hasEncoder n) ∨ !run then 0 else if valid then (if off then (h.mot n).lossRun + 1 else 0) else (h.mot n).lossRun
  let h := h.setMot n (fun m => { m with
    lastPRef := pref, still := if moved ∨ !run then 0 else m.still + 1
    energise := if run then min 16 (m.energise + 1) else 0, lossRun := loss })
  let h := if loss ≥ 8 then h.motionFault n 2 else h
  h.motionShow n

end Sys2Proof.Machine
end

