-- ==== Sys2Proof/Machine/Sched.lean ====
section
/-! DEFINITION. The Task Scheduler (chapter 09): descriptors, event flags, readiness, privileged queues, dispatch,
commits, the end and the fault of a task, the hand-over of R257. -/

namespace Sys2Proof.Machine

/-! ## Descriptors (Table 09-2) -/

/-- Word `w` of the descriptor of task `t`. -/
def Head.desc (h : Head) (t w : Nat) : Nat := h.rd (SCHED_DESC (8 * t + w))

def Head.taskClass (h : Head) (t : Nat) : Nat := bits (h.desc t 0) 30 29
def Head.taskAxis (h : Head) (t : Nat) : Nat := bits (h.desc t 0) 15 8
def Head.taskHome (h : Head) (t : Nat) : Nat := bits (h.desc t 0) 7 4
def Head.taskMigrates (h : Head) (t : Nat) : Bool := bit (h.desc t 0) 3
def Head.taskAny (h : Head) (t : Nat) : Bool := bit (h.desc t 0) 2
def Head.taskMask (h : Head) (t : Nat) : Nat := h.desc t 1
def Head.taskBudget (h : Head) (t : Nat) : Nat := bits (h.desc t 2) 31 16
def Head.taskDeadline (h : Head) (t : Nat) : Nat := bits (h.desc t 3) 31 16
def Head.taskChain (h : Head) (t : Nat) : Nat := bits (h.desc t 4) 19 10
def Head.taskLevel (h : Head) (t : Nat) : Nat := bits (h.desc t 4) 9 4

/-- The command slot of a task: lane × 256 + slot. -/
def Head.taskCmd (h : Head) (t : Nat) : Option Nat :=
  let w := h.desc t 3
  if bits w 15 12 = 0xF then none else some (bits w 15 12 * 256 + bits w 11 4)

/-- The report slot of a task. -/
def Head.taskRep (h : Head) (t : Nat) : Option Nat :=
  let w := h.desc t 4
  if bits w 31 28 = 0xF then none else some (bits w 31 28 * 256 + bits w 27 20)

/-- The tasks that the recipe describes, privileged ones among them (notes/assumptions/34.md). -/
def Head.recipeTasks (h : Head) : List Nat :=
  match h.content? with
  | some c => c.tasks.map (·.1)
  | none => []

/-- The station whose report slot a task names. -/
def Head.taskStation (h : Head) (t : Nat) : Option Nat :=
  match h.taskRep t, h.content? with
  | some k, some c => (c.repSlots.find? (fun r => r.lane * 256 + r.slot == k)).map (·.station)
  | _, _ => none

/-- The station that a task works on: that of its report slot, else of its command slot, else that of its axis (R221). -/
def Head.taskNode (h : Head) (t : Nat) : Option Nat :=
  let ofCmd : Option Nat := match h.taskCmd t, h.content? with
    | some k, some c => (c.cmdSlots.find? (fun r => r.lane * 256 + r.slot == k)).map (·.station)
    | _, _ => none
  match h.taskStation t, ofCmd with
  | some s, _ => some s
  | none, some s => some s
  | none, none => h.stationOf (h.taskAxis t)

/-- The tasks that a station's reports release. -/
def Head.tasksOfStation (h : Head) (s : Nat) : List Nat := h.recipeTasks.filter (fun t => h.taskStation t == some s)

/-- The current or stepper task of an axis: cyclic, with a command slot. -/
def Head.currentTask (h : Head) (n : Nat) : Option Nat :=
  h.recipeTasks.find? (fun t => h.taskAxis t == n && h.taskClass t == 0 && (h.taskCmd t).isSome)

/-- The motion task of an axis: cyclic, released by BELL, with no slots (R256). -/
def Head.isMotion (h : Head) (t : Nat) : Bool :=
  h.taskAxis t < 128 && h.taskClass t == 0 && (h.taskCmd t).isNone && (h.taskRep t).isNone

/-! ## Task states (SCHED_TSTAT) -/

def Head.taskState (h : Head) (t : Nat) : Nat := h.fld (SCHED_TSTAT_STATE t)
def Head.taskEnabled (h : Head) (t : Nat) : Bool := h.taskState t != 0
def Head.setTaskState (h : Head) (t s : Nat) : Head := h.put (SCHED_TSTAT_STATE t) s

/-- The flags meet the mask (R208). -/
def Head.taskMeets (h : Head) (t : Nat) : Bool :=
  let m := h.taskMask t
  let f := band (h.rd (SCHED_FLAGS t)) m
  m != 0 && (if h.taskAny t then f != 0 else f == m)

/-! ## Privileged queues (R211, R212) -/

/-- The entries of a level, in arrival order. -/
def Head.level (h : Head) (k : Nat) : List Nat := h.sched.queues.get (fun _ => []) k

/-- Put the entries of a level. -/
def Head.setLevel (h : Head) (k : Nat) (l : List Nat) : Head :=
  { h with sched := { h.sched with queues := h.sched.queues.set (fun _ => []) k l } }

/-- Show the queue occupancy (SCHED_PRIVQ). -/
def Head.showQueues (h : Head) : Head :=
  let n (q : Nat) : Nat := ((List.range 16).map (fun l => (h.level (16 * q + l)).length)).foldl (· + ·) 0
  h.wr SCHED_PRIVQ (n 3 * 2 ^ 24 + n 2 * 2 ^ 16 + n 1 * 2 ^ 8 + n 0)

/-- The level of a privileged task, as queue × 16 + level. -/
def Head.levelOf (h : Head) (t : Nat) : Nat := bits (h.desc t 4) 9 8 * 16 + bits (h.desc t 4) 7 4

/-- Enqueue a ready privileged task when its level has room; otherwise it stays pending in its flag (R212). -/
def Head.enqueue (h : Head) (t : Nat) : Head :=
  let k := h.levelOf t
  if (h.task t).queued ∨ (h.level k).length ≥ 4 then h
  else ((h.setLevel k (h.level k ++ [t])).setTask t (fun x => { x with queued := true })).showQueues

/-- A waiting task whose flags meet its mask becomes ready (R208). -/
def Head.tryReady (h : Head) (t : Nat) : Head :=
  if h.taskState t = 1 ∧ h.taskMeets t then
    let h := (h.setTaskState t 2).setTask t (fun x => { x with readySince := h.sched.order })
    let h := { h with sched := { h.sched with order := h.sched.order + 1 } }
    if h.taskClass t = 2 then h.enqueue t else h
  else h

/-- Set a flag of a task (R208, R209). -/
def Head.setFlag (h : Head) (t k : Nat) : Head :=
  if h.taskState t = 0 then h
  else if bit (h.rd (SCHED_FLAGS t)) k then h.bump SCHED_COAL
  else (h.orReg (SCHED_FLAGS t) (2 ^ k)).tryReady t

/-- Set a flag of every task of an axis. -/
def Head.flagAxis (h : Head) (n k : Nat) : Head :=
  (h.recipeTasks.filter (fun t => h.taskAxis t == n)).foldl (fun h t => h.setFlag t k) h

/-- Set a flag of SAFE, FAULT, CLAIM or NET in the privileged tasks whose mask holds it (Table 09-3, notes/assumptions/34.md). -/
def Head.privFlag (h : Head) (k : Nat) : Head :=
  (h.recipeTasks.filter (fun t => h.taskClass t == 2 && bit (h.taskMask t) k)).foldl (fun h t => h.setFlag t k) h

/-- A unit event routed to tasks (Table 09-3, UNIT flags). Kinds: 0 encoder wrap, 1 encoder direction, 2 capture,
3 trigger, 4 end of a cam segment. -/
def Head.unitEvent (h : Head) (kind idx : Nat) : Head :=
  (h.sched.routes.filter (fun r => r.kind == kind && r.index == idx)).foldl (fun h r => h.setFlag r.task (4 + r.flag % 4)) h

/-! ## Enabling and disabling -/

/-- Enable a task with its flags at 0, its fault and its CONSEC cleared (R209, R221). A run that a disable caught goes on to its END
without commits (R222). A stop request that stands for its axis sets its SAFE flag (R378). -/
def Head.enableTask (h : Head) (t : Nat) : Head :=
  let h := h.wr (SCHED_FLAGS t) 0
  let h := (h.put (SCHED_TSTAT_FAULT t) 0).put (SCHED_TSTAT_CONSEC t) 0
  let h := (h.setTaskState t (if (h.task t).discard then 3 else 1)).setTask t (fun x => { x with byNode := false, rels := [], latched := false, queued := false })
  let n := h.taskAxis t
  if n < 128 ∧ h.stopCode n ≠ 0 ∧ h.axisOut n < 4 then h.setFlag t (16 + h.axisOut n) else h

/-- Disable a task (R209, R222): a running one runs on with its commits discarded. -/
def Head.disableTask (h : Head) (t : Nat) : Head :=
  let k := h.levelOf t
  let h := if (h.task t).queued then (h.setLevel k ((h.level k).filter (· ≠ t))).showQueues else h
  let run := h.taskState t = 3
  let h := (h.setTaskState t 0).wr (SCHED_FLAGS t) 0
  h.setTask t (fun x => { x with discard := x.discard || run, rels := [], queued := false })

/-- The payload of a slot with GATE_EN and RIDE_OK 0 for a servo or stepper command, EN and OUT 0 for a process
command, outputs off for an I/O command. -/
def gatesOff (kind : Nat) (ws : List Word) : List Word :=
  match kind with
  | 1 => ws.set 4 (BitVec.ofNat 32 (bandNot (wordAt ws 4) 5))
  | 3 => ws.set 1 (BitVec.ofNat 32 (bandNot (wordAt ws 1) 5))
  | _ => ws.map (fun _ => 0)

/-- The command slots of a station. -/
def Head.cmdSlotsOf (h : Head) (s : Nat) : List CmdSlot :=
  match h.content? with
  | some c => c.cmdSlots.filter (fun x => x.station == s)
  | none => []

/-- The command slot record of a key. -/
def Head.cmdSlot? (h : Head) (k : Nat) : Option CmdSlot :=
  match h.content? with
  | some c => c.cmdSlots.find? (fun x => x.lane * 256 + x.slot == k)
  | none => none

/-- A word of a station's slot record as it was last sent (Table 05-10), or as the recipe compiled it. -/
def Head.recWord (h : Head) (s w : Nat) : Nat :=
  let r := (h.node s).record
  if r.isEmpty then (match h.station? s with | some c => wordAt c.record w | none => 0) else wordAt r w

/-- The REPORT instant in force: normal, or the limp slots' (R460). `limp` is 1 on channel A, 2 on channel B. -/
def Head.reportAt (h : Head) (s : Nat) : Nat :=
  match (h.node s).limp with
  | 1 => bits (h.recWord s 5) 31 16
  | 2 => bits (h.recWord s 6) 31 16
  | _ => bits (h.recWord s 1) 15 0

/-- The command paired with the report of Bell `b` (R460): what the station's slots sent in that Bell when REPORT lies later
than APPLY, in the Bell before it otherwise. -/
def Head.pairedCmd (h : Head) (s b : Nat) : Option (List Word) :=
  let when_ := if bits (h.recWord s 1) 31 16 < h.reportAt s then b else (b + 2 ^ 32 - 1) % 2 ^ 32
  (h.cmdSlotsOf s).findSome? (fun x =>
    ((h.slot (x.lane * 256 + x.slot)).history.find? (fun e => e.1 == when_)).map (·.2))

/-- Write gates-off into every slot of a station, committed as it stands (R202, R220). -/
def Head.stationGatesOff (h : Head) (s : Nat) : Head :=
  (h.cmdSlotsOf s).foldl (fun h x =>
    h.setSlot (x.lane * 256 + x.slot) (fun y => { y with payload := gatesOff x.kind y.payload, before := (gatesOff x.kind y.before.1, y.before.2) })) h

/-- The same for the station of a task's command slot. -/
def Head.taskGatesOff (h : Head) (t : Nat) : Head :=
  match (h.taskCmd t).bind h.cmdSlot? with
  | some x => h.stationGatesOff x.station
  | none => h

/-- A loop takes a fault (R320): its bit, mode FAULT, PL_FAULT; a tune ends ABORTED (Table 13-5). -/
def Head.loopFault (h : Head) (i k : Nat) : Head :=
  if bit (h.fld (PL_STAT_FAULT i)) k ∧ h.fld (PL_MODE_MODE i) = 4 then h
  else if h.substitute then h.diverge
  else
    let h := h.put (PL_STAT_FAULT i) (setBit (h.fld (PL_STAT_FAULT i)) k)
    let h := h.raise 4 0 i
    let h := if (h.loop i).tune.isSome then
        (((h.put (PL_STAT_RESULT i) 5).put (PL_STAT_PHASE i) 0).raise 4 3 i).setLoop i (fun x => { x with tune := none })
      else h
    (h.put (PL_MODE_MODE i) 4).setLoop i (fun x => { x with request := none })

/-- Every loop of a station takes a fault: 5 NODE, 6 LAW (R308, Table 13-4). -/
def Head.loopsFault (h : Head) (s k : Nat) : Head := (h.loopsOf s).foldl (fun (h : Head) i => h.loopFault i k) h

/-- The axis of a task, when it names one. -/
def Head.axesOfTask (h : Head) (t : Nat) : List Nat := if h.taskAxis t < 128 then [h.taskAxis t] else []

/-- An axis fault sets STATE to FAULT and stops the axis gates-off (R250, Table 11-4). -/
def Head.faultAxis (h : Head) (n k : Nat) : Head :=
  if bit (h.faults n) k then h
  else if h.substitute then h.diverge
  else ((h.axisFault n k).put (AX_STAT_STATE n) 6).gatesOffStop n

/-- A task is disabled by a fault, which at a Substitute is a divergence only (R406): each axis takes fault `k`, each loop fault LAW, the slot carries gates-off, and the privileged
tasks of engine faults or of overruns get their flag. -/
def Head.failTask (h : Head) (t k code : Nat) : Head :=
  if h.substitute then h.diverge
  else
  let h := h.disableTask t
  let h := h.put (SCHED_TSTAT_FAULT t) code
  let h := (h.axesOfTask t).foldl (fun h n => h.faultAxis n k) h
  let h := match h.taskStation t with
    | some s => h.loopsFault s 6
    | none => h
  (h.taskGatesOff t).privFlag (if code = 0xF0 then 22 else 21)

/-! ## Ports, start, commit, end -/

/-- The payload last committed to a task's command slot, as the 48 words of a staging bank (Table 08-3). -/
def Head.committed (h : Head) (t : Nat) : List Word :=
  let ws := match h.taskCmd t with
    | some k => (h.slot k).payload
    | none => []
  (ws ++ List.replicate 48 0).take 48

/-- The port window of the task on engine `e` (Table 08-3). -/
def Head.ports (h : Head) (e : Nat) : Ports :=
  let g := h.engine e
  let t := g.tid
  let bare : Ports := ⟨[], 0, 0, 0, false, false, g.mail, 0, []⟩
  if g.bench then bare
  else
    let s := h.taskStation t
    let n := h.node (s.getD 0)
    let fresh := (h.task t).rxValid && n.report.bell == h.bellNo
    let limp := b2n (n.limp ≠ 0)
    let stat := b2n fresh + b2n (n.edges.head? = some h.bellNo && fresh) * 2 + min 3 (h.task t).rxMiss * 4 + limp * 16
    { bare with
      rx := n.report.payload, rxStat := stat, rxBseq := n.report.bell % 256
      txStat := b2n ((h.task t).commits.any (fun c => h.bell.edge ≤ c)), hasRx := s.isSome && (h.taskRep t).isSome, hasTx := (h.taskCmd t).isSome
      committed := h.committed t }

/-- Core cycles that an engine spends (R223, LE_BUSY). -/
def Head.spend (h : Head) (e n : Nat) : Head :=
  let g := h.engine e
  let h := h.bumpBy (LE_BUSY e) n
  let s := h.sched
  let c := if g.bench then 9 else h.taskClass g.tid
  { h with sched := { s with
      busyNow := s.busyNow + n
      cyclicNow := if c = 0 then s.cyclicNow + n else s.cyclicNow
      privUsed := if c = 2 then s.privUsed.mapFinIdx (fun i x _ => if i = e then x + n else x) else s.privUsed } }

/-- The register state of Table 08-14. -/
def Engine.fresh (g : Engine) (entry xb yb cb : Nat) : Engine :=
  let p (n : Nat) : BitVec 16 := BitVec.ofNat 16 n
  { g with
    mode := .running, k := Vector.replicate 8 0, sum := Vector.replicate 4 0
    ap := #v[p xb, 0, p yb, 0, p cb, 0, p 0xE000, p 0xE080], am := Vector.replicate 8 1, ba := Vector.replicate 8 0
    ln := Vector.replicate 8 0, lcnt := 0, fl := 0, rnd := 0, fidx := 0, pc := entry % 0x2000, calls := [], loops := []
    cache := none, hazard := ⟨[], [], false, false⟩, cycles := 0, released := false, dirty := false }

/-- The mailbox words of an axis as a table of 256 words. -/
def Head.mailOf (h : Head) (n : Nat) : Tbl W24 :=
  (h.mailbox.filter (fun x => 256 * n ≤ x.1 ∧ x.1 < 256 * n + 256)).map (fun x => (x.1 - 256 * n, x.2))

/-- Start task `t` on engine `e` (R196, R208, R214): the flags in its mask are cleared and the others kept. An RX release that came
before the start and did not make the task ready is the one latched for PARK (R197). -/
def Head.startTask (h : Head) (t e : Nat) : Head :=
  let started := (h.task t).latched && !bit (h.taskMask t) 1
  let h := h.wr (SCHED_FLAGS t) (bandNot (h.rd (SCHED_FLAGS t)) (h.taskMask t))
  let h := (h.setTaskState t 3).put (SCHED_TSTAT_ENG t) e
  let k := h.levelOf t
  let h := if (h.task t).queued then (h.setLevel k ((h.level k).filter (· ≠ t))).showQueues else h
  let h := h.setTask t (fun x => { x with ranOn := some e, queued := false, discard := false, latched := false })
  let win (w : Nat) : Nat × Nat := (bits (h.desc t w) 31 16, bits (h.desc t w) 15 0)
  h.setEngine e (fun g =>
    let g := g.fresh (bits (h.desc t 0) 28 16) (win 5).1 (win 6).1 (win 7).1
    { g with
      tid := t, axn := h.taskAxis t, bseq := h.bellNo % 256, budget := some (h.taskBudget t), bench := false
      released := started
      xWin := win 5, yWin := win 6, cWin := win 7, stage := h.committed t
      mail := if h.taskAxis t < 128 then h.mailOf (h.taskAxis t) else []
      ctrl := if h.taskAxis t < 128 then h.fld (AX_CTL_CTRL (h.taskAxis t)) else 0 })

/-- The transmit banks of every slot of the station take the payload: each channel of a dual node, normal and limp
(R21, R127). -/
def Head.commitStation (h : Head) (s : Nat) (ws : List Word) : Head :=
  (h.cmdSlotsOf s).foldl (fun h x =>
    h.setSlot (x.lane * 256 + x.slot) (fun y => { y with
      payload := ws, committed := true, commitAt := h.now, before := if y.commitAt = h.now then y.before else (y.payload, y.committed) })) h

/-- The hand-over of R257 at the END of task `t` on engine `e`. -/
def Head.handOver (h : Head) (e t : Nat) : Head :=
  let n := h.taskAxis t
  let g := h.engine e
  let x (i : Nat) : Nat := (g.xRam.get zero24 (g.xWin.1 + i)).toNat
  if n ≥ 128 ∨ h.taskClass t ≠ 0 then h
  else if h.isMotion t then
    let h := h.setMot n (fun m => { m with owed := m.owed.filter (·.2) })
    if h.isStepper n then (((h.setMail n 0x16 (x 2)).setMail n 0x17 (x 3)).setMail n 0x18 (x 4)).setMail n 0x19 (x 5)
    else if g.ctrl = 0 then h
    else (h.setMail n 0 (x 0)).setMail n 1 (x 1)
  else if (h.taskCmd t).isSome then
    let m := h.mot n
    let fl := b2n m.valid + h.fld (AX_STAT_ILIMIT n) * 2 + h.fld (AX_STAT_VLIMIT n) * 4 + b2n (h.fld (AX_STAT_STATE n) = 2) * 8
    ((h.setMailLong n 0x10 m.p).setMailLong n 0x12 m.w).setMail n 0x14 fl
  else h

/-- An engine fault (R202, Table 08-16). A bench run halts. -/
def Head.engineFault (h : Head) (e code : Nat) : Head :=
  let g := h.engine e
  let t := g.tid
  let h := h.wr (LE_FAULT e) (code * 2 ^ 24 + t % 1024 * 2 ^ 14 + g.pc % 0x2000)
  let h := h.setEngine e (fun g => { g with
    mode := if g.bench then .faulted else .idle, dirty := false, stage := if g.bench then g.stage else [], mail := [] })
  if g.bench then h
  else
    let h := h.setTask t (fun x => { x with discard := false })
    let h := if h.taskState t = 3 then h.setTaskState t 1 else h
    let h := h.failTask t 1 code
    if h.substitute then h else h.raise 0 5 0

/-! ## Dispatch (R213 to R216) -/

/-- An engine that may take a task: idle and not held by LE_CTL.HALT. -/
def Head.engineFree (h : Head) (e : Nat) : Bool := (h.engine e).mode == .idle && !h.on (LE_CTL_HALT e)

/-- The reserved intervals of an engine in this Bell and the next, as ticks of the instants that bound them (R19, R216). -/
def Head.reservedTicks (h : Head) (e : Nat) : List (Nat × Nat) :=
  match h.content? with
  | none => []
  | some c =>
    let iv := (c.reserved.filter (fun x => x.1 == e)).map (·.2)
    (iv ++ iv.map (fun x => (x.1 + h.bellTicks, x.2 + h.bellTicks))).map (fun x => (h.instantTick x.1, h.instantTick x.2))

/-- The tick at which the next reserved interval of an engine starts, the present tick when it lies inside one; none when the engine
has no interval (R216). -/
def Head.nextReserved (h : Head) (e : Nat) : Option Nat :=
  let iv := h.reservedTicks e
  if iv.any (fun x => x.1 ≤ h.now && h.now < x.2) then some h.now
  else ((iv.map (·.1)).filter (fun s => h.now < s)).min?

/-- The admission rule of R216 for `cycles` core cycles. -/
def Head.admits (h : Head) (e cycles : Nat) : Bool :=
  match h.nextReserved e with
  | none => true
  | some s => h.now + ceilDiv (cycles * 2) 5 ≤ s

/-- The copy cycles when task `t` starts on engine `e` (R215). -/
def Head.copyCycles (h : Head) (t e : Nat) : Nat :=
  let last := ((h.task t).ranOn).getD (h.taskHome t)
  if last = e ∨ h.taskClass t ≠ 1 then 0
  else 8 + max (bits (h.desc t 5) 15 0) (max (bits (h.desc t 6) 15 0) (bits (h.desc t 7) 15 0))

/-- Copy a task's windows from the engine that ran it last (R215). The words written lose their errors; one that cannot be corrected in the
source cannot be in the copy. -/
def Head.copyWindows (h : Head) (t e : Nat) : Head :=
  let last := ((h.task t).ranOn).getD (h.taskHome t)
  if last = e then h
  else
    let src := h.engine last
    let cp (ram from_ : Tbl W24) (w : Nat) : Tbl W24 :=
      let b := bits (h.desc t w) 31 16
      ram.setList zero24 b (from_.slice zero24 b (bits (h.desc t w) 15 0))
    let covers (w : Nat × Nat) : Bool := 1 ≤ w.1 && inWindow (bits (h.desc t (4 + w.1)) 31 16, bits (h.desc t (4 + w.1)) 15 0) w.2
    h.setEngine e (fun g => { g with
      xRam := cp g.xRam src.xRam 5, yRam := cp g.yRam src.yRam 6, cRam := cp g.cRam src.cRam 7
      flawed := g.flawed.filter (fun w => !covers w), bad := g.bad.filter (fun w => !covers w) ++ src.bad.filter covers })

/-- The earliest of a list by a measure; the first of equals. -/
def firstBy (f : Nat → Nat) : List Nat → Option Nat
  | [] => none
  | x :: xs =>
    match firstBy f xs with
    | none => some x
    | some y => if f x ≤ f y then some x else some y

/-- The next privileged entry (R211). -/
def Head.nextPriv (h : Head) : Option Nat := ((List.range 64).findSome? (fun k => (h.level k).head?))

/-- The engine's privileged core cycles in this Bell are within the reserve (R213). -/
def Head.inReserve (h : Head) (e : Nat) : Bool := h.sched.privUsed.toList.getD e 0 < h.fld SCHED_CFG_PRIV_RES

/-- Acyclic task `t` may start on engine `e` (R215, R216); the first time on its home engine only (Table 09-2, HOME). -/
def Head.acyclicFits (h : Head) (t e : Nat) : Bool :=
  let last := ((h.task t).ranOn).getD (h.taskHome t)
  (last == e || (h.taskMigrates t && (h.task t).ranOn.isSome && !h.engineFree last)) &&
    h.admits e (h.taskBudget t + h.copyCycles t e)

/-- The Machine Time in ns of the DEADLINE of a task's last release (R214, R219). -/
def Head.dueNs (h : Head) (t : Nat) : Nat :=
  match (h.task t).rels with
  | r :: _ => r.2.1
  | [] => h.bell.instant + 5 * h.taskDeadline t

/-- The work offered to a free engine (R214): the task, and whether it goes beyond the privileged reserve. -/
def Head.offer (h : Head) (e : Nat) : Option (Nat × Bool) :=
  let ready (c : Nat) : List Nat := h.recipeTasks.filter (fun t => h.taskState t == 2 && h.taskClass t == c)
  let priv := if h.inReserve e then h.nextPriv else none
  match priv with
  | some t => some (t, false)
  | none =>
    match firstBy (fun t => h.dueNs t * 1024 + t) ((ready 0).filter (fun t => h.taskHome t == e)) with
    | some t => some (t, false)
    | none =>
      let acy := (ready 1).filter (fun t => h.acyclicFits t e)
      let ran (t : Nat) : Bool := (h.task t).ranOn == some e
      match firstBy (fun t => (h.task t).readySince + (if ran t then 0 else 2 ^ 64)) acy with
      | some t => some (t, false)
      | none =>
        match h.nextPriv with
        | some t => if h.admits e (h.taskBudget t) then some (t, true) else none
        | none => none

/-- Offer work to an engine (R214). -/
def Head.dispatch (h : Head) (e : Nat) : Head :=
  if !h.engineFree e then h
  else
    match h.offer e with
    | none => h
    | some (t, beyond) =>
      let h := if beyond then h.put SCHED_EVT_PRIV_DEFER 1 else h
      let h := if h.taskClass t = 1 then h.copyWindows t e else h
      h.startTask t e

/-- Core cycles that a parked engine has waited and that no count holds yet: 5 in two ticks. -/
def Head.parkWait (h : Head) (e : Nat) : Nat :=
  let g := h.engine e
  if g.mode = .parked then h.now * 5 / 2 - g.parkTick * 5 / 2 else 0

/-- The wait of a parked engine counts up to now (R223, LE_BUSY). -/
def Head.parkSpend (h : Head) (e : Nat) : Head :=
  if (h.engine e).mode = .parked then (h.spend e (h.parkWait e)).setEngine e (fun g => { g with parkTick := h.now }) else h

/-- A release reaches a parked task, which stops behind PARK while LE_CTL.HALT stands, or is latched before PARK (R197, R204). -/
def Head.release (h : Head) (e : Nat) : Head :=
  let halt := h.on (LE_CTL_HALT e)
  match (h.engine e).mode with
  | .parked => (h.parkSpend e).setEngine e (fun g => { g with mode := if halt then .halted else .running, held := halt, released := false })
  | .running => h.setEngine e (fun g => { g with released := true })
  | _ => h

/-- The task's command slot is an express slot. -/
def Head.expressTask (h : Head) (t : Nat) : Bool := ((h.taskCmd t).bind h.cmdSlot?).any (·.express)

/-- Note a release of task `t` (R219): its tick, its DEADLINE from the edge of this Bell, whether a window close caused it. -/
def Head.noteRelease (h : Head) (t : Nat) (closing : Bool) : Head :=
  h.setTask t (fun x => { x with rels := ((h.now, h.bell.instant + 5 * h.taskDeadline t, closing) :: x.rels).take 64 })

/-- RX of a task's report slot (R197, R208, R210): the flag, and the release of the task's run on an engine; before a run starts the
release is latched for its PARK. It is a release of a task that RX makes ready and of an express one (R219). A run that a disable
caught parked is released on to its END (R222). -/
def Head.releaseTask (h : Head) (t : Nat) (valid closing : Bool) : Head :=
  let miss := if valid then 0 else min 3 ((h.task t).rxMiss + 1)
  let h := h.setTask t (fun x => { x with rxValid := valid, rxMiss := miss })
  if h.taskState t = 0 then
    match (h.task t).ranOn with
    | some e => if (h.task t).discard ∧ (h.engine e).tid = t ∧ !(h.engine e).bench then h.release e else h
    | none => h
  else
    let h := if bit (h.taskMask t) 1 || h.expressTask t then h.noteRelease t closing else h
    let h := match h.taskState t, (h.task t).ranOn with
      | 3, some e => if (h.engine e).tid = t ∧ !(h.engine e).bench then h.release e else h
      | _, _ => h.setTask t (fun x => { x with latched := true })
    h.setFlag t 1

/-- The BELL flag of task `t` (R207): a release when its mask holds BELL. -/
def Head.bellFlag (h : Head) (t : Nat) : Head :=
  if h.taskState t = 0 then h
  else
    let h := if bit (h.taskMask t) 0 then (h.noteRelease t false).setTask t (fun x => { x with latched := false }) else h
    h.setFlag t 0

/-- The load of R223 from the cycles of the last Bells: total and cyclic part in steps of 0.01 %. -/
def loadOf (bells : List (Nat × Nat)) (ticks : Nat) : Nat × Nat :=
  let n := bells.length
  if n = 0 then (0, 0)
  else
    let s := (bells.map (·.1)).foldl (· + ·) 0
    let c := (bells.map (·.2)).foldl (· + ·) 0
    (s * 20000 / (16 * n * ticks * 5), c * 20000 / (16 * n * ticks * 5))

/-- Close a Bell's load figures at its end (R223), the waits of parked engines counted; `first` says that no Bell has ended yet. -/
def Head.closeLoad (h : Head) (first : Bool) : Head :=
  let h := (List.range 16).foldl (fun (h : Head) e => h.parkSpend e) h
  let s := h.sched
  let bells := if first then s.load else ((s.busyNow, s.cyclicNow) :: s.load).take 256
  let l := loadOf bells h.bellTicks
  let h := { h with sched := { s with load := bells, busyNow := 0, cyclicNow := 0, privUsed := Vector.replicate 16 0 } }
  let h := (h.put SCHED_LOAD_CYC l.2).put SCHED_LOAD_TOTAL l.1
  h.put SCHED_LOAD_PEAK_PEAK (max l.1 (h.fld SCHED_LOAD_PEAK_PEAK))

/-! ## Overruns (R219, R220) -/

/-- The departure instant `t` of the slot of task `k` is an overrun (R219): its paired release has occurred and no commit
since then completed before the instant. `express` spares a window-close release. -/
def Head.isOverrun (h : Head) (k t : Nat) (express : Bool) : Bool :=
  h.taskEnabled k && !h.bell.gatesOff &&
    (match (h.task k).rels.find? (fun r => h.time.mt.tickOf (r.2.1 * 2 ^ 32) ≤ t) with
     | some r => !(express && r.2.2) && !((h.task k).commits.any (fun c => r.1 ≤ c && c < t))
     | none => false)

/-- The samples that a process task which overran owes its loops count as held (R322). -/
def Head.holdSamples (h : Head) (t : Nat) : Head :=
  ((h.taskStation t).elim [] h.loopsOf).foldl (fun (h : Head) i =>
    if (h.loop i).owed.any (·.due) then
      (h.bump (PL_CNT_HELD i)).setLoop i (fun x => { x with owed := x.owed.map (fun o => { o with due := false }) })
    else h) h

/-- An overrun of task `t`: counted; the third in a row disables it with fault OVERRUN, and is a divergence at a Substitute (R406). -/
def Head.overrun (h : Head) (t : Nat) : Head :=
  let h := ((h.bump (SCHED_OVR t)).put SCHED_EVT_OVERRUN 1).holdSamples t
  let n := h.fld (SCHED_TSTAT_CONSEC t) + 1
  if h.substitute then (if n < 3 then h else h.diverge).put (SCHED_TSTAT_CONSEC t) (n % 3)
  else if n < 3 then h.put (SCHED_TSTAT_CONSEC t) n
  else
    let h := (h.put SCHED_EVT_OVR_FAULT 1).failTask t 2 0xF0
    h.raise 0 6 0

end Sys2Proof.Machine
end

