-- ==== Sys2Proof/Machine/Process.lean ====
section
/-! DEFINITION. Process loops (chapter 13): the compensators and the FOPDT model as pure steps, the modes and their
transfers, the relay auto-tune, faults and alarms, and the run of a process node's loops in its process task. -/

namespace Sys2Proof.Machine

/-! ## Compensators and model (R311, R319) -/

/-- u(k) before the clamp, and OUT: R311 on the histories `e` (e(k) first) and `u` (u(k-1) first); `coef` holds B0 to B3 and
A1 to A3. -/
def pzStep (third : Bool) (coef e u : List Int) (ks outMin outMax : Nat) : Nat :=
  let n := if third then 4 else 3
  let at_ (l : List Int) (i : Nat) : Int := l.getD i 0
  let b := (List.range n).foldl (fun (s : Int) j => s + 2 * at_ coef j * at_ e j) 0
  let a := (List.range (n - 1)).foldl (fun (s : Int) j => s + 2 * at_ coef (4 + j) * at_ u j) 0
  let s := satInt 56 (satInt 56 (a + b) * 2 ^ ks)
  let v := sat24 (satInt 56 (divEven s (2 ^ 24) * 2 ^ 24) / 2 ^ 24)
  let c := max ((outMin : Int) * 128) (min ((outMax : Int) * 128) v)
  (divEven c 128).toNat

/-- The FOPDT step of R319: the new y_m and r, from y_m, PV_s, the duty `ud` of D samples ago, K (Q8.24), α, Y0, CORR. -/
def fopdtStep (ym pv ud k y0 : Int) (alpha corr : Nat) : Int × Int :=
  let ku := sat24 (divEven (k * ud) (2 ^ 24))
  let d := sat24 (sat24 (y0 + ku) - ym)
  let y1 := sat24 (ym + sat24 (divEven ((alpha : Int) * d) (2 ^ 24)))
  let y2 := if corr = 0 then y1 else sat24 (y1 + divEven (sat24 (pv - y1)) (2 ^ corr))
  (y2, sat24 (pv - y2))

/-- The stored A-coefficients sum to 2^(23 - KS) (R312). -/
def integralAction (form ks : Nat) (coef : List Int) : Bool :=
  let a := coef.getD 4 0 + coef.getD 5 0 + (if form = 0 then 0 else coef.getD 6 0)
  decide (a * 2 ^ ks = 2 ^ 23)

/-- ΣB of the stored coefficients. -/
def sumB (form : Nat) (coef : List Int) : Int :=
  coef.getD 0 0 + coef.getD 1 0 + coef.getD 2 0 + (if form = 0 then 0 else coef.getD 3 0)

/-! ## Registers of a loop -/

/-- The coefficient registers: B0 to B3, A1 to A3. -/
def Head.coefRegs (h : Head) (i : Nat) : List Int :=
  [h.rdQ (PL_B0 i), h.rdQ (PL_B1 i), h.rdQ (PL_B2 i), h.rdQ (PL_B3 i), h.rdQ (PL_A1 i), h.rdQ (PL_A2 i), h.rdQ (PL_A3 i)]

def Head.plMode (h : Head) (i : Nat) : Nat := h.fld (PL_MODE_MODE i)
def Head.plMin (h : Head) (i : Nat) : Nat := h.fld (PL_OUTLIM_OUT_MIN i)
def Head.plMax (h : Head) (i : Nat) : Nat := h.fld (PL_OUTLIM_OUT_MAX i)

/-- Put the emitted duty and EN of loop `i`. -/
def Head.emit (h : Head) (i : Nat) (en : Bool) (out : Nat) : Head := h.setLoop i (fun x => { x with en := en, out := out })

/-- A duty clamped to the loop's limits. -/
def Head.clampOut (h : Head) (i out : Nat) : Nat := max (h.plMin i) (min (h.plMax i) out)

/-- The command word of mode FAULT (Table 13-1). -/
def Head.emitFault (h : Head) (i : Nat) : Head :=
  if h.fld (PL_CFG_FAIL i) = 1 then h.emit i true (h.fld (PL_CFG_FAIL_OUT i)) else h.emit i false 0

/-- The loop's sample instants (R309). -/
def Head.sampleDue (h : Head) (i : Nat) : Bool :=
  let d := max 1 (h.fld (PL_RATE_DIV i))
  (h.bell.cyclicCount + d - h.fld (PL_RATE_PHASE i) % d) % d == 0

/-- Ts in ns. -/
def Head.tsNs (h : Head) (i : Nat) : Nat := max 1 (h.fld (PL_RATE_DIV i)) * h.bellTicks * 5

/-! ## Transfers (R313 to R315) -/

/-- One AUTO sample on e(k) already formed (R311). -/
def Head.autoRun (h : Head) (i : Nat) (e : List Int) : Head :=
  let x := h.loop i
  let out := pzStep (x.form == 1) x.coef e x.u x.ks (h.plMin i) (h.plMax i)
  let h := h.setLoop i (fun x => { x with e := e.take 4, u := (((out : Int) * 128) :: x.u).take 4 })
  h.emit i true out

/-- The preset of R314 from the last emitted output, and the first AUTO sample. -/
def Head.presetAuto (h : Head) (i uLast : Nat) : Head :=
  let x := h.loop i
  let sp := if h.rdQ (PL_SP_RAMP i) ≠ 0 then x.pvs else h.rdQ (PL_SP i)
  let e := sat24 (sp - x.pvs)
  let ul : Int := (uLast : Int) * 128
  let int := integralAction x.form x.ks x.coef
  let raw := divEven (ul * 2 ^ 23 - e * sumB x.form x.coef * 2 ^ x.ks) (2 ^ 23)
  let u0 := if int then sat24 raw else ul
  let bump := !int || decide (u0 ≠ raw)
  let h := if bump then h.put (PL_STAT_BUMP i) 1 else h
  let h := (h.put (PL_MODE_MODE i) 2).setLoop i (fun x => { x with spAct := sp, u := [u0, u0, u0, u0] })
  h.autoRun i [e, e, e, e]

/-- Into MANUAL; from AUTO or TUNE the output does not move (R315). -/
def Head.presetManual (h : Head) (i uLast : Nat) (keep : Bool) : Head :=
  let h := if keep then h.put (PL_MAN_MAN i) uLast else h
  let h := h.put (PL_MODE_MODE i) 1
  h.emit i true (h.clampOut i (h.fld (PL_MAN_MAN i)))

/-! ## Tune results (Table 13-3) -/

/-- A tune at the start of a phase. -/
def Tune.start (phase bell mode : Nat) : Tune :=
  { phase := phase, startBell := bell, k := 0, pv0 := 0, window := [], up := false, dead := none, high := false, started := false
    cycleAt := 0, hi := 0, lo := 0, cycles := [], prevMode := mode, stepAt := 0, neg := false }

/-- The results of a tune (R317) in double precision, in seconds and per unit, in the order of Table 13-3: none is FIT. `span` is the sum of
the PV spans of the four cycles, `per` the sum of their samples, `th` the dead time in samples. -/
def tuneFit (t : Tune) (amp bias hys : Nat) (per : Nat) (span : Int) (th tsNs lambda : Nat) : Option (Fit × Dbl) :=
  let one := Dbl.ofInt 1
  let sec (ns den : Nat) : Dbl := (Dbl.ofInt ns).div (Dbl.ofInt (den * 10 ^ 9 : Nat))
  let a := Dbl.round span (-26)
  let hy := Dbl.round hys (-23)
  let ts := sec tsNs 1
  let theta := sec (th * tsNs) 1
  let wu := ((Dbl.ofInt 2).mul .pi).div (sec (per * tsNs) 4)
  let wt := wu.mul theta
  if !hy.lt a || !(Dbl.pi.div (.ofInt 2)).lt wt || !wt.lt .pi then none
  else
    let ku := ((Dbl.ofInt 4).mul (.round amp (-16))).div (Dbl.pi.mul ((a.mul a).sub (hy.mul hy)).sqrt)
    let tau := (Dbl.pi.sub wt).tan.div wu
    let k0 := (one.add ((wu.mul tau).mul (wu.mul tau))).sqrt.div ku
    let k := if t.neg then k0.neg else k0
    let y0 := (Dbl.round t.pv0 (-29)).sub (k.mul (.round bias (-16)))
    let lam0 := (Dbl.ofInt lambda).div (.ofInt 10)
    let lam := if lam0.lt theta then theta else lam0
    let kc := tau.div (k.mul (lam.add theta))
    some (⟨kc.mul (one.add (ts.div tau)), kc.neg, k, y0, tau, th⟩, ku)

/-- Write the result registers of a tune that ended OK. -/
def Head.showFit (h : Head) (i : Nat) (f : Fit) (ku : Dbl) (per : Nat) : Head :=
  let top (x : Int) : Nat := min (2 ^ 32 - 1) x.toNat
  let ms (ns den : Nat) : Nat := top (divEven ns (den * 10 ^ 6))
  let q (x : Dbl) : Int := satInt 32 (x.toInt 24)
  let h := h.wr (PL_TUNE_KU i) (top (ku.toInt 24))
  let h := (h.wr (PL_TUNE_PU i) (ms (per * h.tsNs i) 4)).wr (PL_TUNE_THETA i) (ms (f.theta * h.tsNs i) 1)
  let h := (h.wr (PL_TUNE_TAU i) (top ((f.tau.mul (.ofInt 1000)).toInt 0))).wrInt (PL_TUNE_K i) (q f.k)
  let h := h.wrQ (PL_TUNE_Y0 i) (f.y0.toInt 23)
  (h.wrInt (PL_TUNE_B0 i) (q f.b0)).wrInt (PL_TUNE_B1 i) (q f.b1)

/-- End a tune with a result: the event, and the way back to the mode it came from with u_last = BIAS (R317). -/
def Head.endTune (h : Head) (i result : Nat) (back : Bool) : Head :=
  match (h.loop i).tune with
  | none => h
  | some t =>
    let h := (h.put (PL_STAT_RESULT i) result).put (PL_STAT_PHASE i) 0
    let h := h.raise 4 (if result = 1 then 2 else 3) i
    let h := h.setLoop i (fun x => { x with tune := none, abortTune := false })
    let bias := h.fld (PL_TUNE_OUT_BIAS i)
    if !back then h
    else if t.prevMode = 2 then h.presetAuto i bias
    else h.presetManual i bias true

/-- The first cycle starts at the first switch to BIAS + AMP; each later switch ends one. -/
def switchUp (t : Tune) (pv : Int) : Tune :=
  if t.started then { t with cycles := (t.k - t.cycleAt, t.hi - t.lo) :: t.cycles, cycleAt := t.k, hi := pv, lo := pv }
  else { t with started := true, cycleAt := t.k, hi := pv, lo := pv }

/-- Four values lie within 10 % of their mean. -/
def steady (l : List Int) : Bool :=
  let s := l.foldl (· + ·) 0
  l.length == 4 && l.all (fun x => (4 * x - s).natAbs * 10 ≤ s.natAbs)

/-- One sample of a tune (Table 13-2). -/
def Head.tuneSample (h : Head) (i : Nat) : Head :=
  match (h.loop i).tune with
  | none => h
  | some t =>
    let pv := (h.loop i).pvs
    let bias := h.fld (PL_TUNE_OUT_BIAS i)
    let amp := h.fld (PL_TUNE_OUT_AMP i)
    let hys := h.fld (PL_TUNE_HYS_HYS i)
    let sp := h.rdQ (PL_SP i)
    let t := { t with k := t.k + 1, hi := max t.hi pv, lo := min t.lo pv }
    let win := if t.phase = 1 then (pv :: t.window).take 64 else t.window
    let spanW := win.foldl max (win.headD 0) - win.foldl min (win.headD 0)
    let settled := t.phase = 1 ∧ win.length = 64 ∧ spanW ≤ 2 * hys
    let s64 := win.foldl (· + ·) 0
    let t := { t with window := win }
    let t := if settled then
        let up := decide (sp * 64 > s64)
        { t with phase := 2, pv0 := s64, up := up, high := up, stepAt := t.k, window := [] }
      else t
    let off := 64 * pv - t.pv0
    let t := if t.phase ≥ 2 ∧ t.dead.isNone ∧ off.natAbs > 128 * hys then
        { t with dead := some (t.k - t.stepAt), neg := decide (off < 0) == t.up }
      else t
    let crossed := t.phase = 2 ∧ t.k ≠ t.stepAt ∧ (if t.up then pv ≥ sp else pv ≤ sp)
    let t := if crossed then { t with phase := 3 } else t
    let t := if t.phase = 3 then
        if t.high ∧ pv > sp + hys then { t with high := false }
        else if !t.high ∧ pv < sp - hys then switchUp { t with high := true } pv
        else t
      else t
    let four := t.cycles.take 4
    let conv := t.phase = 3 ∧ t.cycles.length ≥ 6 ∧ steady (four.map (fun c => (c.1 : Int))) ∧ steady (four.map (·.2))
    let h := (h.setLoop i (fun x => { x with tune := some t })).put (PL_STAT_PHASE i) t.phase
    if conv then
      let per := (four.map (·.1)).foldl (· + ·) 0
      let span := (four.map (·.2)).foldl (· + ·) 0
      match tuneFit t amp bias hys per span ((t.dead).getD 0) (h.tsNs i) (h.fld (PL_TUNE_TIME_LAMBDA i)) with
      | some r => ((h.showFit i r.1 r.2 per).setLoop i (fun x => { x with fit := some r.1 })).endTune i 1 true
      | none => h.endTune i 2 true
    else if t.phase = 3 ∧ t.cycles.length ≥ 16 then h.endTune i 3 true
    else
      let out := if t.phase = 1 then bias else if t.high then bias + amp else bias - amp
      h.emit i true out

/-- Start a tune (R316): the results are cleared. -/
def Head.startTune (h : Head) (i : Nat) : Head :=
  let mode := h.plMode i
  let h := [PL_TUNE_KU i, PL_TUNE_PU i, PL_TUNE_THETA i, PL_TUNE_TAU i, PL_TUNE_K i, PL_TUNE_Y0 i, PL_TUNE_B0 i,
    PL_TUNE_B1 i].foldl (fun (h : Head) a => h.wr a 0) h
  let h := (h.put (PL_MODE_MODE i) 3).put (PL_STAT_RESULT i) 0
  h.setLoop i (fun x => { x with tune := some (.start 1 h.bellNo mode), fit := none, abortTune := false })

/-! ## A sample (R309 to R319) -/

/-- The coefficient set that COMMIT asked for at an earlier Bell edge than that of Bell `b` (R313, R322). -/
def Loop.dueSet (x : Loop) (b : Nat) : Option PlSet := x.commit.filter (fun c => c.edge != b)

/-- Take that set. -/
def Head.takeSet (h : Head) (i b : Nat) : Head :=
  match (h.loop i).dueSet b with
  | some c => h.setLoop i (fun x => { x with
      coef := c.coef, form := c.form, ks := c.ks, commit := none, modelNew := x.modelNew || c.model })
  | none => h

/-- The words of the model's registers as they stand. -/
def Head.modelRegs (h : Head) (i : Nat) : List Nat :=
  [h.rd (PL_MODEL_K i), h.rd (PL_MODEL_A i), h.rd (PL_MODEL_Y0 i), h.rd (PL_MODEL_CFG i)]

/-- Model writes take effect at a sample instant: y_m is PV_s, the delay line full of the last emitted duty (PL_MODEL). -/
def Head.takeModel (h : Head) (i : Nat) : Head :=
  if (h.loop i).modelNew then
    h.setLoop i (fun x => { x with
      model := h.modelRegs i, modelNew := false, ym := x.pvs, delay := List.replicate 64 ((x.out : Int) * 128) })
  else h

/-- The model's step with the duty emitted in this sample (R319). `fresh` says that the loop left OFF or FAULT here. -/
def Head.modelRun (h : Head) (i : Nat) (fresh : Bool) : Head :=
  let x := h.loop i
  let w (k : Nat) : Nat := nth x.model k
  let u : Int := (x.out : Int) * 128
  let x := if fresh then { x with ym := x.pvs, delay := List.replicate 64 u } else x
  let d := bits (w 3) 6 0
  let ud := if d = 0 then u else x.delay.getD ((x.delayAt + 128 - d) % 64) u
  let y := fopdtStep x.ym x.pvs ud (sext 32 (w 0)) (sext 24 (bits (w 2) 31 8)) (bits (w 1) 31 8) (bits (w 3) 15 12)
  let lim := bits (w 3) 31 24
  let off := lim ≠ 0 ∧ y.2.natAbs > lim * 2048
  let n := if off then x.resRun + 1 else 0
  let h := if off then h.bump (PL_CNT_IMPL i) else h
  let h := h.setLoop i (fun _ => { x with
    delay := x.delay.set x.delayAt u, delayAt := (x.delayAt + 1) % 64, ym := y.1, res := y.2, resRun := n })
  if off ∧ n ≥ max 1 (bits (w 3) 23 16) then h.loopFault i 3 else h

/-- The deviation alarm of R320. -/
def Head.deviation (h : Head) (i : Nat) : Head :=
  let d := (h.rdQ (PL_SP i) - (h.loop i).pvs).natAbs
  let dev := h.fld (PL_ALARM_DEV i)
  if dev = 0 ∨ h.plMode i ≠ 2 then h
  else if d > dev * 128 ∧ !(h.loop i).devOut then (h.raise 4 1 i).setLoop i (fun x => { x with devOut := true })
  else if d ≤ dev * 64 then h.setLoop i (fun x => { x with devOut := false })
  else h

/-- The loop values of the last sample (PL_PV to PL_RES). -/
def Head.showLoop (h : Head) (i : Nat) : Head :=
  let x := h.loop i
  (((h.wrQ (PL_PV i) x.pvs).wrQ (PL_OUT i) ((x.out : Int) * 128)).wrQ (PL_SP_ACT i) x.spAct).wrQ (PL_RES i) x.res

/-- The run of the loop's mode in a sample of Bell `b` that is not held; `newSet` says that a set was taken here. A request acts at the
first sample instant after the edge it took effect at (R314). -/
def Head.modeRun (h : Head) (i b : Nat) (newSet : Bool) : Head :=
  let was := h.plMode i
  let uLast := (h.loop i).out
  let due := (h.loop i).request.filter (fun r => r.2 != some b)
  let req := due.filter (fun r => !(r.1 == 2 && was == 2))
  let h := if due.isSome then h.setLoop i (fun x => { x with request := none }) else h
  let h :=
    if (h.loop i).tune.isSome ∧ (h.loop i).abortTune then h.endTune i 5 true
    else match req.map (·.1) with
    | some 1 => (if was = 3 then h.endTune i 5 false else h).presetManual i uLast (was == 2 || was == 3)
    | some 2 => (if was = 3 then h.endTune i 5 false else h).presetAuto i (if was = 0 then 0 else uLast)
    | some 3 => (h.startTune i).tuneSample i
    | _ =>
      match was with
      | 1 => h.emit i true (h.clampOut i (h.fld (PL_MAN_MAN i)))
      | 2 =>
        if newSet then h.presetAuto i uLast
        else
          let x := h.loop i
          let sp := h.rdQ (PL_SP i)
          let ramp := h.rdQ (PL_SP_RAMP i)
          let spAct := if ramp = 0 then sp else x.spAct + max (-ramp) (min ramp (sp - x.spAct))
          let h := h.setLoop i (fun x => { x with spAct := spAct })
          h.autoRun i (sat24 (spAct - x.pvs) :: x.e)
      | 3 => h.tuneSample i
      | _ => h
  let now := h.plMode i
  let h := if now = 1 ∨ now = 2 ∨ now = 3 then h.modelRun i (was == 0 || was == 4) else h
  h.deviation i

/-- A sample instant of loop `i` in Bell `b` (R309, R310, R313, R322). -/
def Head.sampleRun (h : Head) (i b : Nat) : Head :=
  let x := h.loop i
  if x.cnt = 0 then h.bump (PL_CNT_HELD i)
  else
    let pvs := divEven x.sum x.cnt
    let h := h.setLoop i (fun x => { x with pvs := pvs, sum := 0, cnt := 0 })
    let h := if pvs > (h.fld (PL_ALARM_PV_HI i) : Int) * 128 then h.loopFault i 2 else h
    let newSet := ((h.loop i).dueSet b).isSome
    let h := (h.takeSet i b).takeModel i
    let h := if h.plMode i = 4 ∨ h.on (PL_STAT_ISTOP_ACT i) then h else h.modeRun i b newSet
    h.showLoop i

/-- The channel word of a release in a loop's run: the PV into the sum, the faults of CH_STAT; without one NOREPORT after REP_LIM
Bells (R309, R310, R320). -/
def Head.loopReport (h : Head) (i : Nat) (w : Option Nat) : Head :=
  match w with
  | some w =>
    let st := bits w 7 0
    let h := h.setLoop i (fun x => { x with sum := satInt 48 (x.sum + sext 24 (bits w 31 8)), cnt := x.cnt + 1, chStat := st })
    let h := if bit st 0 ∨ bit st 1 then h.loopFault i 0 else h
    let h := if bit st 2 then h.loopFault i 1 else h
    if bit st 3 then h.loopFault i 2 else h
  | none => if (h.loop i).noReport ≥ max 1 (h.fld (PL_REPLIM_REP_LIM i)) then h.loopFault i 4 else h

/-- A stop request for the loop's group: a running tune ends ABORTED (R322); with ISTOP the loop sends EN 0 and OUT 0, and enters MANUAL with
PL_MAN 0 when the request has cleared (R321). -/
def Head.loopIsland (h : Head) (i : Nat) : Head :=
  let want := h.loopStop i ≠ 0
  let h := if want ∧ (h.loop i).tune.isSome then h.endTune i 5 true else h
  if want ∧ h.on (PL_CFG_ISTOP i) then (h.put (PL_STAT_ISTOP_ACT i) 1).emit i false 0
  else if h.on (PL_STAT_ISTOP_ACT i) then
    let h := (h.put (PL_STAT_ISTOP_ACT i) 0).put (PL_MAN_MAN i) 0
    if h.plMode i = 4 then h
    else
      let u : Int := (h.clampOut i 0 : Nat) * 128
      let h := if h.plMode i = 0 then h.setLoop i (fun x => { x with ym := x.pvs, delay := List.replicate 64 u }) else h
      (h.put (PL_MODE_MODE i) 1).emit i true (h.clampOut i 0)
  else h

/-- The run of loop `i` for the release it owes (R308, R309, R310, R320, R321). -/
def Head.loopBell (h : Head) (i : Nat) : Head :=
  match (h.loop i).owed with
  | none => h
  | some o =>
    let h := ((h.setLoop i (fun x => { x with owed := none })).loopReport i o.word).loopIsland i
    let late : Bool := (h.loop i).tune.any (fun t =>
      bellsSince h.bellNo t.startBell * h.bellTicks * 5 > h.fld (PL_TUNE_TIME_TMO i) * 10 ^ 9)
    let h := if late then h.endTune i 4 true else h
    let h := if o.due then h.sampleRun i o.bell else h
    if h.on (PL_STAT_ISTOP_ACT i) then h.emit i false 0
    else if h.plMode i = 4 then h.emitFault i
    else if h.plMode i = 0 then h.emit i false 0
    else h

/-- The loops of a station in ascending channel order. -/
def Head.loopsInOrder (h : Head) (s : Nat) : List Nat :=
  let ls := h.loopsOf s
  (List.range 16).flatMap (fun c => ls.filter (fun i => h.fld (PL_MAP_CHAN i) == c))

/-- The command words of a process node: OUT and EN of each loop's channel, 0 elsewhere (R113, R308). -/
def Head.processWords (h : Head) (s len : Nat) : List Word :=
  let ls := h.loopsOf s
  (List.range len).map (fun c =>
    match ls.find? (fun i => h.fld (PL_MAP_CHAN i) == c) with
    | some i => BitVec.ofNat 32 ((h.loop i).out * 65536 + b2n (h.loop i).en)
    | none => 0)

/-- A stop request that comes after the process task's run of a Bell still takes the outputs of that Bell: the tunes of its group's loops
end ABORTED, each loop with ISTOP 1 sends EN 0 and OUT 0 (R321, R322). -/
def Head.loopsStop (h : Head) : Head :=
  h.stations.foldl (fun (h : Head) s =>
    let hit := (h.loopsOf s).filter (fun i => h.loopStop i != 0 &&
      ((h.loop i).tune.isSome || (h.on (PL_CFG_ISTOP i) && !h.on (PL_STAT_ISTOP_ACT i))))
    if hit.isEmpty then h
    else
      let h := hit.foldl (fun (h : Head) i => h.loopIsland i) h
      (h.cmdSlotsOf s).foldl (fun (h : Head) x =>
        let ws := h.processWords s (h.slot (x.lane * 256 + x.slot)).payload.length
        h.setSlot (x.lane * 256 + x.slot) (fun y => { y with payload := ws, before := (ws, y.before.2) })) h) h

/-- The release of a process node's task by its report or by the window close: what it owes each loop (R308, R310); nothing while that task is
disabled (R222). A release not yet run when the next comes leaves its sample held. -/
def Head.processDue (h : Head) (s : Nat) (valid : Bool) : Head :=
  if !(h.tasksOfStation s).any (fun t => h.taskEnabled t) then h
  else
    let rx := (h.node s).report.payload
    (h.loopsOf s).foldl (fun (h : Head) i =>
      let h := if (h.loop i).owed.any (·.due) then h.bump (PL_CNT_HELD i) else h
      h.setLoop i (fun x => { x with
        noReport := if valid then 0 else x.noReport + 1
        owed := some ⟨if valid then some (wordAt rx (h.fld (PL_MAP_CHAN i))) else none, h.sampleDue i, h.bellNo⟩ })) h

/-- The COMMIT of a process node's task: its loops run in ascending channel order and the node's command is committed (R308). In the
gates-off period of R73 it sends EN = 0. -/
def Head.processRun (h : Head) (s : Nat) : Head :=
  let h := (h.loopsInOrder s).foldl (fun (h : Head) i => h.loopBell i) h
  let ws := h.processWords s (((h.cmdSlotsOf s).map (·.len)).foldl max 0)
  h.commitStation s (if h.bell.gatesOff then ws.map (fun _ => 0) else ws)

/-! ## The loop record (R309, R323, Table 13-7) -/

/-- X words 0 to 14 and 23 to 87 of a loop's record. -/
def Loop.recordX (x : Loop) : List (Nat × Int) :=
  let s := toBits 48 x.sum
  (((x.e ++ x.u ++ [x.spAct, x.pvs, (x.cnt : Int), ((s / 2 ^ 24 : Nat) : Int), ((s % 2 ^ 24 : Nat) : Int), x.ym, x.res]).zipIdx).map
    (fun w => (w.2, w.1))) ++ (x.delay.zipIdx.map (fun w => (23 + w.2, w.1))) ++ [(87, (x.delayAt : Int))]

/-- The Y words of a loop's record. -/
def Head.recordY (h : Head) (i : Nat) : List (Nat × Int) :=
  let x := h.loop i
  let w (k : Nat) : Nat := nth x.model k
  let n (k : Nat) : Int := (k : Int)
  let k := w 0
  ((x.coef ++ [n (x.ks * 65536 + h.plMin i), n (h.plMax i), n (k / 2 ^ 24), n (k % 2 ^ 24), n (bits (w 1) 31 8), n (bits (w 2) 31 8),
    n (bits (w 3) 6 0), n (bits (w 3) 15 12), n (bits (w 3) 31 24)]).zipIdx).map (fun w => (w.2, w.1))

/-- Words of a record into a window, as far as the window holds them. -/
def putRecord (ram : Tbl W24) (win : Nat × Nat) (base : Nat) (ws : List (Nat × Int)) : Tbl W24 :=
  (ws.filter (fun w => decide (base + w.1 < win.2))).foldl (fun (r : Tbl W24) w => r.set zero24 (win.1 + base + w.1) (w24 w.2)) ram

/-- The records of the loops of task `t`'s station in its windows on engine `e`: X words 96c and Y words 16c for channel c. X words 15 to
22, fault counts, held count and tune state, have no layout in the spec and are free. -/
def Head.loopRecords (h : Head) (t e : Nat) : Head :=
  let win (w : Nat) : Nat × Nat := (bits (h.desc t w) 31 16, bits (h.desc t w) 15 0)
  match (h.taskCmd t).bind h.cmdSlot? with
  | none => h
  | some x => (h.loopsOf x.station).foldl (fun (h : Head) i =>
      let c := h.fld (PL_MAP_CHAN i)
      let free := (List.range 8).map (fun k => (15 + k, (Config.freeW24 (8 * h.draws + k)).toInt))
      h.draw.setEngine e (fun g => { g with
        xRam := putRecord g.xRam (win 5) (96 * c) ((h.loop i).recordX ++ free)
        yRam := putRecord g.yRam (win 6) (16 * c) (h.recordY i) })) h

/-! ## COMMIT and END -/

/-- COMMIT: the staging bank becomes what the slot sends (R197, R222), at a process node the command of its loops (R308). In an express
task whose report was missing the staging bank holds nothing new and nothing is committed (R24). -/
def Head.commitStage (h : Head) (e : Nat) : Head :=
  let g := h.engine e
  let t := g.tid
  let h := h.setEngine e (fun g => { g with dirty := false })
  if g.bench ∨ (h.task t).discard ∨ h.taskState t = 0 ∨ (h.expressTask t ∧ !g.dirty) then h
  else
    match (h.taskCmd t).bind h.cmdSlot? with
    | some x =>
      let h := if (h.loopsOf x.station).isEmpty then h.commitStation x.station g.stage else (h.processRun x.station).loopRecords t e
      h.setTask t (fun y => { y with commits := (h.now :: y.commits).take 64 })
    | none => h

/-- The END of a task (R197, R202, R207, R208): the engine becomes free, the chained tasks get their flag. -/
def Head.endTask (h : Head) (e : Nat) : Head :=
  let g := h.engine e
  if g.bench then h.setEngine e (fun g => { g with mode := .halted })
  else
    let t := g.tid
    let h := if g.dirty then h.commitStage e else h
    let h := h.handOver e t
    let h := h.setEngine e (fun g => { g with mode := .idle, dirty := false, mail := [] })
    let h := h.setTask t (fun x => { x with discard := false })
    let h := if h.taskState t = 3 then (h.setTaskState t 1).tryReady t else h
    (h.recipeTasks.filter (fun c => h.taskChain c == t && t != 0x3FF)).foldl (fun h c => h.setFlag c 2) h

/-! ## The host's commands at a loop

A refused write answers its status of Table 19-4: 6 BUSY for a state, 7 RANGE for a value. -/

/-- A PL_MODE request (R314, R315): AUTO and MANUAL are refused in FAULT. -/
def Head.writePlMode (h : Head) (i v : Nat) : Head × Nat :=
  if v > 2 then (h, 7)
  else if h.plMode i = 4 ∧ v ≠ 0 then (h, 6)
  else (h.shadow (PL_MODE i) v, 0)

/-- A write of PL_MAN, refused outside MANUAL and OFF (R315). -/
def Head.writePlMan (h : Head) (i v : Nat) : Head × Nat :=
  if h.plMode i > 1 then (h, 6) else (h.shadow (PL_MAN i) (v / 65536 * 65536), 0)

/-- Why PL_CMD.TUNE is refused (R316): 0 accepted, else PL_CMD.REFUSE. -/
def Head.tuneRefuse (h : Head) (i : Nat) : Nat :=
  let bias := h.fld (PL_TUNE_OUT_BIAS i)
  let amp := h.fld (PL_TUNE_OUT_AMP i)
  if h.plMode i ≠ 1 ∧ h.plMode i ≠ 2 then 1
  else if h.fld (PL_STAT_FAULT i) ≠ 0 then 2
  else if h.loopStop i ≠ 0 then 3
  else if amp = 0 ∨ h.rdQ (PL_TUNE_HYS i) ≤ 0 ∨ h.fld (PL_TUNE_TIME_TMO i) = 0 ∨ bias < h.plMin i + amp ∨
    bias + amp > h.plMax i then 4
  else 0

/-- What APPLY writes (R318): KS, the three coefficients, α and D; none when no OK result stands or a value does not fit. -/
def Head.applySet (h : Head) (i : Nat) : Option (Nat × Int × Int × Int × Nat × Nat) :=
  match (h.loop i).fit with
  | none => none
  | some f =>
    let st (x : Dbl) (ks : Nat) : Int := x.toInt (23 - ks)
    let fits (x : Dbl) (ks : Nat) : Bool := decide (-(2 ^ 23) ≤ st x ks) && decide (st x ks < 2 ^ 23)
    let one := Dbl.ofInt 1
    let ts := (Dbl.ofInt (h.tsNs i)).div (.ofInt (10 ^ 9))
    let a := min (2 ^ 24 - 1) ((ts.div f.tau).decay.toInt 24).toNat
    if h.fld (PL_STAT_RESULT i) ≠ 1 ∨ f.theta > 64 ∨ a = 0 then none
    else
      match (List.range 8).find? (fun ks => fits f.b0 ks && fits f.b1 ks && fits one ks) with
      | some ks => some (ks, st f.b0 ks, st f.b1 ks, st one ks, a, f.theta)
      | none => none

/-- A write of PL_CMD (R313 to R318): refused whole with REFUSE, or its bits wait for the Bell edge (R6). -/
def Head.writePlCmd (h : Head) (i v : Nat) : Head × Nat :=
  let why :=
    if bit v 0 ∧ h.plMode i ≠ 4 then 1
    else if bit v 2 ∧ h.tuneRefuse i ≠ 0 then h.tuneRefuse i
    else if bit v 4 ∧ (h.loop i).fit.isNone then 5
    else if bit v 4 ∧ (h.applySet i).isNone then 4
    else 0
  let h := h.put (PL_CMD_REFUSE i) why
  if why = 0 then (h.shadow (PL_CMD i) (bits v 4 0), 0) else (h, if why = 4 then 7 else 6)

/-- The fault bits of loop `i` whose condition holds now (R315). -/
def Head.loopFaultsNow (h : Head) (i : Nat) : Nat :=
  let x := h.loop i
  let node := h.fld (PL_MAP_STATION i)
  let gone := h.fld (NODE_STAT_STATE node) != 1 && h.fld (NODE_STAT_STATE node) != 7
  let off := !(h.tasksOfStation node).any (fun t => h.taskEnabled t)
  b2n (bit x.chStat 0 || bit x.chStat 1) + b2n (bit x.chStat 2) * 2 +
    b2n (bit x.chStat 3 || decide (x.pvs > (h.fld (PL_ALARM_PV_HI i) : Int) * 128)) * 4 +
    b2n (decide (x.noReport ≥ max 1 (h.fld (PL_REPLIM_REP_LIM i)))) * 16 + b2n gone * 32 + b2n off * 64

/-- A mode request at its Bell edge (R314): OFF acts, every other waits for the sample instant. -/
def Head.edgePlMode (h : Head) (i v : Nat) : Head :=
  if v = 0 then
    let h := if (h.loop i).tune.isSome then h.endTune i 5 false else h
    (((h.put (PL_MODE_MODE i) 0).emit i false 0).setLoop i (fun x => { x with request := none })).showLoop i
  else h.setLoop i (fun x => { x with request := some (v, some h.bellNo) })

/-- COMMIT at its Bell edge (R313): the shadow set as it stands there, taken at the next sample instant. `model` says that APPLY wrote a model
with it. -/
def Head.edgePlCommit (h : Head) (i : Nat) (model : Bool) : Head :=
  h.setLoop i (fun x => { x with
    commit := some ⟨h.coefRegs i, h.fld (PL_CFG_FORM i), h.fld (PL_CFG_KS i), h.bellNo, model || x.commit.any (·.model)⟩ })

/-- APPLY at its Bell edge (R318). -/
def Head.edgePlApply (h : Head) (i : Nat) : Head :=
  match h.applySet i with
  | none => h
  | some (ks, b0, b1, a1, alpha, d) =>
    let h := (h.put (PL_CFG_FORM i) 0).put (PL_CFG_KS i) ks
    let h := ((h.wrQ (PL_B0 i) b0).wrQ (PL_B1 i) b1).wrQ (PL_A1 i) a1
    let h := ((h.wrQ (PL_B2 i) 0).wrQ (PL_A2 i) 0).put (PL_MODEL_A_ALPHA i) alpha
    let h := ((h.wr (PL_MODEL_K i) (h.rd (PL_TUNE_K i))).wr (PL_MODEL_Y0 i) (h.rd (PL_TUNE_Y0 i))).put (PL_MODEL_CFG_D i) d
    h.edgePlCommit i true

/-- CLR at its Bell edge (R315). -/
def Head.edgePlClr (h : Head) (i : Nat) : Head :=
  if h.plMode i ≠ 4 then h
  else
    let left := band (h.fld (PL_STAT_FAULT i)) (h.loopFaultsNow i)
    let h := (h.put (PL_STAT_FAULT i) left).setLoop i (fun x => { x with resRun := 0 })
    if left = 0 then (h.put (PL_MODE_MODE i) 0).emit i false 0 else h

/-- The bits of PL_CMD at their Bell edge. -/
def Head.edgePlCmd (h : Head) (i v : Nat) : Head :=
  let h := if bit v 0 then h.edgePlClr i else h
  let h := if bit v 1 then h.edgePlCommit i false else h
  let h := if bit v 4 then h.edgePlApply i else h
  let h := if bit v 2 then h.setLoop i (fun x => { x with request := some (3, some h.bellNo) }) else h
  if bit v 3 ∧ (h.loop i).tune.isSome then h.setLoop i (fun x => { x with abortTune := true }) else h

end Sys2Proof.Machine
end

