-- ==== Sys2Proof/Machine/MasterLaw.lean ====
section
/-! DEFINITION. Virtual masters, cams, the master front end of CTRL 3, registration, master encoders and captures
(chapter 12). -/

namespace Sys2Proof.Machine

/-! ## Scaling (R282) -/

/-- An increment scaled by NUM/DEN, truncated toward minus infinity, with the remainder carried. -/
def scaleStep (num : Int) (den : Nat) (delta rem : Int) : Int × Int :=
  let t := delta * num + rem
  let d : Int := (max 1 den : Nat)
  (t / d, t % d)

/-- A value scaled by NUM/DEN and rounded to 32 bits. -/
def scaleRound (num : Int) (den : Nat) (x : Int) : Int := satInt 32 (divEven (x * num) (max 1 den))

/-! ## Virtual masters (R282 to R288) -/

/-- The master cycle in raw Q32.16. -/
def Head.mcyc (h : Head) (v : Nat) : Int := (max 1 (h.rd (VM_MCYC v)) * 65536 : Nat)

/-- Axes on VM `v` that are not DISENGAGED. -/
def Head.followersOf (h : Head) (v : Nat) : Nat :=
  (h.allAxes.filter (fun n => h.fld (AX_FOL_CFG_VM n) == v && h.fld (AX_FOL_STAT_CLU n) != 0)).length

/-- The encoder's faults that stand (R301). -/
def Head.encFaulted (h : Head) (k : Nat) : Bool := bits (h.rd (ENC_STAT k)) 10 8 != 0

/-- The VM follows a faulted encoder. -/
def Head.vmEncFlt (h : Head) (v : Nat) : Bool :=
  h.fld (VM_CFG_SRC v) == 1 && h.encFaulted (h.fld (VM_CFG_SRC_IDX v) % 4)

/-- VM_STAT.STATE. -/
def Head.vmState (h : Head) (v : Nat) : Nat :=
  let x := h.vm v
  if h.fld (VM_CFG_SRC v) = 3 ∧ x.lost then 4
  else if h.fld (VM_CFG_SRC v) = 3 ∧ x.loose then 3
  else if h.fld (VM_CFG_SRC v) = 0 then (if x.running then 1 else if x.v ≠ 0 ∨ x.stopAt.isSome then 2 else 0)
  else if x.v ≠ 0 then 1 else 0

/-- Show a VM's values. -/
def Head.vmShow (h : Head) (v : Nat) : Head :=
  let x := h.vm v
  let h := ((h.wrSigned (VM_POS_LO v) x.m).wrInt (VM_SPD v) x.v).wrInt (VM_ACC_ACT v) x.a
  let h := (h.put (VM_STAT_FOLLOWERS v) (min 255 (h.followersOf v))).putBit (VM_STAT_ISTOP v) x.istop
  (h.putBit (VM_STAT_ENC_FLT v) (h.vmEncFlt v)).put (VM_STAT_STATE v) (h.vmState v)

/-- The target of STOP_AT: the first occurrence of STOP_POS ahead of m that leaves room to stop (R283). `r` is the speed with
24 fraction bits; the answer is the signed distance in raw Q32.16. -/
def stopAtLeft (cyc pos m r : Int) (dec : Nat) : Int :=
  let s := sgn r
  let d0 := (s * (pos - m)) % cyc
  let need := (r * r + 2 * dec * r.natAbs + 2 * dec * 256 - 1) / (2 * dec * 256)
  let k := max 0 ((need - d0 + cyc - 1) / cyc)
  s * (d0 + k * cyc)

/-- The commands of VM_CTL at their Bell edge (R283, R288). -/
def Head.edgeVmCtl (h : Head) (v bitsSet : Nat) : Head :=
  let h := if bit bitsSet 0 then h.setVm v (fun x => { x with running := true, stopAt := none, dec := 0, istop := false }) else h
  let h := if bit bitsSet 1 then h.setVm v (fun x => { x with running := false, stopAt := none, dec := b2n x.istop }) else h
  let h := if bit bitsSet 2 then h.setVm v (fun x => { x with running := false, stopAt := none, dec := 1 }) else h
  let h := if bit bitsSet 3 then
      h.setVm v (fun x =>
        let dec := max 1 (h.rd (VM_DEC v))
        if x.ramp.r = 0 ∨ x.istop then { x with running := false, stopAt := none }
        else
          let left := stopAtLeft (h.mcyc v) (h.rd (VM_STOP_POS v) * 65536) x.m x.ramp.r dec
          let e : MoveEntry := ⟨0, 0, 0, false, 0, x.ramp.r.natAbs, 1, dec, none⟩
          { x with running := false, dec := 0, stopAt := some ⟨e, (h.rd (VM_STOP_POS v) * 65536 : Nat), left, none, false, none⟩ })
    else h
  let h := if bit bitsSet 4 then h.setVm v (fun x => { x with m := h.rdSigned (VM_SET_LO v), remainder := 0 }) else h
  if bit bitsSet 5 then h.setVm v (fun x => { x with resync := true }) else h

/-- An island stop ramps the internal generator that a coupled axis follows (R297). -/
def Head.vmIsland (h : Head) (v : Nat) : Bool :=
  h.fld (VM_CFG_SRC v) == 0 && h.allAxes.any (fun n =>
    h.on (AX_FOL_CFG_ISTOP n) && h.fld (AX_FOL_CFG_VM n) == v && h.fld (AX_CTL_CTRL n) == 3 &&
    h.fld (AX_FOL_STAT_CLU n) != 0 && h.stopCode n != 0)

/-- The internal generator's Bell (R283). -/
def Head.vmGenerator (h : Head) (v : Nat) : Head :=
  let h := if h.vmIsland v ∧ !(h.vm v).istop then
      h.setVm v (fun x => { x with running := false, stopAt := none, dec := 1, istop := true }) else h
  let x := h.vm v
  let cyc := h.mcyc v
  match x.stopAt with
  | some r =>
    let m0 : Motion := { (Motion.initial 0) with pRef := x.m, v := x.ramp.r, run := some r }
    let res := moveBell (max 1 (h.rd (VM_MCYC v))) 0 m0 r
    let moved := res.1
    let next := if res.2 then (0 : Int) else moved.v
    h.setVm v (fun x => { x with
      m := moved.pRef % cyc
      v := speed16 next
      a := satInt 32 (next - x.ramp.r)
      ramp := { x.ramp with r := next, acc := next - x.ramp.r }
      stopAt := moved.run })
  | none =>
    let target := if x.running then h.rdInt (VM_SPD_REF v) * 256 else 0
    let dec := if x.dec = 1 then h.rd (VM_QSTOP_DEC v) else h.rd (VM_DEC v)
    let r := rampStep (h.rd (VM_ACC v)) dec 0 target x.ramp
    let v16 := speed16 r.r
    h.setVm v (fun x => { x with
      m := (x.m + v16) % cyc, v := v16, a := satInt 32 r.acc, ramp := r, istop := x.istop && decide (r.r ≠ 0) })

/-- A VM that follows a count: ENC or axis (Table 12-1). -/
def Head.vmCount (h : Head) (v : Nat) (src delta speed : Int) : Head :=
  let num := h.rdInt (VM_NUM v)
  let den := h.rd (VM_DEN v)
  h.setVm v (fun x =>
    let s := scaleStep num den delta x.remainder
    let sp := scaleRound num den speed
    { x with
      m := (x.m + s.1) % h.mcyc v
      remainder := s.2
      v := sp
      a := satInt 32 ((sp - x.v) * 256)
      ramp := { x.ramp with r := sp * 256 }
      lastSrc := src })

/-- The value of a publication at an instant `dt` ns after its T0 (R287): m before the reduction, v, a. -/
def linePub (p : MasterPub) (dt : Int) (ofs : Int) (bf : Nat) : Int × Int × Int :=
  let n : Int := (5 * max 1 p.bt : Nat)
  let bp := max 1 p.bt
  let m := divEven ((p.m0 + ofs) * (512 * n * n) + p.v0 * dt * 512 * n + p.a0 * dt * dt) (512 * n * n).toNat
  let v := satInt 32 (divEven ((p.v0 * 256 * n + p.a0 * dt) * bf) (256 * n * bp).toNat)
  let a := satInt 32 (divEven (p.a0 * (bf * bf : Nat)) (bp * bp))
  (m, v, a)

/-- T_f − T0 of the publication a line follower holds, in ns. -/
def Head.lineAge (h : Head) (v : Nat) : Option Int := (h.vm v).pub.map (fun p => (h.bell.instant : Int) - p.t0)

/-- That publication is older than TMO (R288). -/
def Head.lineLate (h : Head) (v : Nat) : Bool := (h.lineAge v).any (fun dt => decide (dt > (h.fld (VM_LINE_TMO v) : Int) * 1000))

/-- VM_LINE_LOSS: a coupled follower whose publication is too old enters HOLDOVER (R288). -/
def Head.vmLineLoss (h : Head) (v : Nat) : Head :=
  if h.fld (VM_CFG_SRC v) ≠ 3 ∨ (h.vm v).loose ∨ !h.lineLate v then h
  else (h.setVm v (fun x => { x with loose := true, a := 0, holdover := some h.bellNo })).raise 5 0 v

/-- LINE_LOST: the holdover of a follower has lasted HOLD ms (R288). -/
def Head.vmLineLost (h : Head) (v : Nat) : Head :=
  let out := (h.vm v).holdover.any (fun b => bellsSince h.bellNo b > h.bellsOfMs (h.fld (VM_LINE_HOLD v)))
  if h.fld (VM_CFG_SRC v) = 3 ∧ (h.vm v).loose ∧ out then h.setVm v (fun x => { x with lost := true }) else h

/-- A line follower's Bell (R287, R288). -/
def Head.vmLine (h : Head) (v : Nat) : Head :=
  let x := h.vm v
  let cyc := h.mcyc v
  match x.pub with
  | none => h.setVm v (fun x => { x with m := x.m % cyc, v := 0, a := 0, resync := false })
  | some p =>
    let dt : Int := (h.bell.instant : Int) - p.t0
    let late := h.lineLate v
    let h := (h.putBit (VM_STAT_LINE_OK v) (!late)).wr (VM_AGE v) (min (2 ^ 32 - 1) dt.toNat)
    let h := if x.resync then h.setVm v (fun x => { x with
        resync := false, loose := x.loose && late, lost := x.lost && late, holdover := if late then x.holdover else none }) else h
    if !(h.vm v).loose then
      let r := linePub p dt (h.rdSigned (VM_OFS_LO v)) h.bellTicks
      let h := h.setVm v (fun x => { x with m := r.1 % cyc, v := r.2.1, a := r.2.2, ramp := { x.ramp with r := r.2.1 * 256 } })
      h.vmLineLoss v
    else
      let h := h.vmLineLost v
      if (h.vm v).lost then
        let r := rampStep 0 (h.rd (VM_QSTOP_DEC v)) 0 0 (h.vm v).ramp
        h.setVm v (fun x => { x with m := (x.m + speed16 r.r) % cyc, v := speed16 r.r, a := satInt 32 r.acc, ramp := r })
      else h.setVm v (fun x => { x with m := (x.m + x.v) % cyc, a := 0 })

/-- One VM at a Bell edge (R281, Table 12-1). -/
def Head.vmBell (h : Head) (v : Nat) : Head :=
  let idx := h.fld (VM_CFG_SRC_IDX v)
  let h :=
    match h.fld (VM_CFG_SRC v) with
    | 0 => h.vmGenerator v
    | 1 =>
      let c := (h.enc (idx % 4)).extLatched * 65536
      h.vmCount v c (c - (h.vm v).lastSrc) (h.rdInt (ENC_SPD (idx % 4)))
    | 2 =>
      let p := h.mailLong (idx % 128) 0x10
      h.vmCount v p (diffPos (h.rd (AX_MODULO (idx % 128))) p (h.vm v).lastSrc) (satInt 32 (h.mailLong (idx % 128) 0x12))
    | _ => h.vmLine v
  h.vmShow v

/-- A new source of VM `v`: its next increment starts from the present value. -/
def Head.vmRebase (h : Head) (v : Nat) : Head :=
  let idx := h.fld (VM_CFG_SRC_IDX v)
  let now : Int :=
    match h.fld (VM_CFG_SRC v) with
    | 1 => (h.enc (idx % 4)).extLatched * 65536
    | 2 => h.mailLong (idx % 128) 0x10
    | _ => 0
  let h := (h.put (VM_STAT_LINE_OK v) 0).wr (VM_AGE v) 0
  h.setVm v (fun x => { x with lastSrc := now, remainder := 0, pub := none, loose := false, lost := false, holdover := none })

/-- A write of VM_CTL (R283, R288): refused whole with REFUSE, or accepted for the next Bell edge. -/
def Head.writeVmCtl (h : Head) (v w : Nat) : Head × Nat :=
  let x := h.vm v
  let set := sext 64 (pairOf (h.pendingRd (VM_SET_LO v)) (h.pendingRd (VM_SET_HI v)))
  let why :=
    if bits w 3 0 ≠ 0 ∧ h.fld (VM_CFG_SRC v) ≠ 0 then 1
    else if bit w 3 ∧ h.pendingRd (VM_STOP_POS v) ≥ h.pendingRd (VM_MCYC v) then 5
    else if bit w 4 ∧ x.v ≠ 0 then 2
    else if (bit w 4 ∨ bit w 5) ∧ h.followersOf v ≠ 0 then 3
    else if bit w 5 ∧ !h.on (VM_STAT_LINE_OK v) then 4
    else if bit w 4 ∧ (set < 0 ∨ set ≥ (h.pendingRd (VM_MCYC v) * 65536 : Nat)) then 5
    else 0
  let h := h.put (VM_CTL_REFUSE v) why
  if why = 0 then (h.shadow (VM_CTL v) (bits w 5 0), 0) else (h, if why = 5 then 7 else 6)

/-- A write of VM_CFG or VM_MCYC: refused while v is not 0 or a follower is engaged. -/
def Head.vmBusy (h : Head) (v : Nat) : Bool := decide ((h.vm v).v ≠ 0) || decide (h.followersOf v ≠ 0)

/-! ## The cam store (R289 to R291) -/

/-- A cam segment (Table 12-3). -/
structure Segment where
  c : List Int
  len : Nat
  next : Nat
  scale : Nat
  stop : Nat
  reserved : Nat
  deriving DecidableEq, Repr

def segmentOf (ws : List Nat) : Segment :=
  let w7 := nth ws 7
  { c := (ws.take 6).map (sext 32), len := nth ws 6, next := bits w7 31 18, scale := bits w7 17 13, stop := bits w7 1 0,
    reserved := bits w7 12 2 }

/-- The eight words of segment `s`. -/
def Head.segWords (h : Head) (s : Nat) : List Nat := (h.cams.slice zeroWord (8 * s) 8).map (·.toNat)
def Head.segment (h : Head) (s : Nat) : Segment := segmentOf (h.segWords s)

/-- Walk a chain from segment `s`: the segments with their starting phases, whether it is cyclic; or the refusal code of
AX_FOL_STAT.CAM_REFUSE. -/
def Head.walkCam (h : Head) (first : Nat) : Nat → Nat → Nat → List (Nat × Nat) → Except Nat (List (Nat × Nat) × Nat × Bool)
  | 0, _, _, _ => .error 3
  | fuel + 1, s, at_, acc =>
    let g := h.segment s
    if g.len = 0 ∨ g.len ≥ 2 ^ 31 ∨ g.scale > 16 ∨ g.stop = 3 then .error 1
    else if g.reserved ≠ 0 then .error 2
    else
      let acc := (s, at_) :: acc
      let len := at_ + g.len
      if g.stop = 2 then (if len ≥ 2 ^ 31 then .error 4 else .ok (acc.reverse, len, false))
      else if g.stop = 1 then
        if g.next ≠ first then .error 3 else if len ≥ 2 ^ 31 then .error 4 else .ok (acc.reverse, len, true)
      else h.walkCam first fuel g.next len acc

/-- The chain of the cam whose first segment is `s`: segments with starting phases, CAM_LEN, cyclic. -/
def Head.cam (h : Head) (s : Nat) : Except Nat (List (Nat × Nat) × Nat × Bool) := h.walkCam s 16384 s 0 []

/-- The cams selected or pending at any axis. -/
def Head.camsInUse (h : Head) : List Nat :=
  (h.allAxes.flatMap (fun n => let f := h.fol n; f.cam.toList ++ f.pendCam.toList ++ f.camAtEdge.toList)).eraseDups

/-- The segments of a cam. -/
def Head.camSegs (h : Head) (s : Nat) : List Nat :=
  match h.cam s with
  | .ok c => c.1.map (·.1)
  | .error _ => []

/-- Segment `s` is in the chain of a selected or pending cam (R291). -/
def Head.segInUse (h : Head) (s : Nat) : Bool := h.camsInUse.any (fun c => (h.camSegs c).contains s)

/-- The check of R291: 0, or the code for AX_FOL_STAT.CAM_REFUSE. -/
def Head.checkCam (h : Head) (s : Nat) : Nat :=
  match h.cam s with
  | .error e => e
  | .ok c =>
    let others := h.camsInUse.filter (· ≠ s)
    let held := (others.map (fun o => (h.camSegs o).length)).foldl (· + ·) 0
    if held + c.1.length > 16384 then 5 else 0

/-- Horner's scheme of R290 on coefficients, highest first. -/
def horner (u : Nat) : List Int → Int
  | [] => 0
  | c :: cs => cs.foldl (fun acc k => satInt 48 (satInt 48 (divEven (acc * u) (2 ^ 24)) + k)) (satInt 48 c)

/-- y, y' and y'' of a segment at u, raw Q32.16 (R290). -/
def segValue (g : Segment) (u : Nat) : Int × Int × Int :=
  let k (i : Nat) : Int := g.c.getD i 0
  let sc (x : Int) : Int := satInt 48 (x * 2 ^ g.scale)
  (sc (horner u [k 5, k 4, k 3, k 2, k 1, k 0]), sc (horner u [5 * k 5, 4 * k 4, 3 * k 3, 2 * k 2, k 1]),
    sc (horner u [20 * k 5, 12 * k 4, 6 * k 3, 2 * k 2]))

/-- Y_START of the first segment and Y_END of the last. -/
def Head.camEnds (h : Head) (s : Nat) : Int × Int :=
  match h.cam s with
  | .error _ => (0, 0)
  | .ok c =>
    let g0 := h.segment s
    let last := h.segment ((c.1.getLast?.map (·.1)).getD s)
    (satInt 48 (g0.c.getD 0 0 * 2 ^ g0.scale), (segValue last (2 ^ 24)).1)

/-- The segment that holds phase `x` (raw Q32.16) and u there; the end of a chain reads as the last step before 1. -/
def Head.camLookup (h : Head) (s : Nat) (x : Int) : Nat × Nat :=
  match h.cam s with
  | .error _ => (s, 0)
  | .ok c =>
    let hit := (c.1.filter (fun e => decide ((e.2 : Int) * 65536 ≤ x))).getLast?
    let e := hit.getD (s, 0)
    let g := h.segment e.1
    let d := (x - (e.2 : Int) * 65536).toNat
    (e.1, min (2 ^ 24 - 1) (d * 256 / max 1 g.len))

/-! ## The front end of CTRL 3 (R292 to R299) -/

/-- The cycle φ is reduced by, in raw Q32.16: CAM_LEN in cam mode, 2^32 counts in gear mode. -/
def Head.phiCycle (h : Head) (n : Nat) : Int :=
  match h.fld (AX_FOL_CFG_MODE n), (h.fol n).cam with
  | 1, some s =>
    match h.cam s with
    | .ok c => (c.2.1 : Int) * 65536
    | .error _ => 2 ^ 48
  | _, _ => 2 ^ 48

/-- The cam in force is cyclic, or the axis is in gear mode. -/
def Head.phiWraps (h : Head) (n : Nat) : Bool :=
  match h.fld (AX_FOL_CFG_MODE n), (h.fol n).cam with
  | 1, some s =>
    match h.cam s with
    | .ok c => c.2.2
    | .error _ => true
  | _, _ => true

/-- φ from the master's value, with the remainder 0 (R292). -/
def Head.phiPreset (h : Head) (n : Nat) : Head :=
  let m := (h.vm (h.fld (AX_FOL_CFG_VM n))).m
  let x := (m * h.rdInt (AX_FOL_NUM n)) / ((max 1 (h.rd (AX_FOL_DEN n)) : Nat) : Int)
  let c := h.phiCycle n
  h.setFol n (fun f => { f with
    phi := x % c, remainder := 0, lastM := m, ended := false, markSeen := false, owedPhi := 0, owedAdj := 0 })

/-- A write of AX_FOL_CFG: the change of m starts from the present value of a master newly named (R293). -/
def Head.edgeFolCfg (h : Head) (n v : Nat) : Head :=
  let old := h.fld (AX_FOL_CFG_VM n)
  let k := v % 8
  if k = old then h else h.setFol n (fun f => { f with lastM := (h.vm k).m })

/-- Show the cam in force. -/
def Head.camShow (h : Head) (n : Nat) : Head :=
  match (h.fol n).cam with
  | none => h.put (AX_FOL_STAT_CAM n) 0
  | some s =>
    match h.cam s with
    | .error _ => h
    | .ok c =>
      let ends := h.camEnds s
      let h := (h.put (AX_CAM_ACT_SEG_FIRST n) s).wr (AX_CAM_LEN n) c.2.1
      (h.wrSigned (AX_CAM_RISE_LO n) (ends.2 - ends.1)).put (AX_FOL_STAT_CAM n) (if (h.fol n).ended then 3 else 2)

/-- A write of AX_CAM_SEL (R291, R295). Without AT_WRAP it is refused while the clutch is engaged (notes/assumptions/36.md). -/
def Head.writeCamSel (h : Head) (n w : Nat) : Head × Nat :=
  let s := bits w 13 0
  let wrap := bit w 16
  if !wrap ∧ h.fld (AX_FOL_STAT_CLU n) ≠ 0 then (h, 6)
  else
    let code := h.checkCam s
    let h := h.put (AX_FOL_STAT_CAM_REFUSE n) code
    if code ≠ 0 then (h, 7)
    else if wrap then ((h.setFol n (fun f => { f with pendCam := some s })).put (AX_FOL_STAT_PEND n) 1, 0)
    else (h.setFol n (fun f => { f with camAtEdge := some s }), 0)

/-- A selection that takes effect at a Bell edge while the clutch is DISENGAGED; it replaces one that waited for a wrap. -/
def Head.camEdge (h : Head) (n : Nat) : Head :=
  match (h.fol n).camAtEdge with
  | none => h
  | some s =>
    let h := (h.setFol n (fun f => { f with cam := some s, pendCam := none, camAtEdge := none })).put (AX_FOL_STAT_PEND n) 0
    let h := (h.phiPreset n).camShow n
    h.put (AX_CAM_ACT_SEG_NOW n) (h.camLookup s (h.fol n).phi).1

/-- Why ENGAGE or DISENGAGE is refused (R296): 0 accepted, else AX_CLU_CTL.REFUSE. -/
def Head.clutchRefuse (h : Head) (n w : Nat) : Nat :=
  let clu := h.fld (AX_FOL_STAT_CLU n)
  if bit w 0 then
    if h.fld (AX_CTL_CTRL n) ≠ 3 ∨ !h.enabled n then 1
    else if h.stopStands n ∨ h.stopping n then 2
    else if clu ≠ 0 then 3
    else if h.fld (AX_FOL_CFG_MODE n) = 1 ∧ (h.fol n).cam.isNone then 4
    else 0
  else if bit w 1 then (if clu ≠ 2 ∧ clu ≠ 3 then 3 else 0)
  else 0

/-- AX_MV_CTL.STOP or QSTOP waits for the Bell edge. -/
def Head.stopWaits (h : Head) (n : Nat) : Bool := h.shadows.any (fun s => s.1 == AX_MV_CTL n && bits s.2.toNat 2 1 != 0)

/-- A write of AX_CLU_CTL; a stop committed in the same Bell drops an accepted ENGAGE (Table 12-7). -/
def Head.writeClutch (h : Head) (n w : Nat) : Head × Nat :=
  let why := h.clutchRefuse n w
  let h := h.put (AX_CLU_CTL_REFUSE n) why
  if why = 0 ∧ bit w 0 ∧ h.stopWaits n then (h, 0)
  else if why = 0 then ((h.shadow (AX_CLU_CTL n) (bits w 1 0)).setFol n (fun f => { f with reqStamp := h.now, trigger := none }), 0)
  else (h, 6)

/-- The request at its Bell edge: the clutch arms and the axis leaves STOPPED (R297); a stop cause drops it (R307), and so does whatever
else would refuse it by then. -/
def Head.edgeClutch (h : Head) (n w : Nat) : Head :=
  if h.clutchRefuse n w ≠ 0 then h
  else if bit w 0 then (h.put (AX_FOL_STAT_CLU n) 1).setMot n (fun m => { m with halted := 0 })
  else if bit w 1 then h.put (AX_FOL_STAT_CLU n) 4
  else h

/-- The trigger of CLU_TRIG came in this Bell (R296). `was` is φ before the step, `adv` its advance. -/
def Head.cluTriggered (h : Head) (n : Nat) (was adv : Int) : Bool :=
  match h.fld (AX_FOL_CFG_CLU_TRIG n) with
  | 0 => true
  | 1 =>
    let x := ((h.rd (AX_CLU_POS n) * 65536 : Nat) - was) % h.phiCycle n
    decide (0 < adv) && decide (0 < x) && decide (x ≤ adv)
  | _ => (h.fol n).trigger.isSome

/-- One step of κ (R296). -/
def Head.clutchBell (h : Head) (n : Nat) (was adv : Int) : Head :=
  let clu := h.fld (AX_FOL_STAT_CLU n)
  let clu := if (clu = 1 ∨ clu = 4) ∧ h.cluTriggered n was adv then clu + 1 else clu
  let ramp := h.rd (AX_CLU_RAMP n)
  let dk := if ramp = 0 then 2 ^ 23 else (h.fol n).dphi.natAbs * 2 ^ 23 / (ramp * 65536)
  let k := (h.fol n).kappa
  let k' := if clu = 2 then min (2 ^ 23) (k + dk) else if clu = 5 then k - dk else k
  let clu := if clu = 2 ∧ k' = 2 ^ 23 then 3 else if clu = 5 ∧ k' = 0 then 0 else clu
  (h.setFol n (fun f => { f with kappa := k', trigger := none })).put (AX_FOL_STAT_CLU n) clu

/-- The cycle P of registration, in raw Q32.16 (R298). -/
def Head.regCycle (h : Head) (n : Nat) : Int :=
  if h.fld (AX_FOL_CFG_MODE n) = 1 then h.phiCycle n else (max 1 (h.rd (AX_REG_PITCH n)) * 65536 : Nat)

/-- A cycle of φ modulo P ends (R299). -/
def Head.regCycleEnd (h : Head) (n : Nat) : Head :=
  if (h.fol n).markSeen then h.setFol n (fun f => { f with markSeen := false })
  else
    let miss := h.fld (AX_REG_STAT_MISS n) + 1
    let h := h.put (AX_REG_STAT_MISS n) (min 255 miss)
    if miss ≥ h.fld (AX_REG_CFG_MISS_LIM n) ∧ !h.on (AX_REG_STAT_LOST n) then
      ((h.setFol n (fun f => { f with pend := 0 })).put (AX_REG_STAT_LOST n) 1).raise 2 8 n
    else h

/-- One mark at `d` ticks into the Bell (R298); `cyc` is the cycle of φ reached so far. -/
def Head.regMark (h : Head) (n d : Nat) (cyc : Int) : Head × Int :=
  let f := h.fol n
  let p := h.regCycle n
  let mark := f.phi + divEven (f.dphi * d) h.bellTicks
  let c := mark / p
  let h := if c ≠ cyc then h.regCycleEnd n else h
  let e0 := (mark - (h.rd (AX_REG_EXP n) : Int) * 65536) % p
  let e := if 2 * e0 > p then e0 - p else e0
  if e.natAbs > h.rd (AX_REG_WIN n) * 65536 then (h.bump (AX_REG_OUT n), c)
  else if (h.fol n).markSeen then (h.bump (AX_REG_EXTRA n), c)
  else
    let lim : Int := (h.rd (AX_REG_MAX n) * 65536 : Nat)
    let add := max (-lim) (min lim (divEven (e * sext 16 (h.fld (AX_REG_GAIN_GAIN n))) (2 ^ 15)))
    let h := h.setFol n (fun f => { f with pend := max (-(p / 2)) (min (p / 2) (f.pend + add)), markSeen := true })
    let h := (h.wrInt (AX_REG_ERR n) (e / 65536)).bump (AX_REG_MARKS n)
    ((h.put (AX_REG_STAT_MISS n) 0).put (AX_REG_STAT_LOST n) 0, c)

/-- The registration step (R298, R299): the marks of the past Bell, then the move toward PEND. It answers s. -/
def Head.registration (h : Head) (n : Nat) : Head × Int :=
  let f := h.fol n
  let marks := f.marks.reverse
  let h := h.setFol n (fun f => { f with marks := [] })
  if !h.on (AX_REG_CFG_EN n) then (h.setMail n 0x41 0, 0)
  else
    let h :=
      match marks with
      | [] => h.setMail n 0x41 0
      | d :: ds => (h.setMail n 0x40 ((h.bellNo + 255) % 256 * 65536 + d)).setMail n 0x41 (1 + b2n (!ds.isEmpty) * 2)
    if h.fld (AX_FOL_STAT_CLU n) ≠ 3 then (h, 0)
    else
      let p := h.regCycle n
      let c0 := f.phi / p
      let r := marks.foldl (fun (x : Head × Int) d => x.1.regMark n d x.2) (h, c0)
      let h := r.1
      let pend := (h.fol n).pend
      let s : Int := sgn pend * (min pend.natAbs (f.dphi.natAbs * h.fld (AX_REG_CFG_RATE n) / 65536) : Nat)
      let c1 := (f.phi + s + f.dphi) / p
      let h := h.setFol n (fun f => { f with pend := f.pend - s })
      let h := if c1 ≠ r.2 then h.regCycleEnd n else h
      (h.wrInt (AX_REG_PEND n) ((h.fol n).pend / 65536), s)

/-- Steps 4 and 5 of R293: φ advances, wraps are counted, a pending cam is taken at the first forward wrap while engaged, and
a non-cyclic cam is clamped. -/
def Head.phiAdvance (h : Head) (n : Nat) (s : Int) : Head :=
  let f := h.fol n
  let c := h.phiCycle n
  let x := f.phi + s + f.dphi
  if h.phiWraps n then
    let w := x / c
    let cam := h.fld (AX_FOL_CFG_MODE n) == 1
    match f.pendCam, f.cam with
    | some new, some old =>
      if cam ∧ w > 0 ∧ h.fld (AX_FOL_STAT_CLU n) = 3 then
        let adj := (h.camEnds old).2 - (h.camEnds new).1
        let h := h.setFol n (fun f => { f with cam := some new, pendCam := none, wraps := w, adj := adj, switched := true })
        let c' := h.phiCycle n
        ((h.setFol n (fun f => { f with phi := (x - c) % c' })).put (AX_FOL_STAT_PEND n) 0).camShow n
      else h.setFol n (fun f => { f with
        phi := x % c, wraps := w, switched := false, adj := ((h.camEnds old).2 - (h.camEnds old).1) * w })
    | _, some old =>
      h.setFol n (fun f => { f with
        phi := x % c, wraps := w, switched := false
        adj := if cam then ((h.camEnds old).2 - (h.camEnds old).1) * w else 0 })
    | _, none => h.setFol n (fun f => { f with phi := x % c, wraps := w, switched := false, adj := 0 })
  else
    let y := max 0 (min c x)
    let ended := y = c ∨ y = 0 ∧ (x < f.phi ∨ f.phi = 0 ∧ f.ended)
    let h := h.setFol n (fun f => { f with phi := y, wraps := 0, switched := false, adj := 0, ended := ended })
    let h := h.put (AX_FOL_STAT_CAM n) (if ended then 3 else 2)
    if ended ∧ !f.ended then (h.raise 2 7 n).unitEvent 4 n else h

/-- Step 7 and 8 of R293: φ_eval, its segment and u, and the mailbox of Table 12-4. The UNIT event of a cam segment end
(Table 09-3) comes with the first Bell whose φ_eval stands in another segment (notes/assumptions/34.md). -/
def Head.frontMail (h : Head) (n : Nat) : Head :=
  let f := h.fol n
  let v := h.fld (AX_FOL_CFG_VM n)
  let x := h.vm v
  let num := h.rdInt (AX_FOL_NUM n)
  let den := h.rd (AX_FOL_DEN n)
  let c := h.phiCycle n
  let ev := f.phi + divEven (sext 16 (h.fld (AX_FOL_CFG_LEAD n)) * f.dphi) 256
  let ev := if h.phiWraps n then ev % c else max 0 (min c ev)
  let mode := h.fld (AX_FOL_CFG_MODE n)
  let cam := mode = 1 ∧ f.cam.isSome
  let seg := if cam then h.camLookup (f.cam.getD 0) ev else (0, 0)
  let ws := if cam then h.segWords seg.1 else List.replicate 8 0
  let st := h.vmState v
  let flt := h.vmEncFlt v
  let h := h.wrSigned (AX_CAM_PHASE_LO n) f.phi
  let h := if cam ∧ seg.1 ≠ h.fld (AX_CAM_ACT_SEG_NOW n) then h.unitEvent 4 n else h
  let h := if cam then h.put (AX_CAM_ACT_SEG_NOW n) seg.1 else h
  let h := (h.setMailLong n 0x20 x.m).setMailLong n 0x22 x.v
  let h := h.setMail n 0x24 (toBits 24 (x.a / 256))
  let h := h.setMail n 0x25 (b2n (st ≠ 4 ∧ !flt) + b2n (st = 3) * 2 + b2n flt * 4)
  let h := (h.setMail n 0x26 seg.2).setMail n 0x27 f.kappa
  let h := h.setMail n 0x28 (toBits 2 f.wraps + b2n f.switched * 4 + b2n f.ended * 8 + mode * 16)
  let h := ((h.setMailLong n 0x29 f.owedAdj).setMailLong n 0x2B f.owedPhi).setMailLong n 0x2D (scaleRound num den x.v)
  let h := h.setMail n 0x2F (toBits 24 (scaleRound num den x.a / 256))
  (List.range 8).foldl (fun (h : Head) w =>
    (h.setMail n (0x30 + 2 * w) (bits (nth ws w) 31 8)).setMail n (0x31 + 2 * w) (bits (nth ws w) 7 0)) h

/-- The front end of axis `n` at a Bell edge (R293). -/
def Head.frontEnd (h : Head) (n : Nat) : Head :=
  let h := h.camEdge n
  let v := h.fld (AX_FOL_CFG_VM n)
  let cyc := h.mcyc v
  let m := (h.vm v).m
  let d0 := (m - (h.fol n).lastM) % cyc
  let dm := if 2 * d0 ≥ cyc then d0 - cyc else d0
  let sc := scaleStep (h.rdInt (AX_FOL_NUM n)) (h.rd (AX_FOL_DEN n)) dm (h.fol n).remainder
  let h := h.setFol n (fun f => { f with lastM := m, dphi := sc.1, remainder := sc.2 })
  let was := (h.fol n).phi
  let r := h.registration n
  let wraps := h.phiWraps n
  let h := r.1.phiAdvance n r.2
  let h := h.clutchBell n was (if wraps then r.2 + sc.1 else (h.fol n).phi - was)
  let h := h.setFol n (fun f => { f with owedPhi := f.owedPhi + f.dphi, owedAdj := f.owedAdj + f.adj })
  h.frontMail n

/-- v_ff and a_ff of a cam, left to right, each product and quotient rounded once (R294, R458). -/
def camRates (kap : Int) (len : Nat) (y1 y2 vphi aphi : Int) : Int × Int :=
  let v := divEven (divEven (divEven (kap * y1) (2 ^ 23) * vphi) (2 ^ 16)) len
  let a2 := divEven (divEven (y2 * divEven (vphi * vphi) (2 ^ 8)) (2 ^ 16)) (len * len)
  let a1 := divEven (divEven (y1 * aphi) (2 ^ 16)) len
  (satInt 32 v, satInt 32 (divEven (kap * satInt 32 (a2 + a1)) (2 ^ 23)))

/-- CAM_EVAL on the mailbox that the running task sees (R290, R294): the slave reference of a CTRL 3 axis. An island request stops it
ahead of the increment of this run (R297); a stepper that still energises takes none (R277). -/
def camEval (e : Nat) (h : Head) : Head :=
  let n := (h.engine e).axn
  if (h.engine e).ctrl ≠ 3 then h
  else
    let h := if h.motionRuns e ∧ !h.staysCoupled n then h.followIsland e n else h
    let cam := bit (h.seen e 0x28) 4
    let kap : Int := h.seen e 0x27
    let ws := (List.range 8).map (fun w => h.seen e (0x30 + 2 * w) * 256 + h.seen e (0x31 + 2 * w))
    let g := segmentOf ws
    let u := h.seen e 0x26
    let vphi := h.seenLong e 0x2D
    let aphi := sext 24 (h.seen e 0x2F)
    let y := segValue g u
    let len := max 1 g.len
    let k (x : Int) : Int := divEven (kap * x) (2 ^ 23)
    let ff := if cam then camRates kap len y.2.1 y.2.2 vphi (aphi * 256) else (satInt 32 (k vphi), satInt 32 (k (aphi * 256)))
    let still := !h.energised n
    (h.setMot n (fun m =>
      let ds := if cam then y.1 - m.yPrev + h.seenLong e 0x29 else h.seenLong e 0x2B
      if m.stop.isSome ∨ m.halted ≠ 0 ∨ still then { m with yPrev := if cam then y.1 else m.yPrev }
      else { m with
        yPrev := if cam then y.1 else m.yPrev
        pRef := h.keepRef n m.pRef (m.pRef + k ds)
        v := ff.1 * 256
        aff := ff.2 })).putRefs e n

/-! ## Master encoders (R300 to R305) -/

/-- The step that a change of levels makes: +1, -1 or 0, and whether it is a double transition (Table 12-5). -/
def encStep (mode : Nat) (a b a' b' bOld : Bool) : Int × Bool :=
  let riseA := !a && a'
  let riseB := !b && b'
  let fallA := a && !a'
  let fallB := b && !b'
  let both := (a != a') && (b != b')
  let dir (up : Bool) : Int := if up then 1 else -1
  match mode with
  | 1 => if both then (0, true) else if riseA then (dir !b', false) else (0, false)
  | 2 => if both then (0, true) else if riseA then (dir !b', false) else if fallA then (dir b', false) else (0, false)
  | 3 =>
    if both then (0, true)
    else if riseA then (dir !b', false) else if fallA then (dir b', false)
    else if riseB then (dir a', false) else if fallB then (dir !a', false) else (0, false)
  | 4 => if riseA then (dir !bOld, false) else (0, false)
  | 5 => (if riseA then (1 : Int) else 0) - (if riseB then 1 else 0) |> fun x => (x, false)
  | _ => (0, false)

/-- A fault of R301: latched, counted, raised. -/
def Head.encFault (h : Head) (k pos : Nat) : Head :=
  ((h.orReg (ENC_STAT k) (2 ^ pos)).bump (ENC_FAULTS k)).raise 5 1 k

/-- Count one step of encoder `k` at tick `t` (R302, R304). -/
def Head.encCount (h : Head) (k : Nat) (d : Int) (t : Nat) : Head :=
  let c := h.rd (ENC_CNT k)
  let c' := toBits 32 ((c : Int) + d)
  let up := d > 0 ∧ c = 2 ^ 32 - 1
  let dn := d < 0 ∧ c = 0
  let h := h.wr (ENC_CNT k) c'
  let h := if up then h.put (ENC_STAT_WRAP_UP k) 1 else if dn then h.put (ENC_STAT_WRAP_DN k) 1 else h
  let h := if (up ∨ dn) ∧ h.on (ENC_CFG_WRAP_IE k) then h.unitEvent 0 k else h
  let down := decide (d < 0)
  let x := h.enc k
  let same := x.dirNow == down
  let keep := if same then x.edges else x.edges.take 1
  let h := h.setEnc k (fun x => { x with dirNow := down, edges := (t :: keep).take 5 })
  if down = h.on (ENC_STAT_DIR k) then h.setEnc k (fun x => { x with revRun := 0 })
  else if x.revRun < h.fld (ENC_CFG_DIR_HYST k) then h.setEnc k (fun x => { x with revRun := x.revRun + 1 })
  else
    let h := ((h.putBit (ENC_STAT_DIR k) down).put (ENC_STAT_DIR_CHG k) 1).setEnc k (fun x => { x with revRun := 0 })
    if !h.on (ENC_CFG_DIR_IE k) then h
    else
      let h := h.unitEvent 1 k
      if (h.enc k).dirRaised then h else (h.setEnc k (fun x => { x with dirRaised := true })).raise 5 2 k

/-- An edge first seen at tick `t` by a filter of `filt` ticks acts when the filter has accepted it and it has crossed into the TIME
domain (R15, R300, Table 01-3). -/
def Head.pinSeen (h : Head) (t filt : Nat) : Head := h.forward (t + filt + 2)

/-- New levels of A and B of encoder `k`, first seen at tick `t` and stable for `stable` ticks (R300, R301). -/
def Head.encEdge (h : Head) (k : Nat) (a b : Bool) (t stable : Nat) : Head :=
  let x := h.enc k
  if stable < h.fld (ENC_CFG_FILT k) ∨ (x.a = a ∧ x.b = b) then h
  else
    let h := h.pinSeen t (h.fld (ENC_CFG_FILT k))
    let mode := h.fld (ENC_CFG_MODE k)
    let lim := h.fld (ENC_CFG_MIN_EDGE k)
    let bChange := if x.b ≠ b then some t else x.lastB
    let setup := mode = 4 ∧ !x.a ∧ a ∧ bChange.any (fun tb => t - tb < lim)
    let bOld := if setup then (if x.b ≠ b then x.b else x.bBefore) else b
    let st := encStep mode x.a x.b a b bOld
    let fast := x.lastEdge.any (fun te => t - te < lim)
    let h := h.setEnc k (fun x => { x with
      bBefore := if x.b ≠ b then x.b else x.bBefore
      a := a, b := b, lastEdge := some t, lastB := bChange })
    if mode = 0 ∨ mode > 5 then h
    else
      let h := if st.2 then h.encFault k 8 else h
      let h := if fast then h.encFault k 9 else h
      let h := if setup then h.encFault k 10 else h
      let d := if h.on (ENC_CFG_INV k) then -st.1 else st.1
      if d = 0 then h else h.encCount k d t

/-- Latch an index edge: the count and the stamp into ENC_Z (R303). -/
def Head.encZLatch (h : Head) (k t : Nat) : Head :=
  ((h.wr (ENC_Z_CNT k) (h.rd (ENC_CNT k))).wrPair (ENC_Z_NS k) (h.stampAt t)).put (ENC_STAT_Z_SEEN k) 1

/-- A rising Z edge (R303). -/
def Head.encZ (h : Head) (k t stable : Nat) : Head :=
  if stable < h.fld (ENC_CFG_FILT k) then h
  else
    let h := h.pinSeen t (h.fld (ENC_CFG_FILT k))
    match h.fld (ENC_CFG_Z_MODE k) with
    | 1 => h.encZLatch k t
    | 2 =>
      if h.on (ENC_STAT_Z_ARMED k) then ((h.encZLatch k t).wr (ENC_CNT k) 0).put (ENC_STAT_Z_ARMED k) 0 else h
    | _ => h

/-- The speed of encoder `k` at a Bell edge (R305), whether the interval method gave it, and whether the automatic method stands on the
interval method: until |v| reaches SW, then again when |v| falls below SW/2. -/
def Head.encSpeed (h : Head) (k : Nat) (window : List Nat) : Int × Bool × Bool :=
  let x := h.enc k
  let bt := h.bellTicks
  let w := 2 ^ min 8 (h.fld (ENC_SPD_CFG_WIN_LOG2 k))
  let now := window.headD 0
  let win := divEven (sext 32 (toBits 32 ((now : Int) - window.getD w (window.getLastD 0))) * 65536) w
  let n := 2 ^ min 2 (h.fld (ENC_SPD_CFG_IVL k))
  let neg := h.on (ENC_STAT_DIR k)
  let ivl : Int × Bool :=
    match x.edges.head?, x.edges[n]? with
    | some last, some base =>
      let dt := max 1 (last - base)
      let ts := max 1 (h.now - last)
      let mag := if ts ≥ h.rd (ENC_STILL k) then 0 else if ts * n > dt then divEven (bt * 65536) ts
        else divEven ((n * bt * 65536 : Nat) : Int) dt
      (if neg then -mag else mag, true)
    | _, _ => (win, false)
  let sw := h.fld (ENC_SPD_CFG_SW k) * 65536
  let auto := if x.interval then decide (ivl.1.natAbs < sw) else decide (2 * win.natAbs < sw)
  match h.fld (ENC_SPD_CFG_SPD_MODE k) with
  | 0 => (win, false, auto)
  | 1 => (ivl.1, ivl.2, auto)
  | _ => if auto then (ivl.1, ivl.2, auto) else (win, false, auto)

/-- Latch encoder `k` at a Bell edge (R281). -/
def Head.encBell (h : Head) (k : Nat) : Head :=
  let c := h.rd (ENC_CNT k)
  let x := h.enc k
  let d := sext 32 (toBits 32 ((c : Int) - h.rd (ENC_CNT_BELL k)))
  let win := (c :: x.window).take 257
  let s := h.encSpeed k win
  let n := 2 ^ min 2 (h.fld (ENC_SPD_CFG_IVL k))
  let h := match x.edges.head?, x.edges[n]? with
    | some last, some base => h.wr (ENC_IVL k) ((last - base) / n)
    | _, _ => h
  let h := ((h.wr (ENC_CNT_BELL k) c).wrInt (ENC_SPD k) s.1).putBit (ENC_STAT_METHOD k) s.2.1
  h.setEnc k (fun x => { x with
    window := win
    extLatched := x.extLatched + d
    interval := if h.fld (ENC_SPD_CFG_SPD_MODE k) = 2 then s.2.2 else x.interval
    dirRaised := false })

/-- A running VM follows the encoder. -/
def Head.encFollowed (h : Head) (k : Nat) : Bool :=
  (List.range 8).any (fun v => h.fld (VM_CFG_SRC v) == 1 && h.fld (VM_CFG_SRC_IDX v) == k && decide ((h.vm v).v ≠ 0))

/-! ## Captures (R306) -/

/-- The start of a capture FIFO as CAP_NS, CAP_SEC show it. -/
def Head.capShow (h : Head) (k : Nat) : Head :=
  let q := (h.cap k).fifo
  let ns : Nat := match q with | e :: _ => e.1.toNat | [] => 3
  let sec : Nat := match q with | e :: _ => e.2.1.toNat | [] => 0
  let cnt : Nat := match q with | e :: _ => e.2.2.toNat | [] => 0
  (((h.wr (CAP_NS k) ns).wr (CAP_SEC k) sec).wr (CAP_CNT k) cnt).put (CAP_STAT_LEVEL k) q.length

/-- Axis `n` takes an edge of capture input `k` at tick `t`: a registration mark of this Bell, the trigger of a waiting clutch
request (R296, R306). -/
def Head.captureAxis (h : Head) (k t n : Nat) : Head :=
  let h := if h.on (AX_REG_CFG_EN n) ∧ h.fld (AX_REG_CFG_CAP n) = k then
      h.setFol n (fun f => { f with marks := min (h.bellTicks - 1) (t - h.bell.edge) :: f.marks }) else h
  if h.fld (AX_FOL_CFG_CLU_TRIG n) = 2 ∧ h.fld (AX_FOL_CFG_CLU_CAP n) = k ∧ t > (h.fol n).reqStamp ∧
    (h.fld (AX_FOL_STAT_CLU n) = 1 ∨ h.fld (AX_FOL_STAT_CLU n) = 4 ∨ h.shadows.any (fun s => s.1 == AX_CLU_CTL n)) then
    h.setFol n (fun f => { f with trigger := some t }) else h

/-- An edge of capture input `k`: `rising`, its tick, how long the level stood. -/
def Head.captureEdge (h : Head) (k : Nat) (rising : Bool) (t stable : Nat) : Head :=
  let sel := h.fld (CAP_CFG_EDGE k)
  if stable < h.fld (CAP_CFG_FILT k) ∨ !(if rising then bit sel 0 else bit sel 1) then h
  else
    let h := h.pinSeen t (h.fld (CAP_CFG_FILT k))
    let st := h.stampAt t
    let e := h.fld (CAP_CFG_LATCH k)
    let cnt := if e < 4 then h.rd (ENC_CNT e) else 0
    let h := h.wr (CAP_TOTAL k) (h.rd (CAP_TOTAL k) + 1)
    let h := if (h.cap k).fifo.length ≥ 4 then h.put (CAP_STAT_OVR k) 1
      else (h.setCap k (fun c => { c with
        fifo := c.fifo ++ [(BitVec.ofNat 32 st, BitVec.ofNat 32 (st / 2 ^ 32), BitVec.ofNat 32 cnt)] })).capShow k
    let h := h.setCap k (fun c => { c with lastEdge := some t })
    let h := h.unitEvent 2 k
    h.allAxes.foldl (fun (h : Head) n => h.captureAxis k t n) h

end Sys2Proof.Machine
end

