-- ==== Sys2Proof/Machine/AxisLaw.lean ====
section
/-! DEFINITION. The head's side of a servo or stepper axis (chapter 10): the angle and the position from the reports, the
axis constants and the derivation of R239, enable and clear, the catch count, the Placement Test. -/

namespace Sys2Proof.Machine

/-! ## Node data of an axis -/

/-- A word of the descriptor of the node that drives an axis (Table 15-2). -/
def Head.nodeDesc (h : Head) (n w : Nat) : Nat :=
  match h.stationOf n with
  | some s => wordAt (h.node s).descriptor w
  | none => 0

/-- IFS in mA and VFS in mV. -/
def Head.ifs (h : Head) (n : Nat) : Nat := max 1 (h.nodeDesc n 8)
def Head.vfs (h : Head) (n : Nat) : Nat := max 1 (h.nodeDesc n 9)

/-- Tb in ns. -/
def Head.tb (h : Head) : Nat := h.bellTicks * 5

/-- Pole pairs and counts per revolution, at least 1. -/
def Head.polePairs (h : Head) (n : Nat) : Nat := max 1 (h.fld (AX_MOTOR_PP n))
def Head.cpr (h : Head) (n : Nat) : Nat := max 1 (h.rd (AX_ENC_CPR n))

/-- `num`/`den` of the rated speed as electrical turns per Bell: a fraction. -/
def Head.rpmTurns (h : Head) (n rpm num den : Nat) : Nat × Nat :=
  (rpm * h.polePairs n * h.tb * num, 60 * 10 ^ 9 * den)

/-! ## Angle and position from a report (R227, R259, R274) -/

/-- The Bell of the last report of the node that drives an axis. -/
def Head.reportBell (h : Head) (n : Nat) : Nat := ((h.stationOf n).map (fun s => (h.node s).report.bell)).getD h.bellNo

/-- A valid report of an axis with an encoder: `pos` is POS, Q32.16 as 48 bits. -/
def Head.takePos (h : Head) (n : Nat) (pos : Int) : Head :=
  let x := h.axis n
  let bell := h.reportBell n
  let step := h.isStepper n
  let d : Int := match x.lastPos with
    | some l => sext 48 (toBits 48 (pos - l.1))
    | none => 0
  let bells : Nat := match x.lastPos with
    | some l => max 1 (bellsSince bell l.2)
    | none => 1
  let cyc : Int := (h.cpr n * 65536 : Nat)
  let c := if step then x.count + d else (x.count + d) % cyc
  let raw := ((c % cyc) * (h.polePairs n * 2 ^ 24 : Nat)) / cyc
  let zero : Int := bits (h.rd (AX_ENC_ZERO n)) 31 8
  let th := (zero + (if h.on (AX_MOTOR_DIR n) then -raw else raw)) % 2 ^ 24
  let w : Int := if x.lastPos.isNone then 0 else divEven (angleDiff th.toNat x.theta * 2 ^ 23) bells
  let h := h.setAxis n (fun x => { x with count := c, lastPos := some (pos, bell), theta := th.toNat, w := w })
  let m := h.mot n
  let modulo := h.rd (AX_MODULO n)
  let p :=
    if step then
      let ms : Int := (h.fld (AX_STP_CFG_SPR n) * 2 ^ h.fld (AX_STP_CFG_MS_LOG2 n) : Nat)
      wrapPos modulo (divEven (c * ms) (h.cpr n) + m.posOffset)
    else wrapPos modulo (m.p + d)
  let v := satInt 32 (divEven (diffPos modulo p m.p) bells)
  h.setMot n (fun m => { m with p := p, w := if x.lastPos.isNone then 0 else v, valid := true })

/-- The position of an encoderless axis from the observer angle of a run with a valid report, in 1/65,536 mechanical turn, and its
change over the Bells between the last two such reports (R259). -/
def Head.takeObserver (h : Head) (n th : Nat) : Head :=
  let x := h.axis n
  let bell := h.reportBell n
  let bells : Nat := match x.lastPos with
    | some l => max 1 (bellsSince bell l.2)
    | none => 1
  let d := angleDiff th x.theta
  let c := x.count + d
  let pp : Int := (h.polePairs n : Nat)
  let modulo := h.rd (AX_MODULO n)
  let dp := c * 256 / pp - x.count * 256 / pp
  (h.setAxis n (fun x => { x with count := c, theta := th, lastPos := some (0, bell) })).setMot n (fun m => { m with
    p := wrapPos modulo (m.p + dp), w := if x.lastPos.isNone then 0 else satInt 32 (divEven dp bells) })

/-! ## Constants of the laws (Table 10-6, R239, R275) -/

/-- A rational coefficient as mantissa and shift at Y word `i`. -/
def yCoef (i num den : Nat) : List (Nat × W24) :=
  let k := mantShift num den
  [(i, w24 k.1), (i + 1, w24 k.2)]

/-- The value of a motor-data register: written and waiting, or in force. -/
def Head.motorWord (h : Head) (n a : Nat) : Nat :=
  match (h.axis n).motorData.find? (fun e => e.1 == a) with
  | some e => e.2.toNat
  | none => h.rd a

/-- The derived set of R239: KP and KI in Q4.20, the decoupling and EMF coefficients, and the model's own (Y words 24 to 31).
The L of a stepper is that of AX_LD (R275); its EMF coefficient leaves MS to the law, which reads AX_STP_CFG. -/
def Head.derive (h : Head) (n : Nat) : List (Nat × W24) :=
  let rs := h.motorWord n (AX_RS n)
  let ld := max 1 (h.motorWord n (AX_LD n))
  let lq := max 1 (h.motorWord n (AX_LQ n))
  let psi := h.motorWord n (AX_PSI n)
  let bw := h.motorWord n (AX_CUR_BW n)
  let i := h.ifs n
  let v := h.vfs n
  let tb := h.tb
  let kp (b l : Nat) : Int := sat24 (divEven ((2 * pi96 * b * l * i * 2 ^ 20 : Nat) : Int) (2 ^ 96 * 10 ^ 9 * v))
  let ki (b : Nat) : Int := sat24 (divEven ((2 * pi96 * b * rs * tb * i * 2 ^ 20 : Nat) : Int) (2 ^ 96 * 10 ^ 15 * v))
  let bd := bits bw 15 0
  let bq := bits bw 31 16
  [(0, w24 (kp bd ld)), (1, w24 (ki bd)), (2, w24 (kp bq lq)), (3, w24 (ki bq))] ++
    yCoef 4 (2 * pi96 * ld * i) (2 ^ 96 * tb * v) ++ yCoef 6 (2 * pi96 * lq * i) (2 ^ 96 * tb * v) ++
    yCoef 8 (2 * pi96 * psi * 10 ^ 6) (2 ^ 96 * tb * v) ++ yCoef 24 (tb * v) (ld * i) ++
    yCoef 26 (tb * v) (lq * i) ++ yCoef 28 (rs * i) (v * 10 ^ 6) ++ yCoef 30 ((if h.isStepper n then ld else lq) * i) (tb * v)

/-- PP × 2^24/CPR in one word (Y word 19): a mantissa of 16 bits, then the shift as 8 bits, mant × 2^(shift − 15); their places are the
model's (notes/assumptions/30.md). -/
def ratioWord (num den : Nat) : Nat :=
  let k := mantShift num den
  let m := (divEven k.1 128).toNat
  if m < 2 ^ 16 then m * 256 + toBits 8 k.2 else m / 2 * 256 + toBits 8 (k.2 + 1)

/-- The other constants of an axis, from its registers (Y words 10 to 17, 19 and 32 to 47). -/
def Head.axisConstants (h : Head) (n : Nat) : List (Nat × W24) :=
  let sh := h.rd (AX_SHUNT n)
  let tap := bits sh 23 16
  let cmin := bits sh 15 0
  let dtc := h.rd (AX_DTC n)
  let p := h.bellTicks
  let rpm := h.fld (AX_RATED_N_RPM n)
  let sp (i : Nat) (f : Nat × Nat) : List (Nat × W24) := yCoef i f.1 f.2
  let nat (i x : Nat) : Nat × W24 := (i, BitVec.ofNat 24 x)
  [nat 10 (min (bits (h.rd (AX_VLIM n)) 15 0) (65536 - 2 * cmin)), nat 11 cmin, nat 12 (bits dtc 31 24 + bits sh 31 24 + tap + 2),
    nat 13 tap, nat 14 (bits (h.rd (AX_SHIFT n)) 15 0), nat 15 (bits (h.rd (AX_SHIFT n)) 31 16),
    (16, w24 (sat24 (divEven ((bits dtc 23 16 * 2 ^ 23 : Nat) : Int) (max 1 p)))), nat 17 (bits dtc 15 0), nat 19 (ratioWord (h.polePairs n * 2 ^ 24) (h.cpr n))] ++
    sp 32 (h.rpmTurns n rpm 1 100) ++ [nat 34 (h.fld (AX_OBS_OBS_BW n))] ++ sp 35 (h.rpmTurns n (h.fld (AX_OBS_OBS_MIN n)) 1 1) ++
    sp 37 (h.rpmTurns n (h.fld (AX_OBS_JUMP_WJUMP n)) 1 1) ++
    [nat 39 (h.fld (AX_IF_IF_CUR n)), nat 40 (h.bellsOfMs (10 * h.fld (AX_IF_IF_RAMP n))), nat 41 (h.fld (AX_RATED_I_I n)),
      nat 42 (bits (h.rd (AX_NOWIN_LIM n)) 15 0), nat 43 p, nat 44 (p * (65536 - cmin) / 131072 - tap - 1)] ++
    sp 46 (h.rpmTurns n rpm 1 10)

/-- Write Y context words of an axis's current or stepper task, on its home engine, inside the task's window. -/
def Head.setYWords (h : Head) (n : Nat) (ws : List (Nat × W24)) : Head :=
  match h.currentTask n with
  | none => h
  | some t =>
    h.setEngine (h.taskHome t) (fun g => { g with
      yRam := (ws.filter (fun w => decide (w.1 < bits (h.desc t 6) 15 0))).foldl
        (fun (y : Tbl W24) w => y.set zero24 (bits (h.desc t 6) 31 16 + w.1) w.2) g.yRam })

/-- X context words of an axis's current task. -/
def Head.setXWords (h : Head) (n : Nat) (ws : List (Nat × W24)) : Head :=
  match h.currentTask n with
  | none => h
  | some t =>
    h.setEngine (h.taskHome t) (fun g => { g with
      xRam := (ws.filter (fun w => decide (w.1 < bits (h.desc t 5) 15 0))).foldl
        (fun (x : Tbl W24) w => x.set zero24 (bits (h.desc t 5) 31 16 + w.1) w.2) g.xRam })

/-- The derivation task of axis `n` ends (R239): its set waits for the next Bell edge. -/
def Head.deriveEnd (h : Head) (n : Nat) : Head :=
  if (h.axis n).deriving_ then h.setAxis n (fun x => { x with derived := some (h.derive n), deriving_ := false }) else h

/-- A derivation in progress has ended by the Bell edge (notes/assumptions/91.md); its set and the motor data it came from come into
force together (R239). -/
def Head.deriveEdge (h : Head) (n : Nat) : Head :=
  let h := h.deriveEnd n
  match (h.axis n).derived with
  | none => h
  | some ws =>
    let h := h.setYWords n ws
    let h := (h.axis n).motorData.foldl (fun (h : Head) e => h.wr e.1 e.2.toNat) h
    h.setAxis n (fun x => { x with derived := none, motorData := if x.deriving_ then x.motorData else [] })

/-- The checks of a motor-data write: the ranges of the register pages and the bandwidth limit of R239. -/
def Head.motorRange (h : Head) (n a v : Nat) : Bool :=
  if a = AX_RS n then 100 ≤ v && v ≤ 100000000
  else if a = AX_LD n ∨ a = AX_LQ n then 1000 ≤ v && v ≤ 1000000000
  else if a = AX_PSI n then v ≤ 10000000
  else bits v 15 0 * 10 * h.bellTicks ≤ 200000000 && bits v 31 16 * 10 * h.bellTicks ≤ 200000000

/-- A write of AX_RS to AX_PSI or AX_CUR_BW starts a derivation (R239). -/
def Head.writeMotor (h : Head) (n a v : Nat) : Head × Nat :=
  if !h.motorRange n a v then (h, 7)
  else
    (h.setAxis n (fun x => { x with
      motorData := (x.motorData.filter (fun e => e.1 ≠ a)) ++ [(a, BitVec.ofNat 32 v)], deriving_ := true }), 0)

/-! ## Enable, clear, CTRL (R249, R250, R272) -/

/-- A write of EN = 1 may be accepted (R249, R339). -/
def Head.mayEnable (h : Head) (n : Nat) : Bool :=
  h.faults n == 0 && (h.currentTask n).any (fun t => h.taskEnabled t) && !(h.axis n).pt.active &&
    (h.stationOf n).any (fun s => h.on (NODE_PROT_CFG_OK s))

/-- CTRL `c` is one the axis allows (R259, R274). -/
def Head.ctrlAllowed (h : Head) (n c : Nat) : Bool :=
  if h.isStepper n then c != 0 else if h.on (AX_CTL_FB n) then c < 2 else true

/-- A write of AX_CTL (R249, R250, R253, R272): status 0 accepted, 4 ACCESS, 6 BUSY, 7 RANGE. -/
def Head.writeAxCtl (h : Head) (n v : Nat) (engineer : Bool) : Head × Nat :=
  let en := bit v 0
  let c := bits v 3 2
  let pt := (h.axis n).pt
  if bit v 5 ∧ !engineer then (h, 4)
  else if bit v 4 ∧ en then (h, 6)
  else if en ∧ !h.mayEnable n then (h, 6)
  else if !h.ctrlAllowed n c then (h, 7)
  else if c ≠ h.fld (AX_CTL_CTRL n) ∧ (h.mstate n = 1 ∨ h.mstate n = 2) then (h, 6)
  else if bit v 5 ∧ !(h.fld (AX_PT_STAT_RESULT n) == 2 && pt.bridge) then (h, 6)
  else (h.shadow (AX_CTL n) (bits v 5 0), 0)

/-- |w| is below 5 % of rated speed, or the axis has no encoder (R249). -/
def Head.slowOrBlind (h : Head) (n : Nat) : Bool :=
  let r := h.rpmTurns n (h.fld (AX_RATED_N_RPM n)) 1 20
  h.on (AX_CTL_FB n) || !h.hasEncoder n || decide ((h.axis n).w.natAbs * r.2 < r.1 * 2 ^ 47)

/-- The fault bits that AX_CTL.CLR clears now (Table 10-4). -/
def Head.clearable (h : Head) (n : Nat) : Nat :=
  let on := b2n ((h.currentTask n).any (fun t => h.taskEnabled t) && !(h.recipeTasks.any (fun t => h.taskAxis t == n && !h.taskEnabled t)))
  let rep := (h.stationOf n).map (fun s => (h.node s).report)
  let quiet := rep.any (fun r => !r.payload.isEmpty && decide (band (wordAt r.payload 0 % 256 + wordAt r.payload 1 % 256 * 256) 0x2FF = 0))
  1 + on * 2 + on * 4 + b2n quiet * 2 ^ 6 + 2 ^ 9 + 2 ^ 10 + 2 ^ 11 + 2 ^ 12 + b2n (!(h.axis n).encFlag) * 2 ^ 13

/-- Gates off by the host: STATE DISABLED, the stop of Table 11-4. -/
def Head.disableAxis (h : Head) (n : Nat) : Head :=
  let h := (h.put (AX_CTL_EN n) 0).put (AX_STAT_STATE n) (if h.faults n = 0 then 0 else 6)
  h.gatesOffStop n

/-- An axis with no fault left leaves FAULT for DISABLED. -/
def Head.unfault (h : Head) (n : Nat) : Head :=
  if h.faults n = 0 ∧ h.fld (AX_STAT_STATE n) = 6 then h.put (AX_STAT_STATE n) 0 else h

/-- The fault bits that gate an axis off: BRIDGE_SHORT does not while the Placement Test that R251 lets start on it runs
(notes/assumptions/91.md). -/
def Head.gatingFaults (h : Head) (n : Nat) : Nat :=
  let p := (h.axis n).pt
  if p.active && p.bridge then bandNot (h.faults n) 128 else h.faults n

/-- The fault bits that an AX_CTL write clears at the edge: CLR only while EN = 0, CLR_BRIDGE bit 7; a fault of the same tick came first
and stays set (R250, R253, Table 10-8). -/
def Head.clearMask (h : Head) (n v : Nat) : Nat :=
  let x := (h.axis n).newFaults
  let clr := if bit v 4 ∧ !h.enabled n then h.clearable n else 0
  bandNot (if bit v 5 then setBit clr 7 else clr) (if x.1 = h.now then x.2 else 0)

/-- CLR and CLR_BRIDGE at the edge; CLR clears the motion faults under the same condition (R265). -/
def Head.clearAxis (h : Head) (n v : Nat) : Head :=
  let moved := bit v 4 && !h.enabled n
  let h := if bit v 4 ∨ bit v 5 then (h.wr (AX_FAULT n) (bandNot (h.faults n) (h.clearMask n v))).unfault n else h
  if moved then (h.wr (AX_MFAULT n) 0).motionShow n else h

/-- A transfer to CTRL `c` has its presets to show to the motion task; they apply again at its next run where a run goes on across the edge
or overruns in this Bell (R279). -/
def Head.owePreset (h : Head) (n c : Nat) : Head :=
  let crosses := (List.range 16).any (fun e =>
    let g := h.engine e
    (g.mode == .running || g.mode == .parked) && !g.bench && h.isMotion g.tid && h.taskAxis g.tid == n)
  h.setMot n (fun m => { m with owed := some (c, crosses) })

/-- The presets that a transfer owes, at the start of a run of the motion task. -/
def Head.payPreset (h : Head) (n : Nat) : Head :=
  match (h.mot n).owed with
  | some (c, true) => ((h.presetLaws n c).setMot n (fun m => { m with owed := some (c, false) })).motionShow n
  | _ => h

/-- AX_CTL as it takes effect at a Bell edge: CLR acts with the EN of the same write (R250). -/
def Head.edgeAxCtl (h : Head) (n v : Nat) : Head :=
  let c := bits v 3 2
  let h := if !bit v 0 ∧ h.enabled n then h.disableAxis n else h
  let h := h.clearAxis n v
  let h := if c ≠ h.fld (AX_CTL_CTRL n) then
      let h := (h.transfer n c).owePreset n c
      if c = 3 then (h.declutch n).phiPreset n else h
    else h
  if bit v 0 ∧ !h.enabled n then
    if h.faults n ≠ 0 then h.put (AX_CTL_EN n) 1
    else
      let h := h.put (AX_CTL_EN n) 1
      let h := h.enablePreset n |>.owePreset n c
      let h := h.setXWords n ((List.range 9).map (fun i => (41 + i, 0)) ++ [(40, 0), (53, 0), (54, 0), (60, 0)])
      if h.slowOrBlind n ∨ h.isStepper n then h.put (AX_STAT_STATE n) 1
      else (h.setXWords n [(11, 0), (12, 0), (13, 0), (14, 0)]).put (AX_STAT_STATE n) 2
  else h

/-! ## Catches (R247) -/

/-- The catch starts of an axis over the last 1 s of Machine Time. -/
def Head.recentCatches (h : Head) (n : Nat) : List Nat := (h.axis n).catches.filter (fun t => h.mtNs < t + 10 ^ 9)

/-- A catch start at axis `n`: counted, and turned into CATCH_FAIL when it is the third within 1 s of Machine Time. It answers
whether the catch runs. -/
def Head.catchStart (h : Head) (n : Nat) : Head × Bool :=
  let recent := h.recentCatches n
  if recent.length ≥ 2 then (h.faultAxis n 10, false)
  else
    let h := h.setAxis n (fun x => { x with catches := h.mtNs :: recent })
    ((((h.bump (AX_CNT_CATCH n)).put (AX_STAT_CATCHES n) (recent.length + 1)).raise 2 6 n), true)

/-! ## Placement Test (R251 to R253) -/

/-- AX_PT_CTL.START (R251): the test begins, or RESULT is REFUSED. The report may carry the live flags UV, CHOP_I, ENC, RIDE, CMD_BAD and
GATES_OFF, and UVLO_HS and UVLO_LS, which are live on an axis without POWER_STAGE: latched ones have set it (Tables 15-5, 15-6). -/
def Head.ptStart (h : Head) (n : Nat) (engineer : Bool) : Head :=
  let s := h.stationOf n
  let rep := s.map (fun s => (h.node s).report)
  let prot := rep.map (fun r => wordAt r.payload 0 % 256 + wordAt r.payload 1 % 256 * 256)
  let fl := h.faults n
  let ok := !h.enabled n && (h.currentTask n).any (fun t => h.taskEnabled t && (h.task t).rxValid) &&
    prot.any (fun p => band p 0x0ACF = 0) && (fl == 0 || (engineer && fl == 128))
  let h := (h.wr (AX_PT_RS n) 0).wr (AX_PT_LD n) 0
  let h := ((h.wr (AX_PT_LQ n) 0).wr (AX_PT_PSI n) 0).wr (AX_PT_ENC n) 0
  if !ok then h.put (AX_PT_STAT_RESULT n) 8
  else
    let bridge := fl == 128
    let h := h.wr (AX_PT_STAT n) (2 ^ 24 + (if bridge then 1 else 2) * 2 ^ 16)
    let h := h.setXWords n ((List.range 9).map (fun i => (41 + i, 0)) ++ [(53, 0), (54, 0), (11, 0), (12, 0), (13, 0), (14, 0)])
    let h := h.put (AX_STAT_STATE n) 5
    h.setAxis n (fun x => { x with pt := { Placement.initial with
      active := true, bridge := bridge, move := h.on (AX_PT_CTL_MOVE n) && h.hasEncoder n, spin := h.on (AX_PT_CTL_SPIN n) } })

/-- End the test with a result (R251, R253). -/
def Head.ptEnd (h : Head) (n result : Nat) : Head :=
  let h := (h.put (AX_PT_STAT_RESULT n) result).put (AX_STAT_STATE n) (if h.faults n = 0 then 0 else 6)
  h.setAxis n (fun x => { x with pt := { x.pt with active := false, abort := false, bridge := x.pt.bridge && result == 2 } })

/-- The step and the Bell of the test. -/
def Head.ptStep (h : Head) (n : Nat) : Nat := h.fld (AX_PT_STAT_STEP n)

/-- I_T in Q1.23: CUR, or half the rated current. -/
def Head.ptCur (h : Head) (n : Nat) : Int :=
  let c := h.fld (AX_PT_CTL_CUR n)
  if c = 0 then (h.fld (AX_RATED_I_I n) : Int) / 2 else (c : Int) * 128

/-- Bells of a number of ms, for the timed steps. -/
def Head.ptBells (h : Head) (ms : Nat) : Nat := max 1 (h.bellsOfMs ms)

/-- The step after `s`: MOVE and SPIN steps run only when asked for; 0 ends the test. -/
def ptNext (p : Placement) (s : Nat) : Nat :=
  match s with
  | 1 => 2
  | 2 => 3
  | 3 => 4
  | 4 => if p.move then 5 else if p.spin then 6 else 0
  | 5 => if p.spin then 6 else 0
  | _ => 0

/-- The speed of the I-f angle of step 6 at Bell `b` of its ramp, in 2^-47 turn per Bell: up to 30 % of rated speed in 1 s. -/
def Head.ptSpin (h : Head) (n b : Nat) : Int :=
  let r := h.rpmTurns n (h.fld (AX_RATED_N_RPM n)) 3 10
  let full := r.1 * 2 ^ 47 / r.2
  let bells := h.ptBells 1000
  ((full * min b bells / bells : Nat) : Int)

/-- What the present Bell of the test sets in place of the law's own values (Table 10-5). -/
def Head.ptInputs (h : Head) (n : Nat) : AxisIn :=
  let p := (h.axis n).pt
  let it := h.ptCur n
  let base : AxisIn := {
    axis := n, encoderless := false, theta := (h.axis n).theta, w := 0, count := (h.axis n).count, prep := false, fresh := true, paired := none
    next := none, placement := true, driving := true
    placeId := 0, placeIq := 0, placeTheta := some 0, placeOffset := false, placeV := none, placeDuty := none }
  match h.ptStep n with
  | 1 =>
    let leg (k : Nat) : Int := if p.bell / 16 = k + 1 then 32768 + 3277 else 32768
    { base with placeDuty := some (leg 0, leg 1, leg 2) }
  | 2 => { base with driving := false, placeOffset := true }
  | 3 => { base with placeId := if p.bell < 2560 then it / 2 else it }
  | 4 =>
    let on := p.bell % 64 < 4
    let rep := p.reps.length
    let neg := rep % 2 == 1
    let v := if on then (if neg then -p.amp else p.amp) else 0
    { base with placeV := some (if rep < 16 ∨ p.psi = 0 then (v, 0) else (0, v)) }
  | 5 => { base with placeId := it, placeTheta := some p.angle }
  | _ =>
    let zero := p.bell ≥ h.ptBells 1000
    { base with placeIq := if zero then 0 else (h.fld (AX_IF_IF_CUR n) : Int), placeTheta := some p.angle, w := h.ptSpin n p.bell }

/-- The mean of 16 repetitions and whether they scatter by no more than 10 %. -/
def ptMean (l : List Int) : Int × Bool :=
  let s := l.foldl (· + ·) 0
  let k := max 1 l.length
  let hi := l.foldl max (l.headD 0)
  let lo := l.foldl min (l.headD 0)
  (divEven s k, decide ((hi - lo) * 10 * k ≤ s))

/-- Go on to the next step, or end the test with its verdict (R253). -/
def Head.ptAdvance (h : Head) (n : Nat) : Head :=
  let p := (h.axis n).pt
  let s := ptNext p (h.ptStep n)
  if s = 0 then
    let inR (a lo hi : Nat) : Bool := lo ≤ h.rd a && h.rd a ≤ hi
    let ok := inR (AX_PT_RS n) 100 100000000 && inR (AX_PT_LD n) 1000 1000000000 && inR (AX_PT_LQ n) 1000 1000000000 &&
      inR (AX_PT_PSI n) 0 10000000 && (!p.move || (1 ≤ h.fld (AX_PT_ENC_PP n) && h.fld (AX_PT_ENC_PP n) ≤ 64))
    h.ptEnd n (if p.bad ≠ 0 then p.bad else if ok then 2 else 7)
  else
    (h.put (AX_PT_STAT_STEP n) s).setAxis n (fun x => { x with pt := { x.pt with
      bell := 0, acc := [], reps := [], amp := if s = 4 then 167772 else 0, psi := 0, angle := 0, c0 := x.count } })

/-- Mark a result as out of its range; NO_MOVE stands over RANGE (R253). -/
def Head.ptBad (h : Head) (n code : Nat) : Head :=
  h.setAxis n (fun x => { x with pt := { x.pt with bad := if x.pt.bad = 0 ∨ code = 6 then code else x.pt.bad } })

/-- Step 4 at the end of a pulse of 64 Bells with a current change of `di` (R252). `psi` is 1 once the amplitude is found. -/
def Head.ptPulse (h : Head) (n : Nat) (di : Int) : Head :=
  let p := (h.axis n).pt
  let it := h.ptCur n
  let d : Int := (di.natAbs : Nat)
  if p.psi = 0 then
    if 4 * d ≥ it ∧ d ≤ it then h.setAxis n (fun x => { x with pt := { x.pt with psi := 1, acc := [], reps := [] } })
    else if d > it ∨ p.amp * 2 ≥ 2 ^ 23 then (h.ptBad n 7).ptAdvance n
    else h.setAxis n (fun x => { x with pt := { x.pt with amp := x.pt.amp * 2, acc := [] } })
  else
    let l := p.amp * h.vfs n * 4 * h.tb / (max 1 d * h.ifs n)
    let reps := p.reps ++ [l]
    let h := h.setAxis n (fun x => { x with pt := { x.pt with reps := reps, acc := [] } })
    if reps.length < 32 then h
    else
      let md := ptMean (reps.take 16)
      let mq := ptMean (reps.drop 16)
      let h := (h.wr (AX_PT_LD n) (min (2 ^ 32 - 1) md.1.toNat)).wr (AX_PT_LQ n) (min (2 ^ 32 - 1) mq.1.toNat)
      let h := if md.2 && mq.2 then h else h.ptBad n 7
      h.ptAdvance n

/-- The results of step 5 at its end: PP, DIR and ZERO (R252, R253). `dc` is the change of c over the forward half, `back` that over the
other, its repetition (notes/assumptions/91.md). -/
def Head.ptEncoder (h : Head) (n : Nat) (dc back err : Int) (runs : Nat) : Head :=
  let cpr := h.cpr n
  let d := dc.natAbs
  if d * 512 < cpr * 65536 then (h.ptBad n 6).ptAdvance n
  else
    let pp := (divHalfUp ((cpr * 4 * 65536 : Nat) : Int) d).toNat
    let h := (h.put (AX_PT_ENC_PP n) (min 127 pp)).putBit (AX_PT_ENC_DIR n) (decide (dc < 0))
    let h := if pp > 64 ∨ !(ptMean [(d : Int), -back * sgn dc]).2 then h.ptBad n 7 else h
    (h.put (AX_PT_ENC_ZERO n) (toBits 24 (divEven err (max 1 runs)))).ptAdvance n

/-- One run of the current law during the test: `x` gives the X context words after it, `prot` the report's flags. -/
def Head.ptRun (h : Head) (n : Nat) (x : Nat → Int) (prot : Nat) : Head :=
  let p := (h.axis n).pt
  let b := p.bell
  let next (h : Head) (acc : List Int) (angle : Nat) : Head :=
    h.setAxis n (fun y => { y with pt := { y.pt with bell := b + 1, acc := acc, angle := angle } })
  match h.ptStep n with
  | 1 =>
    let high (i : Nat) : Bool := decide ((x i).natAbs * 10 > 2 ^ 23)
    if bit prot 0 ∨ (b < 16 ∧ (high 2 || high 3 || high 4)) then h.ptEnd n 4
    else if b + 1 ≥ 64 then h.ptAdvance n
    else next h [] 0
  | 3 =>
    let q := b % 2560
    let k := b / 2560
    let a (i : Nat) : Int := p.acc.getD i 0
    let acc := if q < 512 then [a 0, a 1, a 2, a 3]
      else if k = 0 then [a 0 + x 15, a 1 + x 7, a 2, a 3] else [a 0, a 1, a 2 + x 15, a 3 + x 7]
    if b + 1 < 5120 then next h acc 0
    else
      let dv := acc.getD 2 0 - acc.getD 0 0
      let di := acc.getD 3 0 - acc.getD 1 0
      let rs := if di ≤ 0 then 0 else divEven (dv * h.vfs n * 10 ^ 6) (di.toNat * h.ifs n)
      let h := h.wr (AX_PT_RS n) (min (2 ^ 32 - 1) rs.toNat)
      h.ptAdvance n
  | 4 =>
    let i := if p.reps.length < 16 ∨ p.psi = 0 then x 7 else x 8
    let base := p.acc.getD 0 i
    let far := p.acc.getD 1 0
    let d := i - base
    let far := if d.natAbs > far.natAbs then d else far
    let h := next h [base, far] 0
    if (b + 1) % 64 = 0 then h.ptPulse n far else h
  | 5 =>
    let total := h.ptBells 4000
    let half := total / 2
    let c := (h.axis n).count
    let cyc : Int := (h.cpr n * 65536 : Nat)
    let d0 := (c - p.c0) % cyc
    let d := if 2 * d0 ≥ cyc then d0 - cyc else d0
    let a (i : Nat) : Int := p.acc.getD i 0
    let th := if b < half then 4 * 2 ^ 24 * (b + 1) / half else 4 * 2 ^ 24 * (total - (b + 1)) / max 1 (total - half)
    let fwd := if b < half then a 0 + d else a 0
    let pp : Int := if fwd = 0 then 1 else divHalfUp (cyc * 4) fwd.natAbs
    let raw := (c * pp * 2 ^ 24) / cyc
    let meas := if fwd < 0 then -raw else raw
    let e := sext 24 (toBits 24 ((p.angle : Int) - meas - a 2))
    let first := sext 24 (toBits 24 ((p.angle : Int) - meas))
    let acc := if b < half then [fwd, 0, 0, 0] else if b = half then [fwd, first, first, d] else [fwd, a 1 + a 2 + e, a 2, a 3 + d]
    let h := h.setAxis n (fun y => { y with pt := { y.pt with c0 := c } })
    if b + 1 < total then next h acc (th % 2 ^ 24)
    else h.ptEncoder n fwd (acc.getD 3 0) (acc.getD 1 0) (max 1 (total - half))
  | 6 =>
    let ramp := h.ptBells 1000
    let w := h.ptSpin n b
    let th := (((p.angle : Int) + divEven w (2 ^ 23)) % 2 ^ 24).toNat
    let a := p.acc.getD 0 0
    let acc := if b < ramp then [0] else [a + x 16]
    if b + 1 < ramp + 64 then next h acc th
    else
      let vq := (acc.getD 0 0).natAbs / 64
      let psi := vq * h.vfs n * h.tb * 2 ^ 96 * 2 ^ 24 / (2 * pi96 * max 1 w.toNat * 10 ^ 6)
      (h.wr (AX_PT_PSI n) (min (2 ^ 32 - 1) psi)).ptAdvance n
  | _ => h

/-- The test's conditions at a Bell edge (R251): an abort, a fault, a safety demand or a switch-over end it. -/
def Head.ptEdge (h : Head) (n : Nat) : Head :=
  let p := (h.axis n).pt
  if !p.active then h
  else if bit (h.faults n) 0 then h.ptEnd n 5
  else if p.abort ∨ (h.faults n ≠ 0 ∧ !(p.bridge ∧ h.faults n = 128)) ∨ h.stopCode n ≠ 0 ∨ h.substitute then h.ptEnd n 3
  else h

/-- APPLY after OK (R253): the results of the steps that ran become motor data, and the derivation starts. -/
def Head.ptApply (h : Head) (n : Nat) : Head × Nat :=
  if h.fld (AX_PT_STAT_RESULT n) ≠ 2 then (h, 6)
  else
    let p := (h.axis n).pt
    let new := [(AX_RS n, h.rd (AX_PT_RS n)), (AX_LD n, h.rd (AX_PT_LD n)), (AX_LQ n, h.rd (AX_PT_LQ n))] ++
      (if p.spin then [(AX_PSI n, h.rd (AX_PT_PSI n))] else []) ++
      (if p.move then [(AX_MOTOR n, h.fld (AX_PT_ENC_DIR n) * 256 + h.fld (AX_PT_ENC_PP n))] else [])
    (h.setAxis n (fun x => { x with
      motorData := (x.motorData.filter (fun e => new.all (fun w => w.1 ≠ e.1))) ++ new.map (fun e => (e.1, BitVec.ofNat 32 e.2))
      deriving_ := true }), 0)

end Sys2Proof.Machine
end

