-- ==== Sys2Proof/Machine/LoopEngine.lean ====
section
/-! DEFINITION. The Loop Engines in the head (chapter 08): one instruction of a running engine with its cost and budget, the
LAW calls with their windows, what a law reports to its axis, the bench controls and the memory window. -/

namespace Sys2Proof.Machine

/-! ## LAW calls (R200, R201) -/

/-- Worst-case core cycles of entries 0x00 to 0x15 (Table 08-15). -/
def lawCycles (entry : Nat) : Option Nat :=
  [38, 12, 46, 10, 78, 24, 96, 22, 350, 318, 36, 40, 56, 64, 14, 18, 30, 90, 9, 30, 32, 40][entry]?

/-- What the laws take from the axis of engine `e` beyond its context. FOC_EXP_PREP (`prep`) runs ahead of its Bell's report and takes
the one of the Bell before (R243). -/
def Head.axisIn (h : Head) (e : Nat) (prep : Bool) : AxisIn :=
  let n := (h.engine e).axn
  let b := h.bellNo
  let before := (b + 2 ^ 32 - 1) % 2 ^ 32
  let s := h.stationOf n
  let got := (h.node (s.getD 0)).report.bell
  let fresh := if prep then (h.task (h.engine e).tid).rxValid && (got == before || got == b) else bit (h.ports e).rxStat 0
  let cmd (k : Nat) : Option (List Word) := s.bind (fun s => h.pairedCmd s k)
  let bare : AxisIn := {
    axis := n, encoderless := h.on (AX_CTL_FB n), theta := (h.axis n).theta, w := (h.axis n).w, count := (h.axis n).count, prep := prep
    fresh := fresh, paired := cmd (if fresh then got else if prep then before else b), next := if prep then cmd b else none
    placement := false, driving := false, placeId := 0, placeIq := 0, placeTheta := none, placeOffset := false, placeV := none, placeDuty := none }
  if n < 128 ∧ (h.axis n).pt.active then
    { h.ptInputs n with
      theta := bare.theta, count := bare.count, prep := prep, fresh := fresh, paired := bare.paired, next := bare.next }
  else bare

/-- A report of a law to its axis; the flag says that a catch of this run became CATCH_FAIL. -/
def Head.applyFx (n : Nat) (x : Head × Bool) (f : AxFx) : Head × Bool :=
  let h := x.1
  match f with
  | .fault k => (h.faultAxis n k, x.2)
  | .state s =>
    if (h.axis n).pt.active then (if s = 2 ∧ h.ptStep n = 2 then (h.ptAdvance n, x.2) else x)
    else if x.2 ∨ h.faults n ≠ 0 then x
    else (h.put (AX_STAT_STATE n) s, x.2)
  | .nowin b => (if b then (h.put (AX_STAT_NOWIN n) 1).bump (AX_CNT_NOWIN n) else h.put (AX_STAT_NOWIN n) 0, x.2)
  | .shifted b => (if b then (h.put (AX_STAT_SHIFTED n) 1).bump (AX_CNT_SHIFT n) else h.put (AX_STAT_SHIFTED n) 0, x.2)
  | .vlimit b => (h.putBit (AX_STAT_VLIMIT n) b, x.2)
  | .ilimit b => (h.putBit (AX_STAT_ILIMIT n) b, x.2)
  | .catchStart => let r := h.catchStart n; (r.1, x.2 || !r.2)
  | .word a v => (h.wr a v, x.2)

/-- Run a law of the current family: its context, then its reports. -/
def Head.currentLaw (h : Head) (e : Nat) (prep : Bool) (f : Ctx → Ctx) : Head :=
  let g := h.engine e
  let c := f { e := g, pt := h.ports e, ax := h.axisIn e prep, fx := [] }
  let h := h.setEngine e (fun _ => c.e)
  if g.axn ≥ 128 then h else (c.fx.foldl (Head.applyFx g.axn) (h, false)).1

/-- What follows a whole current law: the Placement Test's run in the step that the law ran in (R252), the position of an encoderless axis from a run with a valid report. -/
def Head.afterFoc (h : Head) (e : Nat) (prep : Bool) (step : Nat) : Head :=
  let g := h.engine e
  let n := g.axn
  if n ≥ 128 then h
  else
    let x (i : Nat) : Int := (g.xRam.get zero24 (g.xWin.1 + i)).toInt
    let pt := h.ports e
    let prot := wordAt pt.rx 0 % 256 + wordAt pt.rx 1 % 256 * 256
    if (h.axis n).pt.active then (if h.ptStep n = step then h.ptRun n x prot else h)
    else if h.on (AX_CTL_FB n) && (h.axisIn e prep).fresh then h.takeObserver n (toBits 24 (x 37))
    else h

/-- What the stepper law takes from its axis. -/
def Head.stepIn (h : Head) (e n : Nat) : StepIn :=
  { level := h.stepLevel n (h.stepMoved e n), kc := h.fld (AX_STP_KC_KC n), dutyMax := h.fld (AX_STP_KC_DUTY_MAX n),
    msLog2 := h.fld (AX_STP_CFG_MS_LOG2 n) }

/-- STEPPER_V of engine `e` (R275 to R278). -/
def Head.lawStepper (h : Head) (e : Nat) : Head :=
  let n := (h.engine e).axn
  let h := h.currentLaw e false (stepperV (h.stepIn e n))
  if n ≥ 128 then h else h.stepRun e n (bit (h.ports e).rxStat 0) (h.fld (AX_STAT_STATE n) == 2)

/-- PZ2 and PZ3 on the loop record at AP0 and AP2 (R311, R323). -/
def lawPz (third : Bool) (g : Engine) : Engine :=
  let xb := (g.ap[0]).toNat
  let yb := (g.ap[2]).toNat
  let x (i : Nat) : Int := (g.xRam.get zero24 (xb + i)).toInt
  let y (i : Nat) : Int := (g.yRam.get zero24 (yb + i)).toInt
  let lim := (g.yRam.get zero24 (yb + 7)).toNat
  let outMax := (g.yRam.get zero24 (yb + 8)).toNat
  let e := [sat24 (x 8 - x 9), x 0, x 1, x 2]
  let u := [x 4, x 5, x 6]
  let out := pzStep third ((List.range 7).map y) e u (bits lim 18 16) (bits lim 15 0) (bits outMax 15 0)
  let ws := e ++ [(out : Int) * 128] ++ u
  { g with xRam := g.xRam.setList zero24 xb (ws.map w24) }

/-- FOPDT on the loop record (R319, R323): the duty of this sample enters the circular delay line. -/
def lawFopdt (g : Engine) : Engine :=
  let xb := (g.ap[0]).toNat
  let yb := (g.ap[2]).toNat
  let x (i : Nat) : Int := (g.xRam.get zero24 (xb + i)).toInt
  let yu (i : Nat) : Nat := (g.yRam.get zero24 (yb + i)).toNat
  let ys (i : Nat) : Int := (g.yRam.get zero24 (yb + i)).toInt
  let idx := (x 87).toNat % 64
  let d := min 64 (yu 13)
  let u := x 4
  let ud := if d = 0 then u else x (23 + (idx + 64 - d) % 64)
  let r := fopdtStep (x 13) (x 9) ud (ys 9 * 2 ^ 24 + yu 10) (ys 12) (yu 11) (min 15 (yu 14))
  let set_ (t : Tbl W24) (i : Nat) (v : Int) : Tbl W24 := t.set zero24 (xb + i) (w24 v)
  { g with xRam := set_ (set_ (set_ (set_ g.xRam (23 + idx) u) 87 (((idx + 1) % 64 : Nat) : Int)) 13 r.1) 14 r.2 }

/-- How many words from the bases of the X, Y and C windows the laws on context windows reach: entries 0x00 to 0x0D and 0x11 on the
layout of Table 10-6 and notes/assumptions/30.md. -/
def lawReach (entry : Nat) : Nat × Nat × Nat :=
  [(56, 44, 30), (20, 0, 0), (63, 40, 0), (49, 44, 30), (53, 45, 30), (63, 18, 0), (60, 35, 0), (61, 48, 0), (63, 48, 30), (75, 48, 30),
    (75, 16, 0), (7, 0, 0), (7, 0, 0), (7, 0, 0), (0, 0, 0), (0, 0, 0), (0, 0, 0), (63, 44, 0)].getD entry (0, 0, 0)

/-- The words of its loop record that a process law touches (Table 13-7): X from AP0, Y from AP2. -/
def loopReach (entry : Nat) (g : Engine) : List Nat × List Nat :=
  let yb := (g.ap[2]).toNat
  let d := (g.yRam.get zero24 (yb + 13)).toNat
  let idx := (g.xRam.get zero24 ((g.ap[0]).toNat + 87)).toNat % 64
  match entry with
  | 0x0E => ([0, 1, 2, 3, 4, 5, 6, 7, 8, 9], [0, 1, 2, 4, 5, 7, 8])
  | 0x0F => ([0, 1, 2, 3, 4, 5, 6, 7, 8, 9], List.range 9)
  | 0x10 => ([4, 9, 13, 14, 87, 23 + idx] ++ (if d = 0 then [] else [23 + (idx + 64 - min 64 d) % 64]), [9, 10, 11, 12, 13, 14])
  | _ => ([], [])

/-- The X words that a law stores to without reading what stood there: an error on one goes with its old contents. -/
def lawResults (entry : Nat) (g : Engine) : List Nat :=
  let win (l : List Nat) : List Nat := l.map (g.xWin.1 + ·)
  let rec_ (l : List Nat) : List Nat := l.map ((g.ap[0]).toNat + ·)
  match entry with
  | 0x00 => win [2, 3, 4]
  | 0x01 => win [5, 6, 19]
  | 0x02 => win [9, 10]
  | 0x03 => win [17, 18, 20]
  | 0x08 | 0x09 => win [2, 3, 4, 5, 6, 9, 10, 15, 16, 17, 18, 19, 20]
  | 0x0B => win [0, 1]
  | 0x0C | 0x0D => win [2, 3, 4, 5, 6]
  | 0x0E | 0x0F => rec_ [3, 7]
  | 0x10 => rec_ [14, 23 + (g.xRam.get zero24 ((g.ap[0]).toNat + 87)).toNat % 64]
  | 0x11 => win [15, 16, 19]
  | _ => []

/-- Every access of a law lies inside the task's windows (R182, R200, R254). -/
def lawFits (entry : Nat) (g : Engine) : Bool :=
  let r := lawReach entry
  let words := loopReach entry g
  r.1 ≤ g.xWin.2 && r.2.1 ≤ g.yWin.2 && r.2.2 ≤ g.cWin.2 &&
    words.1.all (fun i => inWindow g.xWin ((g.ap[0]).toNat + i)) && words.2.all (fun i => inWindow g.yWin ((g.ap[2]).toNat + i))

/-- A word of engine memory, memory and address, lies where a law reads: in the words it reaches, or in its loop record. -/
def lawReads (entry : Nat) (g : Engine) (w : Nat × Nat) : Bool :=
  let r := lawReach entry
  let l := loopReach entry g
  (w.1 == 1 && (inWindow (g.xWin.1, r.1) w.2 || l.1.any (fun i => (g.ap[0]).toNat + i == w.2)) && !(lawResults entry g).contains w.2) ||
    (w.1 == 2 && (inWindow (g.yWin.1, r.2.1) w.2 || l.2.any (fun i => (g.ap[2]).toNat + i == w.2))) ||
    (w.1 == 3 && inWindow (g.cWin.1, r.2.2) w.2)

/-- A word with an uncorrectable error lies where a law reads (R202). -/
def lawHurt (entry : Nat) (g : Engine) : Bool := g.bad.any (lawReads entry g)

/-- The effect of a LAW entry of Table 08-15 on engine `e`. -/
def Head.runLaw (h : Head) (e entry : Nat) : Head :=
  let g := h.engine e
  let on (h : Head) (f : Head → Head) : Head := if g.axn < 128 then f h else h
  match entry with
  | 0x00 => h.currentLaw e false ssRecon
  | 0x01 => h.currentLaw e false clarkePark
  | 0x02 => h.currentLaw e false (fun c => dqPi c.predicts c)
  | 0x03 => h.currentLaw e false ipark
  | 0x04 => h.currentLaw e false (svmShift 0)
  | 0x05 => h.currentLaw e false dtComp
  | 0x06 => h.currentLaw e false observer
  | 0x07 => h.currentLaw e false plaus
  | 0x08 => (h.currentLaw e false focStd).afterFoc e false (h.ptStep g.axn)
  | 0x09 => (h.currentLaw e true focExpPrep).afterFoc e true (h.ptStep g.axn)
  | 0x0A => h.currentLaw e false (focExpClose (decide (g.axn < 128) && h.gatingFaults g.axn != 0))
  | 0x0B => on h (lawSpeed (h.divOf e) e)
  | 0x0C => on h (lawPosition (h.divOf e) e)
  | 0x0D => on h (camEval e)
  | 0x0E => h.setEngine e (lawPz false)
  | 0x0F => h.setEngine e (lawPz true)
  | 0x10 => h.setEngine e lawFopdt
  | 0x11 => h.lawStepper e
  | 0x12 => h.setEngine e lawSinCos
  | 0x13 => h.setEngine e lawSqrt
  | 0x14 => h.setEngine e lawRecip
  | 0x15 => h.setEngine e lawAtan2
  | _ => h

/-! ## One instruction (R185 to R202) -/

/-- The instruction in progress reaches the budget: it has no effect, the engine stops with BUDGET (R198). -/
def Head.budgetFault (h : Head) (e : Nat) : Head :=
  let g := h.engine e
  match g.budget with
  | some b => (h.spend e (b - g.cycles)).engineFault e 4
  | none => h

/-- Words that were stored to: their errors go with the old contents (R202, R203). -/
def Engine.clean (g : Engine) (p : Nat × Nat → Bool) : Engine :=
  { g with flawed := g.flawed.filter (fun w => !p w), bad := g.bad.filter (fun w => !p w) }

/-- What an instruction asks of the head once it has completed. -/
def Head.instrEvent (h : Head) (e : Nat) (ev : LEvent) : Head :=
  match ev with
  | .none => h
  | .endTask => h.endTask e
  | .commit => h.commitStage e
  | .park =>
    if (h.engine e).released then h.setEngine e (fun g => { g with released := false })
    else h.setEngine e (fun g => { g with mode := .parked, parkTick := h.now })
  | .law entry =>
    let ws := lawResults entry (h.engine e)
    (h.runLaw e entry).setEngine e (fun g => g.clean (fun w => w.1 == 1 && ws.contains w.2))

/-- A law stopped among its own instructions: those completed keep their effects, of which the spec gives neither order nor number, so
the X and C words that the whole law changes inside the task's windows are free (R198, R202, notes/assumptions/79.md). -/
def Head.lawCut (h : Head) (e entry : Nat) : Head :=
  let g := h.engine e
  let whole := (h.runLaw e entry).engine e
  let cut (win : Nat × Nat) (off : Nat) (old new : Tbl W24) : Tbl W24 :=
    (((old ++ new).map (·.1)).filter (fun a => inWindow win a && old.get zero24 a != new.get zero24 a)).foldl
      (fun (t : Tbl W24) a => t.set zero24 a (Config.lawPart h.draws (off + a))) old
  h.draw.setEngine e (fun g' => { g' with
    xRam := cut g.xWin 0 g.xRam whole.xRam, cRam := cut g.cWin 0x8000 g.cRam whole.cRam })

/-- An instruction that faults takes a cycle; when that cycle reaches the budget the fault is BUDGET (R198). -/
def Head.issueFault (h : Head) (e code : Nat) : Head :=
  let g := h.engine e
  if g.budget.any (fun b => b ≤ g.cycles + 1) then h.budgetFault e else (h.spend e 1).engineFault e code

/-- The memory a bus reaches, as the error lists of an engine number it. -/
def busNo : Bus → Nat
  | .x => 1
  | .y => 2
  | .c => 3

/-- The words of engine memory that an instruction reads, its fetch first; of a law those with a single-bit error. -/
def wordsRead (g : Engine) (i : LInstr) : List (Nat × Nat) :=
  (0, g.pc) ::
    (match i with
     | .p _ _ _ _ mv =>
       let slot (b : Nat) (lo hi : Fin 8) (m : Option MoveSlot) : List (Nat × Nat) :=
         match m with | some s => [(b, (g.ap[if s.ptr then hi else lo]).toNat)] | none => []
       slot 1 0 1 mv.x ++ slot 2 2 3 mv.y ++ slot 3 4 5 mv.c
     | .m false bus _ p mode disp => [(busNo bus, modeAddr g p mode.val disp)]
     | .ctl .law _ entry _ => g.flawed.filter (lawReads entry g)
     | _ => [])

/-- The word that an instruction stores to: its errors go with its old contents. -/
def Engine.mended (g : Engine) (from_ : Engine) (i : LInstr) : Engine :=
  match i with
  | .m true bus _ p mode disp =>
    let w := (busNo bus, modeAddr from_ p mode.val disp)
    g.clean (· == w)
  | _ => g

/-- Single-bit errors on the words read are corrected on the fly and counted, each word once (R203, LE_ECC). -/
def Head.countEcc (h : Head) (e : Nat) (ws : List (Nat × Nat)) : Head :=
  h.bumpBy (LE_ECC e) (ws.eraseDups.filter (fun w => (h.engine e).flawed.contains w)).length

/-- The cycles of a law that the engine may run, or the code of the fault that LAW takes. -/
def lawCost (g : Engine) (entry : Nat) : Except Nat Nat :=
  match lawCycles entry with
  | none => .error 1
  | some k => if !lawFits entry g then .error 2 else if lawHurt entry g then .error 5 else .ok k

/-- Engine `e` issues instruction `i`: nothing while it does not run. -/
def Head.issue (h : Head) (e : Nat) (i : LInstr) : Head :=
  let g := h.engine e
  let ws := wordsRead g i
  if g.mode ≠ .running then h
  else if ws.any g.bad.contains then h.issueFault e 5
  else
    let pt := h.ports e
    let h := h.countEcc e ws
    match instrStep g pt i with
    | .fault c => h.issueFault e c
    | .ok g' cost ev =>
      let g' := g'.mended g i
      let law : Option Nat := match ev with | .law entry => some entry | _ => none
      match law.elim (.ok 0) (lawCost g) with
      | .error c => (if c = 1 then h else h.lawCut e (law.getD 0)).issueFault e c
      | .ok extra =>
        let total := g.cycles + cost + extra
        let closing := if ev = .endTask then b2n g.dirty + 1 else 0
        let reached := g.budget.any (fun b => b + closing ≤ total)
        if reached then (law.elim h (h.lawCut e)).budgetFault e
        else ((h.setEngine e (fun _ => { g' with cycles := total })).spend e (cost + extra)).instrEvent e ev

/-! ## Bench controls and the memory window (R204) -/

/-- Host writes to the engines are accepted only in Maintenance or NO_RECIPE. -/
def Head.benchOpen (h : Head) : Bool := h.fld SYS_STATUS_STATE == 6 || h.fld SYS_STATUS_STATE == 7

/-- RUN: from LE_PC, with the state of Table 08-14, the window bases at 0 and no budget. -/
def Head.benchRun (h : Head) (e : Nat) : Head :=
  let halt := h.on (LE_CTL_HALT e)
  h.setEngine e (fun g =>
    let g := g.fresh (h.rd (LE_PC e)) 0 0 0
    { g with
      mode := if halt then .halted else .running
      held := halt, tid := 0, ctrl := 0, axn := 255, bseq := h.bellNo % 256, budget := none, bench := true
      xWin := (0, 8192), yWin := (0, 8192), cWin := (0, 2048), stage := [], mail := [] })

/-- STEP: one instruction from program RAM while halted. -/
def Head.benchStep (h : Head) (e : Nat) : Head :=
  let g := h.engine e
  if g.mode ≠ .halted then h
  else
    let h := h.setEngine e (fun g => { g with mode := .running, bench := true })
    let h :=
      if g.pc ≥ 0x1000 then h.engineFault e 2
      else if g.bad.contains (0, g.pc) then h.issueFault e 5
      else
        match decodeLE (g.prog.get zeroWord g.pc) with
        | some i => h.issue e i
        | none => h.engineFault e 1
    if (h.engine e).mode = .running then h.setEngine e (fun g => { g with mode := .halted, held := true }) else h

/-- HALT: stop after the current instruction and hold; clearing it lets a held engine go on. A parked engine's current instruction is PARK,
which ends with the release. -/
def Head.benchHalt (h : Head) (e : Nat) (on : Bool) : Head :=
  let h := h.putBit (LE_CTL_HALT e) on
  let g := h.engine e
  if on then
    if g.mode = .running then h.setEngine e (fun g => { g with mode := .halted, held := true }) else h
  else if g.mode = .halted ∧ g.held then h.setEngine e (fun g => { g with mode := .running, held := false })
  else h

/-- A write of LE_CTL. -/
def Head.writeLeCtl (h : Head) (e v : Nat) : Head × Nat :=
  if !h.benchOpen then (h, 6)
  else
    let h := h.benchHalt e (bit v 0)
    let h := if bit v 2 then h.benchRun e else h
    (if bit v 1 then h.benchStep e else h, 0)

/-- The state code of LE_STAT. -/
def modeCode : EngineMode → Nat
  | .idle => 0
  | .running => 1
  | .parked => 2
  | .halted => 3
  | .faulted => 4

/-- LE_STAT as it reads. -/
def Head.readLeStat (h : Head) (e : Nat) : Nat :=
  let g := h.engine e
  g.pc % 0x2000 * 65536 + (if g.mode = .running ∨ g.mode = .parked then g.tid % 1024 * 64 else 0) + modeCode g.mode

/-- A word of the memory window of engine LE_SEL.ENG: `none` for an address the window does not hold. -/
def Head.readLeMem (h : Head) (a : Nat) : Option Nat :=
  let g := h.engine (bits (h.rd LE_SEL) 3 0)
  let i := (a - 0x60000) / 4
  if a < 0x60000 ∨ a > 0x79FFF then none
  else if i < 0x1000 then some (g.prog.get zeroWord i).toNat
  else if 0x2000 ≤ i ∧ i < 0x4000 then some (g.xRam.get zero24 (i - 0x2000)).toNat
  else if 0x4000 ≤ i ∧ i < 0x6000 then some (g.yRam.get zero24 (i - 0x4000)).toNat
  else if 0x6000 ≤ i ∧ i < 0x6800 then some (g.cRam.get zero24 (i - 0x6000)).toNat
  else none

/-- A host write to the window. -/
def Head.writeLeMem (h : Head) (a v : Nat) : Head :=
  let i := (a - 0x60000) / 4
  let w : W24 := BitVec.ofNat 24 v
  let word : Nat × Nat := if i < 0x1000 then (0, i) else if i < 0x4000 then (1, i - 0x2000) else if i < 0x6000 then (2, i - 0x4000) else (3, i - 0x6000)
  h.setEngine (bits (h.rd LE_SEL) 3 0) (fun g =>
    let g := g.clean (· == word)
    if i < 0x1000 then { g with prog := g.prog.set zeroWord i (BitVec.ofNat 32 v) }
    else if 0x2000 ≤ i ∧ i < 0x4000 then { g with xRam := g.xRam.set zero24 (i - 0x2000) w }
    else if 0x4000 ≤ i ∧ i < 0x6000 then { g with yRam := g.yRam.set zero24 (i - 0x4000) w }
    else if 0x6000 ≤ i ∧ i < 0x6800 then { g with cRam := g.cRam.set zero24 (i - 0x6000) w }
    else g)

end Sys2Proof.Machine
end

