-- ==== Sys2Proof/Machine/Tickets.lean ====
section
/-! DEFINITION. The tickets that the host and the head's own Recess work share (R124, R431 to R434), and HRDY (R432). -/

namespace Sys2Proof.Machine

/-- Tickets the host holds: PENDING, DONE or READ, and not the head's. -/
def Head.heldTickets (h : Head) : List Nat :=
  (h.host.tickets.filter (fun e => !e.2.head && 2 ≤ e.2.state)).map (·.1)

/-- Words that wait in the write-data FIFO (Table 01-3). -/
def Head.fifoWords (h : Head) : Nat :=
  (h.host.fifo.map (fun t => match (h.ticket t).req with | some r => r.words.length | none => 0)).foldl (· + ·) 0

/-- The resources of R432, the reserved ticket apart. -/
def Head.hostRoom (h : Head) : Bool :=
  h.host.up && decide (h.heldTickets.length < 192) && decide (h.host.fifo.length < 16) && decide (h.fifoWords ≤ 64)

/-- HRDY (R432). -/
def Head.hrdy (h : Head) : Bool := h.hostRoom && h.host.reserved.isSome

/-- Reserve the ticket that has been free longest for the host's next request (R431); HRDY follows. -/
def Head.reserveTicket (h : Head) : Head :=
  match h.host.reserved, h.host.free with
  | none, t :: rest =>
    if h.hostRoom then
      { h with host := { h.host with free := rest, reserved := some t } }.setTicket t (fun x => { x with state := 1 })
    else h
  | _, _ => h

/-- Release a ticket: it becomes the one that has been free the shortest (R433). -/
def Head.freeTicket (h : Head) (t : Nat) : Head :=
  let h := h.setTicket t (fun _ => Ticket.initial t)
  { h with host := { h.host with free := h.host.free ++ [t] } }.reserveTicket

/-- Take a ticket for the head's own Recess work (R124, R431); none when none is free. -/
def Head.takeHeadTicket (h : Head) (op count : Nat) : Option (Nat × Head) :=
  match h.host.free with
  | [] => none
  | t :: rest =>
    some (t, { h with host := { h.host with free := rest } }.setTicket t (fun _ =>
      { Ticket.initial t with state := 2, head := true, op := op, count := count }))

/-- The result of a ticket is committed: a host ticket becomes DONE and sets TKT_DONE, the head's own is released
(R433, R445). -/
def Head.finishTicket (h : Head) (t status : Nat) (data : List Word) (shadow : Bool) (idx : Nat) : Head :=
  if (h.ticket t).head then h.freeTicket t
  else if (h.ticket t).state ≠ 2 then h
  else
    (h.setTicket t (fun x => { x with
      state := 3, status := status, data := data, shadow := shadow, idx := idx, req := none })).put HOST_EVT_TKT_DONE 1

/-- TKT_STAT of a ticket. -/
def Head.ticketWord (h : Head) (t : Nat) : Nat :=
  let x := h.ticket t
  x.state * 2 ^ 29 + b2n x.head * 2 ^ 28 + x.op % 256 * 2 ^ 16 + x.status % 256 * 256 + x.count % 256

/-- REQ is refused after three failures in a row, for 60 s (R442). -/
def Head.reqLocked (h : Head) : Bool :=
  match h.host.lockFrom with
  | some t => decide (h.now < t + 12000000000)
  | none => false

/-- HOST_STAT as a read shows it. -/
def Head.hostStat (h : Head) : Nat :=
  let held := h.heldTickets
  let done := held.filter (fun t => 3 ≤ (h.ticket t).state)
  held.length * 2 ^ 24 + done.length * 2 ^ 16 + h.host.free.length * 2 ^ 7 +
    b2n h.reqLocked * 4 + b2n (h.on SYS_STATUS_ENG_OPEN) * 2 + b2n h.hrdy

end Sys2Proof.Machine
end

