-- ==== Sys2Proof/Machine/Power.lean ====
section
/-! DEFINITION. Power stages and DC bus groups (chapter 15, head side): the reactions to protection flags, FLT_ACK, the raw
switch test, the node configuration, the DC bus manager. -/

namespace Sys2Proof.Machine

/-! ## Recess transactions are queued here and sent by Network -/

/-- Queue a Recess transaction (R124). The head's own work takes a ticket at once when one is free; ticket 256 says that it
waits for one. -/
def Head.queueTxn (h : Head) (src : TxnSrc) (station op rcOp addr count : Nat) (data : List Word) : Head :=
  let x : Txn := { src := src, ticket := 256, station := station, op := op, rcOp := rcOp, addr := addr, count := count,
                   data := data, retries := 0 }
  match src with
  | .host t => { h with net := { h.net with waiting := h.net.waiting ++ [{ x with ticket := t }] } }
  | _ =>
    match h.takeHeadTicket op count with
    | some (t, h) => { h with net := { h.net with waiting := h.net.waiting ++ [{ x with ticket := t }] } }
    | none => { h with net := { h.net with waiting := h.net.waiting ++ [x] } }

/-! ## Groups of a station -/

/-- The groups a station counts for: those of its axes and those whose chopper node it is. -/
def Head.groupsOf (h : Head) (s : Nat) : List Nat :=
  (List.range 16).filter (fun g =>
    (h.axesOf s).any (fun n => h.groupOf n == some g) || (s != 0 && h.fld (DCB_CFG_CHOP_STATION g) == s))

/-- VFS of a station in mV (Table 15-2). -/
def Head.vfsOf (h : Head) (s : Nat) : Nat := max 1 (wordAt (h.node s).descriptor 9)

/-- The last VDC of a station as Q1.23. -/
def Head.vdcOf (h : Head) (s : Nat) : Int := sext 24 (bits (wordAt (h.node s).report.payload 4) 31 8)

/-- The protection flags of a report's words (Table 05-6, Table 05-7). -/
def protOf (ws : List Word) : Nat := wordAt ws 0 % 256 + wordAt ws 1 % 256 * 256

/-- The paired command of the report of Bell `b` carried GATE_EN = 1 (R460). -/
def Head.gateCommanded (h : Head) (s b : Nat) : Bool :=
  match h.pairedCmd s b with
  | some ws => bit (wordAt ws (if (h.axesOf s).any (fun n => h.isStepper n) then 1 else 4)) 0
  | none => false

/-- The CHOP field of the paired command. -/
def Head.chopCommanded (h : Head) (s b : Nat) : Nat :=
  match h.pairedCmd s b with
  | some ws => bits (wordAt ws (if (h.axesOf s).any (fun n => h.isStepper n) then 1 else 4)) 23 16
  | none => 0

/-! ## Reactions (R350, R358) -/

/-- OV from a node of group `g` (R358): DCB_LOCK on every member axis, the stamp of the report, the event once per lock. -/
def Head.lockGroup (h : Head) (g stamp : Nat) : Head :=
  if h.substitute then h.diverge
  else
  let h := (h.members g).foldl (fun h n => h.faultAxis n 8) h
  let h := h.wrPair (DCB_TRIP_NS g) stamp
  if h.on (DCB_STAT_LOCK g) then h else ((h.put (DCB_STAT_LOCK g) 1).raise 6 1 g).privFlag 23

/-- The axis faults that the flags of a report call for (Table 15-6), as AX_FAULT bits: 6 POWER_STAGE, 7 BRIDGE_SHORT, 13
ENC_LOSS of an encoder axis (R245). -/
def Head.protFaults (h : Head) (n prot : Nat) (gate : Bool) : List Nat :=
  let legs := (bitsSet 4 prot).filter (fun k => 1 ≤ k)
  let uvlo := bit prot 4 || bit prot 5 || bit prot 6
  let run := h.fld (AX_STAT_STATE n) == 2
  (if bit prot 0 ∧ legs.length ≠ 1 then [7] else []) ++
    (if (bit prot 0 && legs.length == 1) || (uvlo && gate) || (bit prot 8 && gate && run) || bit prot 9 ||
        (bit prot 7 && (h.groupOf n).isNone) || (bit prot 11 && h.stopCode n == 0) || (bit prot 15 && gate && !bit prot 11)
      then [6] else []) ++
    (if bit prot 12 && !h.on (AX_CTL_FB n) then [13] else [])

/-- The rank-2 part of a valid servo or stepper report: its flags are noted and acted on (R17, R350, R358). `stamp` is the
time-stamp of its /S/. -/
def Head.protReact (h : Head) (s prot stamp : Nat) : Head :=
  let h := h.orReg (NODE_PROT s) prot
  let h := if band prot 0x9BFF ≠ 0 then h.privFlag 20 else h
  let h := if bit prot 14 then h.bump (NODE_CNT_CMDBAD s) else h
  let gate := h.gateCommanded s h.bellNo
  let h := if bit prot 7 then (h.groupsOf s).foldl (fun h g => h.lockGroup g stamp) h else h
  let h := (h.axesOf s).foldl (fun (h : Head) n =>
    let h := h.setAxis n (fun x => { x with encFlag := bit prot 12 })
    let h := if bit prot 11 ∧ gate then h.gatedOff n else h
    (h.protFaults n prot gate).foldl (fun h k => h.faultAxis n k) h) h
  let r := h.fld (NODE_RAWSW_RESULT s)
  let left := (h.node s).rawsw
  let h := if bit prot 0 ∧ (r = 1 ∨ (r = 2 ∧ left > 0)) then (h.put (NODE_RAWSW_RESULT s) 3).setNode s (fun x => { x with rawsw := 0 }) else h
  h.setNode s (fun x => { x with rawsw := x.rawsw - 1 })

/-- The DC bus manager's part of a valid report: the last 4 periods of each group whose chopper node it is (R356). -/
def Head.chopPeriod (h : Head) (s prot : Nat) (vdc : Int) : Head :=
  ((List.range 16).filter (fun g => s ≠ 0 ∧ h.fld (DCB_CFG_CHOP_STATION g) = s)).foldl (fun h g =>
    let c := h.chopCommanded s h.bellNo
    h.setGroup g (fun x => { x with window := ((c, bit prot 10, vdc) :: x.window).take 4 })) h

/-! ## FLT_ACK and the mailbox duty (R351, R355) -/

/-- FLT_ACK of an axis: its own acknowledgement, or that of a group being cleared. -/
def Head.fltAckOf (h : Head) (n : Nat) : Bool :=
  if bit (h.faults n) 8 then (h.groupOf n).any (fun g => (h.group g).clearLeft.any (fun k => k > 0))
  else !h.enabled n && bit (h.faults n) 6

/-- The chopper duty of an axis: that of the group whose chopper node drives it, 0 for every other member (R355). -/
def Head.dutyOf (h : Head) (n : Nat) : Nat :=
  match h.stationOf n with
  | none => 0
  | some s =>
    match (List.range 16).find? (fun g => h.fld (DCB_CFG_CHOP_STATION g) == s && s != 0) with
    | some g => h.fld (DCB_STAT_DUTY g)
    | none => 0

/-- The regenerative limit of an axis's group (R354), Q1.23; 1.0 saturates to 0x7FFFFF for an axis in no group. -/
def Head.groupRegen (h : Head) (n : Nat) : Nat :=
  match h.groupOf n with
  | none => 0x7FFFFF
  | some g => if h.on (DCB_STAT_CHOP_FAIL g) || h.on (DCB_STAT_CHOP_LOST g) then 0 else h.fld (DCB_REGEN_REGEN g)

/-! ## The DC bus manager at a Bell edge (R355 to R359) -/

/-- The duty code of R355 from V as `num` / `den` in units of 0.1 V. -/
def dutyCode (num : Int) (den vOn vFull : Nat) : Nat :=
  if num ≤ (vOn * den : Nat) then 0
  else if num ≥ (vFull * den : Nat) then 255
  else (255 * (num - (vOn * den : Nat)) / ((vFull - vOn) * den : Nat)).toNat

/-- No clear edge came within 16 Bells (R359): REFUSE = 3, the lock stays. -/
def Head.clearTimeout (h : Head) (g : Nat) : Head :=
  if (h.group g).clearLeft = some 0 then (h.put (DCB_CTL_REFUSE g) 3).setGroup g (fun x => { x with clearLeft := none }) else h

/-- Group `g` at the edge of Bell `b`: the clearing of R359, the chopper supervision of R356 and R357, the duty of R355. -/
def Head.groupEdge (h : Head) (g b : Nat) : Head :=
  let h := h.clearTimeout g
  let x := h.group g
  let h : Head := if x.clrPending then h.setGroup g (fun x => { x with clrPending := false, clearLeft := some 17 }) else h
  let ov (n : Nat) : Bool := (h.stationOf n).any (fun s => bit (protOf (h.node s).report.payload) 7)
  let h : Head := match (h.group g).clearLeft with
    | none => h
    | some k =>
      if (h.members g).any ov then h.setGroup g (fun x => { x with clearLeft := some (k - 1) })
      else
        let h := (h.members g).foldl (fun (h : Head) n =>
          let h := h.axisClear n 8
          if h.faults n = 0 ∧ h.fld (AX_STAT_STATE n) = 6 then h.put (AX_STAT_STATE n) 0 else h) h
        (h.put (DCB_STAT_LOCK g) 0).setGroup g (fun x => { x with clearLeft := none })
  let h : Head := if x.failClr then (h.put (DCB_STAT_CHOP_FAIL g) 0).setGroup g (fun x => { x with failClr := false, window := [] }) else h
  let s := h.fld (DCB_CFG_CHOP_STATION g)
  if s = 0 then h
  else
    let r := (h.node s).report
    let seen := r.valid ∧ bellAfter r.bell 1 = b
    let st := h.fld (NODE_STAT_STATE s)
    let h : Head := if seen then h.setGroup g (fun x => { x with missing := 0 })
      else h.setGroup g (fun x => { x with missing := x.missing + 1, window := [] })
    let lost := (h.group g).missing ≥ 4 ∨ (st ≠ 1 ∧ st ≠ 7)
    let h := if lost then h.put (DCB_STAT_CHOP_LOST g) 1 else if seen then h.put (DCB_STAT_CHOP_LOST g) 0 else h
    let w := (h.group g).window
    let rise : Int := match w with
      | (_, _, v3) :: _ :: _ :: (_, _, v0) :: _ => v3 - v0
      | _ => 0
    let fail := w.length = 4 ∧ w.all (fun p => 0x80 ≤ p.1 && !p.2.1) ∧
      rise * h.vfsOf s ≥ (h.fld (DCB_OV_DV_MIN g) * 100 * 2 ^ 23 : Nat)
    let h := if fail ∧ !h.on (DCB_STAT_CHOP_FAIL g) then ((h.put (DCB_STAT_CHOP_FAIL g) 1).raise 6 0 g).privFlag 23 else h
    if r.payload.isEmpty then h
    else
      let num := h.vdcOf s * h.vfsOf s
      let v := divHalfUp num (100 * 2 ^ 23)
      (h.put (DCB_STAT_VDC g) (max 0 (min 65535 v)).toNat).put (DCB_STAT_DUTY g)
        (dutyCode num (100 * 2 ^ 23) (h.fld (DCB_VCHOP_V_ON g)) (h.fld (DCB_VCHOP_V_FULL g)))

/-! ## Group commands (R356, R359) -/

/-- What refuses CLR_LOCK: 0 nothing, 1 a member axis enabled, 2 VDC too high. -/
def Head.clrLockRefuse (h : Head) (g : Nat) : Nat :=
  let high (n : Nat) : Bool := match h.stationOf n with
    | some s => decide (h.vdcOf s * h.vfsOf s ≥ (95 * h.fld (DCB_OV_OV_TRIP g) * 2 ^ 23 : Nat))
    | none => false
  if (h.members g).any (fun n => h.enabled n) then 1 else if (h.members g).any high then 2 else 0

/-- A write of DCB_CTL. -/
def Head.writeDcbCtl (h : Head) (g v : Nat) : Head × Nat :=
  let no := if bit v 1 then h.clrLockRefuse g else 0
  if no ≠ 0 then (h.put (DCB_CTL_REFUSE g) no, 6)
  else
    let h := if bit v 1 then (h.put (DCB_CTL_REFUSE g) 0).setGroup g (fun x => { x with clrPending := true }) else h
    (if bit v 0 then h.setGroup g (fun x => { x with failClr := true }) else h, 0)

/-! ## Node configuration (R339, R342, R354) -/

/-- KEL_SH: the largest shift 0 to 63 that keeps KEL_M below 2^32 (R342). -/
def kelShift (pp cpr : Nat) : Nat :=
  let m (sh : Nat) : Nat := (divHalfUp ((pp * 2 ^ (24 + sh) : Nat) : Int) (max 1 cpr)).toNat
  ((List.range 64).filter (fun sh => m sh < 2 ^ 32)).foldl max 0

/-- The configuration words of a station: those of the NODE section, with the words the head computes for a servo node and
OV_TRIP of its group in place. -/
def Head.configWords (h : Head) (s : Nat) : List (Nat × Word) :=
  let base := match h.station? s with | some c => c.config | none => []
  let kel : List (Nat × Word) := match (h.axesOf s).find? (fun n => !h.isStepper n && h.hasEncoder n) with
    | some n =>
      let pp := h.polePairs n
      let sh := kelShift pp (h.cpr n)
      let m := divHalfUp ((pp * 2 ^ (24 + sh) : Nat) : Int) (h.cpr n)
      [(0x40, BitVec.ofInt 32 m), (0x41, BitVec.ofNat 32 (b2n (h.on (AX_MOTOR_DIR n)) * 256 + sh))]
    | none => []
  let ov : List (Nat × Word) := match h.groupsOf s with
    | g :: _ =>
      let q := divHalfUp ((h.fld (DCB_OV_OV_TRIP g) * 100 * 2 ^ 23 : Nat) : Int) (h.vfsOf s)
      [(0x43, BitVec.ofNat 32 (min 0x7FFFFF q.toNat * 256))]
    | [] => []
  let own := kel ++ ov
  base.filter (fun e => own.all (fun w => w.1 ≠ e.1)) ++ own

/-- The head begins to write the configuration of a station (R339): one WRITE per word; CFG_OK follows the last OK. -/
def Head.configWrite (h : Head) (s : Nat) : Head :=
  let ws := h.configWords s
  let h := (h.putBit (NODE_PROT_CFG_OK s) ws.isEmpty).setNode s (fun x => { x with configLeft := ws })
  ws.foldl (fun h e => h.queueTxn .config s 2 0 e.1 1 [e.2]) h

/-- A configuration WRITE completed with STATUS OK. -/
def Head.configDone (h : Head) (s addr : Nat) : Head :=
  let left := (h.node s).configLeft.filter (fun e => e.1 ≠ addr)
  (h.setNode s (fun x => { x with configLeft := left })).putBit (NODE_PROT_CFG_OK s) left.isEmpty

/-! ## The raw switch test (R352) -/

/-- Check 2 of R352: the node may be tested now. -/
def Head.rawswReady (h : Head) (s : Nat) : Bool :=
  match h.axesOf s with
  | n :: _ =>
    let prot := protOf (h.node s).report.payload
    let r := h.rpmTurns n (h.fld (AX_RATED_N_RPM n)) 1 100
    let slow := if h.isStepper n then decide (64 ≤ (h.axis n).pStill) else decide ((h.axis n).w.natAbs * r.2 < r.1 * 2 ^ 47)
    !h.enabled n && h.fld (AX_STAT_STATE n) == 0 && !(h.axis n).pt.active && !(h.node s).report.payload.isEmpty &&
      !bit prot 11 && !bit prot 13 && slow
  | [] => false

/-- A write of NODE_RAWSW (R352): 5 INTERLOCK for both switches of a leg, 6 BUSY for the other conditions. -/
def Head.writeRawsw (h : Head) (s v : Nat) : Head × Nat :=
  let p := bits v 5 0
  let w := bits v 31 16
  let both (k : Nat) : Bool := bit p (2 * k) && bit p (2 * k + 1)
  if both 0 || both 1 || both 2 then (h, 5)
  else if !h.rawswReady s then (h, 6)
  else if w < 1 ∨ w > 20000 ∨ w > h.bellTicks - 1 then (h, 6)
  else
    let h := h.wr (NODE_RAWSW s) (w * 65536 + 256 + p)
    ((h.setNode s (fun x => { x with rawsw := 0 })).queueTxn .rawsw s 3 0 0x60 1 [BitVec.ofNat 32 (w * 65536 + p)], 0)

end Sys2Proof.Machine
end

