-- ==== Sys2Proof/Machine/Lane.lean ====
section
/-! DEFINITION. Lanes (chapter 04) and what the head sends on them (chapter 05, downstream): bring-up and loss of sync, the
frames' headers and CRC, the Bell markers, the cyclic slots. -/

namespace Sys2Proof.Machine

/-! ## Frames (R99, R100) -/

/-- H, the own epoch, the epoch in force for received frames (R104, R405). -/
def Head.headNo (h : Head) : Nat := h.fld RED_CFG_H
def Head.ownEpoch (h : Head) : Nat := h.fld RED_STAT_EPOCH
def Head.epochIn (h : Head) : Nat := if h.substitute then h.fld RED_HB_DUE_P_EPOCH else h.ownEpoch

/-- Header word 0 (Table 05-1). -/
def headWord0 (station kind len : Nat) (retry limp up : Bool) : Nat :=
  station % 65536 * 65536 + kind % 16 * 4096 + len % 64 * 64 + b2n retry * 4 + b2n limp * 2 + b2n up

/-- Header word 1. -/
def headWord1 (epoch bseq slot : Nat) : Nat := epoch % 65536 * 65536 + bseq % 256 * 256 + slot % 256

/-- A whole frame with its CRC word. -/
def mkFrame (w0 w1 : Nat) (payload : List Word) : Frame :=
  let a := BitVec.ofNat 32 w0
  let b := BitVec.ofNat 32 w1
  { w0 := a, w1 := b, payload := payload, crc := frameCrc (a :: b :: payload) }

/-- Send a frame on a lane whose transmitter is enabled; `broken` says that /V/ stands in it (R86). -/
def Head.sendAs (h : Head) (lane : Nat) (broken : Bool) (f : Frame) : Head :=
  if (h.lane lane).enabled then
    { h with net := { h.net with tx := h.net.tx.modify (fun _ => []) lane (fun l => (f :: l).take 4) } }.setLane lane (fun x =>
      { x with lastBroken := broken })
  else h

/-- Send a whole frame. -/
def Head.send (h : Head) (lane : Nat) (f : Frame) : Head := h.sendAs lane false f

/-! ## Boundary delays (R138, R169)

Table 03-10 gives each lane 16 bytes of the trim store and names five values in them; their places are the model's
(notes/assumptions/93.md): the transmit and the receive boundary delay are the third and the fourth word. -/

/-- A word of the trim values in use: the store's, and with TRIM_BAD the built-in one (R79). -/
def Head.trimUsed (h : Head) (k : Nat) : Nat := if h.on SYS_STATUS_TRIM_BAD then (Config.midTrim k).toNat else h.rd (0x800 + 4 * k)

/-- The boundary delays of a lane in 0.8 ns. -/
def Head.txDelay (h : Head) (lane : Nat) : Nat := (h.trimUsed (8 + 4 * lane + 2) + 400) / 800
def Head.rxDelay (h : Head) (lane : Nat) : Nat := (h.trimUsed (8 + 4 * lane + 3) + 400) / 800

/-- The stamp in 0.8 ns of a frame that leaves a lane now after the wait of R20. -/
def Head.sentStamp (h : Head) (lane phase : Nat) : Nat := h.now * 25 / 4 + phase + h.txDelay lane

/-- A received frame with its stamp taken at the medium boundary. -/
def Head.atBoundary (h : Head) (r : RxFrame) : RxFrame := { r with stamp := r.stamp - h.rxDelay r.lane.val }

/-- A field frame of the head in the present Bell to local station `s`. -/
def Head.sendField (h : Head) (lane s kind slot epoch : Nat) (retry limp : Bool) (ws : List Word) : Head :=
  h.send lane (mkFrame (headWord0 (h.headNo * 256 + s) kind ws.length retry limp false) (headWord1 epoch h.bellNo slot) ws)

/-- The head is one of a pair; its side (0 A, 1 B). -/
def Head.paired (h : Head) : Bool := h.on RED_CFG_PAIR
def Head.side (h : Head) : Nat := h.fld RED_CFG_SIDE

/-- The ring number of a head, its head number when it is unpaired, and its partner's (R396). -/
def Head.ring (h : Head) : Nat := if h.paired then h.fld RED_CFG_RING else h.headNo
def Head.partnerRing (h : Head) : Nat := h.fld RED_CFG_PARTNER

/-- A frame of the line link on LL1 (lane 9): to the partner (R397), or to every head for the types of R115 that are not
pair traffic (notes/assumptions/41.md). -/
def Head.sendLine (h : Head) (kind : Nat) (toPartner : Bool) (ws : List Word) : Head :=
  let st := if toPartner then h.partnerRing * 256 else h.ring * 256 + 255
  h.send 9 (mkFrame (headWord0 st kind ws.length false false false) (headWord1 h.ownEpoch h.bellNo h.ring) ws)

/-- Word 0 of a mirror frame (Table 05-9). -/
def mirrorWord (typ index seq : Nat) : Word := BitVec.ofNat 32 (typ % 256 * 2 ^ 24 + index % 256 * 2 ^ 16 + seq % 65536)

/-- Send a mirror frame on LL1 with the next SEQ. -/
def Head.sendMirror (h : Head) (typ index : Nat) (toPartner : Bool) (ws : List Word) : Head :=
  let q := h.red.lineSeq
  { h with red := { h.red with lineSeq := (q + 1) % 65536 } }.sendLine 0xD toPartner (mirrorWord typ index q :: ws)

/-! ## Lanes in use (R90, R395, Table 04-4) -/

/-- TOPO of a channel: 0 unused, 1 line, 2 star. -/
def Head.topo (h : Head) (channel : Nat) : Nat := if channel = 0 then h.fld LANE_TOPO_TOPO_A else h.fld LANE_TOPO_TOPO_B

/-- The field lanes that the recipe uses, on the own side of a pair only. -/
def Head.fieldLanes (h : Head) : List Nat :=
  let star (c : Nat) : List Nat := match h.content? with
    | some x => (List.range 4).map (4 * c + ·) |>.filter (fun l => x.laneTables.any (fun t => t.lane == l) || x.positions.any (fun p => p.lane == l))
    | none => []
  let ch (c : Nat) : List Nat :=
    if h.paired && h.side != c then []
    else match h.topo c with
      | 1 => [4 * c]
      | 2 => star c
      | _ => []
  ch 0 ++ ch 1

/-- Every lane that the recipe uses: the line link's with LL_USED. -/
def Head.lanesUsed (h : Head) : List Nat := h.fieldLanes ++ (if h.on LANE_TOPO_LL_USED then [8, 9] else [])

/-- The state of a lane (Table 04-2). -/
def Head.laneState (h : Head) (n : Nat) : Nat := h.fld (LANE_STAT_STATE n)
def Head.laneUp (h : Head) (n : Nat) : Bool := h.laneState n == 4

/-- Put a lane's state; LANE_UP follows. -/
def Head.setLaneState (h : Head) (n s : Nat) : Head :=
  let h := h.put (LANE_STAT_STATE n) s
  h.put LANE_UP_UP (if s = 4 then setBit (h.fld LANE_UP_UP) n else clearBit (h.fld LANE_UP_UP) n)

/-- Enable a lane's transmitter: it leaves OFF (R84). -/
def Head.enableLane (h : Head) (n : Nat) : Head :=
  let h := h.setLane n (fun x => { x with enabled := true })
  if h.laneState n = 0 then h.setLaneState n 1 else h

/-- A lane returns to OFF and its transmitter to electrical idle. -/
def Head.laneOff (h : Head) (n : Nat) : Head := (h.setLane n (fun _ => Lane.initial)).setLaneState n 0

/-- Every lane returns to OFF: a reset or Maintenance mode (R84). -/
def Head.lanesOff (h : Head) : Head :=
  (List.range 10).foldl (fun (h : Head) n => h.laneOff n) h

/-- In line mode a channel uses its lane 0 only; its other lanes are in electrical idle (R90). -/
def Head.lineLanesOff (h : Head) : Head :=
  ([0, 1].flatMap (fun c => if h.topo c = 1 then [4 * c + 1, 4 * c + 2, 4 * c + 3] else [])).foldl (fun (h : Head) n => h.laneOff n) h

/-- The lanes as a recipe of another network uses them. -/
def Head.relane (h : Head) : Head := h.lineLanesOff.lanesUsed.foldl (fun (h : Head) n => h.enableLane n) h.lineLanesOff

/-! ## Receive banks (R13, R14) -/

/-- The reader of a lane has released `k` of its unread banks. -/
def Head.freeBanks (h : Head) (n k : Nat) : Head := h.setLane n (fun x => { x with banks := x.banks.drop k })
/-- Both banks of a lane hold frames that are still unread. -/
def Head.banksFull (h : Head) (n : Nat) : Bool := decide (2 ≤ (h.lane n).banks.length)
/-- A frame that passed its checks stays in a bank until it is read. -/
def Head.bank (h : Head) (n : Nat) (f : Frame) : Head := h.setLane n (fun x => { x with banks := x.banks ++ [f] })
/-- It finds no free bank: discarded and counted. -/
def Head.overrunLane (h : Head) (n : Nat) : Head := (h.bump (LANE_OVERRUN n)).put (LANE_EVT_OVERRUN n) 1

/-! ## Bring-up and loss (R84 to R86) -/

/-- The receive swing has stayed above the threshold for 1 µs. -/
def Head.signalQualified (h : Head) (n : Nat) : Head :=
  if !(h.lane n).enabled then h
  else
    let h := h.put (LANE_STAT_LOS n) 0
    if h.laneState n = 1 then h.setLaneState n 2 else h

/-- Clock recovery is locked and the equaliser has settled at `eq` dB, which EQ_HOLD freezes. -/
def Head.cdrLocked (h : Head) (n eq : Nat) : Head :=
  if h.laneState n ≠ 2 then h
  else
    let h := if h.on (LANE_CTL_EQ_HOLD n) ∧ (h.lane n).eqSettled then h else h.put (LANE_STAT_EQ n) (min 12 eq)
    (h.setLaneState n 3).setLane n (fun x => { x with eqSettled := true, aligned := false })

/-- Three K28.5 at one position: the lane is aligned, an inverted pair corrected. -/
def Head.commaAligned (h : Head) (n : Nat) (inverted : Bool) : Head :=
  if h.laneState n ≠ 3 then h
  else (h.putBit (LANE_STAT_INV n) inverted).setLane n (fun x => { x with aligned := true })

/-- 1,024 valid code groups after the alignment: UP (R84, R85). -/
def Head.laneReachesUp (h : Head) (n : Nat) : Head :=
  if h.laneState n ≠ 3 ∨ !(h.lane n).aligned then h
  else ((h.setLaneState n 4).put (LANE_EVT_UP n) 1).setLane n (fun x => { x with bells := h.net.rc.bells })

/-- Loss of sync: a frame in progress is discarded, the event counted (R86). What LL0 had received of the frame has gone on to LL1, with
/V/ in it (notes/assumptions/58.md). -/
def Head.loseSync (h : Head) (n st : Nat) (inFrame : Option Frame) : Head :=
  let h := match inFrame with
    | some f => (if n = 8 then h.sendAs 9 true f else h).bump (LANE_FRAMING n)
    | none => h
  let h := (h.put (LANE_EVT_SYNC_LOSS n) 1).bump (LANE_SYNCLOSS n)
  (h.setLaneState n st).setLane n (fun x => { x with aligned := false })

/-- 4 of 16 code groups are invalid: `invalid` of them came since the lane's last frame or loss, the others with that frame, which has
counted them (R81, R86). -/
def Head.syncLoss (h : Head) (n invalid : Nat) (inFrame : Option Frame) : Head :=
  if !h.laneUp n then h else (h.bumpBy (LANE_CV n) invalid).loseSync n 3 inFrame

/-- The signal stays below the threshold for 16 lane cycles; the `invalid` code groups that came meanwhile count in UP. -/
def Head.signalLoss (h : Head) (n invalid : Nat) (inFrame : Option Frame) : Head :=
  if !(h.lane n).enabled then h
  else
    let up := h.laneUp n
    let align := h.laneState n = 3
    let h := if up then h.bumpBy (LANE_CV n) invalid else h
    let h := (h.put (LANE_STAT_LOS n) 1).put (LANE_EVT_LOS n) 1
    if up then h.loseSync n 1 inFrame
    else if align then (h.setLaneState n 1).setLane n (fun x => { x with aligned := false })
    else h

/-- Clock recovery loses lock in ALIGN. -/
def Head.cdrLockLoss (h : Head) (n : Nat) : Head :=
  if h.laneState n = 3 then (h.setLaneState n 2).setLane n (fun x => { x with aligned := false }) else h

/-! ## Stations on the lanes -/

/-- The lane of a station on a channel (NODE_STAT), 0xF none. -/
def Head.laneOf (h : Head) (s channel : Nat) : Nat := if channel = 0 then h.fld (NODE_STAT_LANE_A s) else h.fld (NODE_STAT_LANE_B s)

/-- ATTACH and DUAL of a station: 2 is dual attachment; DUAL 3 duplicate, 4 split. -/
def Head.isDual (h : Head) (s : Nat) : Bool := bits (h.recWord s 0) 6 5 == 2
def Head.dualMode (h : Head) (s : Nat) : Nat := bits (h.recWord s 0) 2 0

/-- A slot, normal or limp, of a station on a lane is in force (R127, R128). -/
def Head.slotInForce (h : Head) (s lane : Nat) (limp : Bool) : Bool :=
  let n := h.node s
  if n.slotsOut then false
  else if n.limp = 0 then !limp
  else if h.dualMode s = 3 then !limp
  else limp && decide (lane / 4 + 1 = n.limp)

/-- The upstream slots of a station. -/
def Head.repSlotsOf (h : Head) (s : Nat) : List RepSlot :=
  match h.content? with
  | some c => c.repSlots.filter (fun x => x.station == s)
  | none => []

/-! ## Markers and departures (R105, R21) -/

/-- The marker's epoch: a Substitute sends the active epoch less 1 (R403). -/
def Head.markerEpoch (h : Head) : Nat := if h.substitute then (h.epochIn + 65535) % 65536 else h.ownEpoch

/-- The flags of the long marker's word 3. -/
def Head.markerFlags (h : Head) : Nat :=
  b2n (h.stations.any (fun s => (h.node s).limp != 0)) * 4 + b2n h.bell.gatesOff * 2 + b2n h.bell.rollcall

/-- The payload of the long marker (Table 05-4): `ns` is the Machine Time of the edge. -/
def Head.longMarker (h : Head) (ns : Nat) : List Word :=
  let st := stampOf ns 0
  [BitVec.ofNat 32 st, BitVec.ofNat 32 (st / 2 ^ 32),
    BitVec.ofNat 32 ((h.boot.recipe.map (fun r => r.netSig.toNat)).getD 0 % 65536 * 65536 + (if h.bell.rollcall then 25000 else h.bellTicks) % 65536),
    BitVec.ofNat 32 h.markerFlags]

/-- Send the marker of the Bell on every field lane in use: long at BSEQ 0, in Roll Call Bells and in the 8 Bells after a
change of its flags; a Substitute sends short ones (R105, R403). -/
def Head.sendMarkers (h : Head) (ns : Nat) : Head :=
  let fl := h.markerFlags
  let left := if fl = h.bell.flags then h.bell.longLeft else 8
  let long := !h.substitute && (h.bellNo % 256 == 0 || h.bell.rollcall || decide (left > 0))
  let ws := if long then h.longMarker ns else []
  let h := { h with bell := { h.bell with flags := fl, longLeft := left - 1 } }
  h.fieldLanes.foldl (fun h l => h.sendField l 255 0 0 h.markerEpoch false false ws) h

/-- The words of the payload of which a slot sends all, or its part in split mode (R127). -/
def Head.slotWords (h : Head) (x : CmdSlot) : Nat :=
  if x.part = 0 ∨ x.limp then x.len else (((h.cmdSlotsOf x.station).filter (fun y => !y.limp)).map (·.part)).sum

/-- S2MAX of a station's slot record (Table 05-10). -/
def Head.s2Max (h : Head) (s : Nat) : Nat := bits (h.recWord s 2) 31 16

/-- A compare word whose edges R107 places within 0 to P − 1: the pulse as it stands where it fits, else moved, and shortened where it must
be (notes/assumptions/57.md). -/
def edgeWord (p : Nat) (w : Word) : Word :=
  let c := min (bits w.toNat 31 16) (65536 * (p - 2) / max 1 p)
  let lo : Int := -((65536 * (p : Int) - c * p) / 131072)
  let hi : Int := (((p : Int) - 1) * 131072 - 65536 * p - (c : Int) * p) / 131072
  BitVec.ofNat 32 (c * 65536 + toBits 16 (max lo (min hi (sext 16 w.toNat))))

/-- The head sends no servo command that R108 makes a node refuse for its edges, its sampling instants or its reserved bits: one that
nothing has committed carries the instants of R234, S2MAX − 1 and S2MAX (notes/assumptions/57.md). -/
def Head.sampled (h : Head) (x : CmdSlot) (p : List Word) : List Word :=
  if x.kind ≠ 1 then p
  else
    let m := max 1 (h.s2Max x.station)
    let p := (p.take 3).map (edgeWord h.bellTicks) ++ p.drop 3
    let p := (p.set 4 (BitVec.ofNat 32 (bandNot (wordAt p 4) 0xFFD8))).set 6 (BitVec.ofNat 32 (bandNot (wordAt p 6) 0xFF))
    let s1 := bits (wordAt p 3) 31 16
    let s2 := bits (wordAt p 3) 15 0
    if s1 ≥ s2 ∨ s2 > m then p.set 3 (BitVec.ofNat 32 ((m - 1) * 65536 + m)) else p

/-- The payload that a slot has for a departure at tick `due`, and whether it has not left before: a commit in that tick or later comes too
late for it (R225). -/
def SlotTx.sends (y : SlotTx) (due : Nat) : List Word × Bool := if due ≤ y.commitAt then y.before else (y.payload, y.committed)

/-- The payload that a slot sends at tick `due`: gates-off for a station whose node is not taken into operation and in the gates-off period
of R73; its part in split mode (R127). -/
def Head.slotPayload (h : Head) (x : CmdSlot) (due : Nat) : List Word :=
  let p := h.sampled x ((((h.slot (x.lane * 256 + x.slot)).sends due).1 ++ List.replicate 48 0).take (h.slotWords x))
  let st := h.fld (NODE_STAT_STATE x.station)
  let p := if h.bell.gatesOff ∨ st = 6 ∨ st = 3 ∨ st = 0 then gatesOff x.kind p else p
  if x.part = 0 ∨ x.limp then p
  else if x.lane < 4 then p.take x.part else p.drop (p.length - x.part)

/-- The cyclic task whose command slot a departure serves. -/
def Head.slotTask (h : Head) (x : CmdSlot) : Option Nat :=
  h.recipeTasks.find? (fun t => h.taskClass t == 0 && match (h.taskCmd t).bind h.cmdSlot? with | some y => y.station == x.station | none => false)

/-- The departure of slot `k` is the one that task `t` is judged by (R219, R220): its own command slot, and while that is not in force
(limp) the slot that is. -/
def Head.taskPaired (h : Head) (t k : Nat) : Bool :=
  match (h.taskCmd t).bind h.cmdSlot? with
  | some y => h.taskCmd t == some k || !h.slotInForce y.station y.lane y.limp
  | none => false

/-- The cyclic slot `slot` of a lane leaves at its instant with the header of that instant (R21, R219, R220); an express slot's payload is
taken when its first word is due (R24). A Substitute's slots send nothing (R406). -/
def Head.departure (h : Head) (lane slot : Nat) : Head :=
  match h.cmdSlot? (lane * 256 + slot) with
  | none => h
  | some x =>
    if !h.bell.running ∨ h.bell.rollcall then h
    else
      let h := h.forward (h.instantTick x.instant)
      if !h.slotInForce x.station lane x.limp then h
      else
        let head := (h.ownEpoch, (h.node x.station).limp != 0)
        let due := h.instantTick (if x.express then x.dueFirst else x.instant)
        let h := h.forward due
        let k := lane * 256 + slot
        let late : Bool := match h.slotTask x with
          | some t => h.isOverrun t due x.express && h.taskPaired t k
          | none => false
        let h : Head := match h.slotTask x with
          | some t =>
            if late then h.overrun t
            else if ((h.slot k).sends due).2 && h.taskPaired t k then h.put (SCHED_TSTAT_CONSEC t) 0 else h
          | none => h
        let ws := h.slotPayload x due
        let h := h.setSlot k (fun y => { y with committed := decide (due ≤ y.commitAt) && y.committed, history := ((h.bellNo, ws) :: y.history).take 8 })
        if h.substitute then h
        else h.sendField lane x.station x.kind slot head.1 false head.2 ws

end Sys2Proof.Machine
end

