-- ==== Sys2Proof/Machine/TimeLaw.lean ====
section
/-! DEFINITION. Machine Time, Line Time and their pins (chapter 07): latch samples and steering, holdover and handover,
following another head, PPS, the trigger pins, writes of time registers. -/

namespace Sys2Proof.Machine

/-! ## Samples (R160, R161) -/

def Head.setSteer (h : Head) (f : Steering → Steering) : Head := { h with time := { h.time with steer := f h.time.steer } }
def Head.setTrg (h : Head) (k : Nat) (f : Trigger → Trigger) : Head :=
  { h with time := { h.time with trg := h.time.trg.mapFinIdx (fun i x _ => if i = k then f x else x) } }
def Head.trg (h : Head) (k : Nat) : Trigger := h.time.trg.toList.getD k .initial

/-- REF_MODE; a Substitute follows its neighbour whatever it is (R166). -/
def Head.refMode (h : Head) : Nat := if h.substitute then 1 else h.fld TIME_MT_CTL_REF_MODE

/-- The steering lane (R160). -/
def Head.steerLane (h : Head) : Nat := if h.paired && h.side == 1 then 4 else 0

/-- A two-word time-stamp as ns. -/
def nsOf (lo hi : Nat) : Nat := hi * 10 ^ 9 + bits lo 31 2

/-- A stamp in 0.8 ns units as Machine Time in 2^-32 ns. -/
def Head.mtOfUnit (h : Head) (u : Nat) : Nat :=
  let t := u * 4 / 25
  h.time.mt.at t + (u * 4 - t * 25) * 2 ^ 32 / 5

/-- In tick `now` the scale reaches or passes a multiple of `u`, by its run or by a set. -/
def Scale.passes (s : Scale) (u now : Nat) : Bool := decide (1 ≤ now) && decide (s.at (now - 1) / u < s.at now / u)

/-- The multiple of `u` that the scale reaches or passes next: that of this tick, when it does so in it. -/
def Scale.nextOf (s : Scale) (u now : Nat) : Nat := if s.passes u now then s.at now / u else ceilDiv (s.at now) u

/-- Keep the departure of a long marker on the steering lane: the last 16 (R160). `phase` is the wait of R20 in 0.8 ns; the transmit
boundary delay is added (Table 07-5). -/
def Head.keepMarker (h : Head) (ns phase : Nat) : Head :=
  let m : MarkerStamp := { bellTime := ns, stamp := h.time.mt.at h.bell.edge + (phase + h.txDelay h.steerLane) * 4 * 2 ^ 32 / 5 }
  h.setSteer (fun s => { s with stamps := (m :: s.stamps).take 16 })

/-- L − (T_dep + DELAY) of station `s` in 2^-32 ns, from its latch record; none when VALID is 0, when its station clock is not of domain 2
or its BELL_TIME not of domain 0 (R11, R159), or when the marker is no longer held. -/
def Head.latchDiff (h : Head) (s : Nat) (ws : List Word) : Option Int :=
  if !bit (wordAt ws 4) 0 ∨ wordAt ws 0 % 4 ≠ 2 ∨ wordAt ws 2 % 4 ≠ 0 then none
  else
    let l := nsOf (wordAt ws 0) (wordAt ws 1)
    let b := nsOf (wordAt ws 2) (wordAt ws 3)
    let delay := if h.steerLane < 4 then h.fld (NODE_DELAY_DELAY_A s) else h.fld (NODE_DELAY_DELAY_B s)
    (h.time.steer.stamps.find? (fun m => m.bellTime == b)).map (fun m =>
      ((l * 2 ^ 32 : Nat) : Int) - (m.stamp + delay * 4 * 2 ^ 32 / 5 : Nat))

/-- A discarded sample (R160). -/
def Head.refFault (h : Head) : Head := h.put TIME_EVT_REF_FAULT 1

/-- Raise a time event and set its bit of TIME_EVT. -/
def Head.timeEvent (h : Head) (k : Nat) : Head := (h.orReg TIME_EVT (2 ^ k)).raise 8 k 0

/-! ## Steering (R162 to R165) -/

/-- R_LIM as a rate in units of 2^-64 (R163). -/
def Head.rLim (h : Head) : Nat := min (500 * 2 ^ 64 / 10 ^ 6) (2 ^ 64 / h.bellTicks)

/-- A sample `e` (2^-32 ns) that is kept: the PI steering with sample period `ts` ns, and the states of Table 07-3. How TIME_STATE packs
its words is the model's (notes/assumptions/98.md). -/
def Head.steer (h : Head) (e : Int) (ts : Nat) : Head :=
  let s := h.time.steer
  let ki := h.fld TIME_MT_CTL_KI_SHIFT
  let kp := h.fld TIME_MT_CTL_KP_SHIFT
  let i := s.integral + divEven (e * 2 ^ 32) (2 ^ ki * max 1 ts)
  let r := i + divEven (e * 2 ^ 32) (2 ^ kp * max 1 ts)
  let lim : Int := (h.rLim : Nat)
  let clamped := decide (r > lim) || decide (r < -lim)
  let r := if r > lim then lim else if r < -lim then -lim else r
  let f := divAway (r * 5) (2 ^ 32)
  let clampRun := if clamped then s.clampRun + 1 else 0
  let st := h.fld TIME_MT_STAT_STATE
  let near := decide (e.natAbs ≤ 100 * 2 ^ 32)
  let far := decide (e.natAbs > 1000 * 2 ^ 32)
  let kept := if near then s.keptRun + 1 else 0
  let h := h.setSteer (fun s => { s with
    integral := if clamped then s.integral else i, fNext := some f, clampRun := clampRun, keptRun := kept, lostRun := 0, keptAt := h.now })
  let h := h.wrInt TIME_MT_OFFSET (divHalfUp e (2 ^ 32))
  let h := if clampRun = 8 then h.timeEvent 5 else h
  let h := if st = 1 ∧ kept ≥ 8 then (h.put TIME_MT_STAT_STATE 2).timeEvent 1
    else if st = 2 ∧ far then ((h.put TIME_MT_STAT_STATE 1).setSteer (fun s => { s with keptRun := 0 })).timeEvent 2
    else h
  if h.paired && !h.substitute then
    let o := toBits 64 h.time.steer.offset
    h.sendMirror 0x50 0 true [BitVec.ofNat 32 (h.fld TIME_MT_CTL_REF_MODE * 2 ^ 16 + h.fld TIME_MT_STAT_CAND * 2 ^ 8 + h.fld TIME_MT_STAT_REF),
      BitVec.ofNat 32 o, BitVec.ofNat 32 (o / 2 ^ 32), BitVec.ofInt 32 (divEven h.time.steer.integral (2 ^ 16)), BitVec.ofInt 32 f,
      BitVec.ofNat 32 (h.fld TIME_MT_STAT_STATE * 2 ^ 28 + toBits 28 (divHalfUp e (2 ^ 32)))]
  else h

/-- Show O in TIME_MT_HOFS. -/
def Head.showOffset (h : Head) : Head :=
  let o := h.time.steer.offset
  (h.wr TIME_MT_HOFS_NS ((o % 10 ^ 9).toNat * 4)).wr TIME_MT_HOFS_SEC (toBits 32 (o / 10 ^ 9))

/-- The candidates of the TIME section. -/
def Head.candidates (h : Head) : List Nat := match h.content? with | some c => c.candidates | none => []

/-- The next candidate after the present one that is in cyclic state (R165); limp operation counts as cyclic (notes/assumptions/97.md). -/
def Head.nextCandidate (h : Head) : Option Nat :=
  let n := h.candidates.length
  ((List.range n).map (fun i => (h.fld TIME_MT_STAT_CAND + 1 + i) % max 1 n)).find? (fun i =>
    let st := h.fld (NODE_STAT_STATE (nth h.candidates i))
    st == 1 || st == 7)

/-- STATE becomes HOLDOVER (R164): F_MT frozen, I held; no candidate has been taken yet. -/
def Head.enterHoldover (h : Head) : Head :=
  ((h.put TIME_MT_STAT_STATE 3).setSteer (fun s => { s with fNext := none, keptRun := 0, moved := false })).timeEvent 3

/-- In HOLDOVER the next candidate is taken when one is cyclic (R165). -/
def Head.moveCandidate (h : Head) : Head :=
  match h.nextCandidate with
  | some i =>
    ((h.put TIME_MT_STAT_CAND i).put TIME_MT_STAT_REF (nth h.candidates i)).setSteer (fun s => { s with handover := [], lostRun := 0, moved := true })
  | none => h.setSteer (fun s => { s with handover := [], lostRun := 0, moved := false })

/-- HOLDOVER (R164, R165) after four sample periods without a kept sample. -/
def Head.holdover (h : Head) : Head :=
  let st := h.fld TIME_MT_STAT_STATE
  if st ≠ 3 ∧ (h.time.steer.lostRun < 4 ∨ st = 0) then h
  else (if st = 3 then h else h.enterHoldover).moveCandidate

/-- TIME_HOLDOVER: a follower's four periods of 2 ms without a kept pair end at their instant; a head that steers by a station has its
sample periods. A follower has then lost its source and may take another (R166). In HOLDOVER already, nothing. -/
def Head.timeHoldover (h : Head) : Head :=
  let st := h.fld TIME_MT_STAT_STATE
  if st = 0 ∨ st = 3 then h
  else if h.refMode = 1 then
    (h.forward (h.time.steer.keptAt + 1600000)).enterHoldover.setSteer (fun s => { s with followSrc := none })
  else h.holdover

/-- A latch record read from the reference station is used (R160, R162, R165); none steers in Roll Call (R162). -/
def Head.steeringSample (h : Head) : Head :=
  match h.time.steer.latch with
  | none => h
  | some (s, ws) =>
    let h := h.setSteer (fun x => { x with latch := none })
    match h.latchDiff s ws with
    | none => h.refFault
    | some d =>
      let e := d - h.time.steer.offset * 2 ^ 32
      if h.bell.rollcall then h
      else if h.fld TIME_MT_STAT_STATE = 3 then
        let l := h.time.steer.handover ++ [e]
        if l.length < 4 then h.setSteer (fun x => { x with handover := l, lostRun := 0 })
        else
          let mean := divHalfUp (l.foldl (· + ·) 0) (4 * 2 ^ 32)
          let h := h.setSteer (fun x => { x with handover := [], offset := x.offset + mean, keptRun := 0, lostRun := 0 })
          ((h.put TIME_MT_STAT_STATE 1).timeEvent 4).showOffset
      else if e.natAbs > 100000 * 2 ^ 32 then h.refFault
      else h.steer e (256 * h.tb)

/-- The sample period of R162, in the Bell after a Bell with BSEQ 0: the read of the latch record; four periods without a kept
sample are a holdover. In HOLDOVER the candidate that it has moved to stays while it is cyclic and its samples come (R165). -/
def Head.steerPeriod (h : Head) : Head :=
  if h.refMode ≠ 0 ∨ h.candidates.isEmpty then h
  else
    let s := h.fld TIME_MT_STAT_REF
    let gone := h.fld (NODE_STAT_STATE s) ≠ 1 ∧ h.fld (NODE_STAT_STATE s) ≠ 7
    let lost := h.time.steer.lostRun ≥ 4
    let h := if h.fld TIME_MT_STAT_STATE = 3 then (if !h.time.steer.moved ∨ gone ∨ lost then h.moveCandidate else h)
      else if lost then h.holdover else h
    let s := h.fld TIME_MT_STAT_REF
    let h := h.setSteer (fun x => { x with lostRun := x.lostRun + 1 })
    h.queueTxn .reference s 1 0 0x3B 5 []

/-- A record that is to give the step has not come: the READ is repeated up to 3 times, then the head starts without a step (R161). -/
def Head.stepLost (h : Head) : Head :=
  if h.time.steer.stepTries < 3 then h.setSteer (fun x => { x with readDue := true })
  else (h.setSteer (fun x => { x with readDue := false })).enterHoldover

/-- The record read in the start-up Roll Call from candidate 0 gives the one step after a reset (R161). -/
def Head.stepSample (h : Head) (s : Nat) (ws : List Word) : Head :=
  if h.stepped ∨ h.time.steer.stepPending.isSome ∨ h.refMode ≠ 0 ∨ h.time.steer.started then h
  else
    match h.latchDiff s ws with
    | some d => h.setSteer (fun x => { x with stepPending := some (divHalfUp d (2 ^ 32)), readDue := false })
    | none => h.refFault.stepLost

/-- The step of Machine Time, at a Bell edge in tick `t` (R161): the Bell instant moves with it, and a step back meets its even
milliseconds again (R166). -/
def Head.applyStep (h : Head) (t : Nat) : Head :=
  match h.time.steer.stepPending with
  | none => h
  | some d =>
    let x := ((h.time.mt.at t : Nat) + d * 2 ^ 32).toNat
    let h := { h with
      time := { h.time with mt := h.time.mt.setTo t x }
      bell := { h.bell with instant := ((h.bell.instant : Int) + d).toNat } }
    let even := ceilDiv x (2000000 * 2 ^ 32) - 1
    let h := h.setSteer (fun s => { s with stepPending := none, keptAt := t, syncEven := if d < 0 then even else s.syncEven })
    ((h.put TIME_MT_STAT_STEPPED 1).put TIME_MT_STAT_STATE (if h.fld TIME_MT_STAT_STATE = 0 then 1 else h.fld TIME_MT_STAT_STATE)).timeEvent 0

/-- Machine Time runs on from tick `t` with F. -/
def Head.runMt (h : Head) (t : Nat) (f : Int) : Head := { h with time := { h.time with mt := h.time.mt.setF t f } }

/-- F_MT of the last sample takes effect at a Bell edge in tick `t` (R162, R156). -/
def Head.applyF (h : Head) (t : Nat) : Head :=
  match h.time.steer.fNext with
  | none => h
  | some f => ((h.runMt t f).setSteer (fun s => { s with fNext := none })).wr TIME_MT_ADDEND (toBits 32 f)

/-- During Roll Call F_MT stays 0, and no sample taken before it is used (R162); with REF_MODE 2 the register keeps what the host wrote. -/
def Head.restMt (h : Head) : Head :=
  let h := (h.runMt h.now 0).setSteer (fun s => { s with fNext := none, latch := none })
  if h.refMode = 2 then h else h.wr TIME_MT_ADDEND 0

/-- F in TIME_MT_ADDEND within R_LIM, which binds F_MT in every REF_MODE (R163). -/
def Head.boundAddend (h : Head) : Int :=
  let lim : Int := (5 * h.rLim / 2 ^ 32 : Nat)
  max (-lim) (min lim (sext 32 (h.rd TIME_MT_ADDEND)))

/-- Cyclic operation begins: no later record steps Machine Time (R161), and with REF_MODE 2 F_MT is TIME_MT_ADDEND again (R158). -/
def Head.startMt (h : Head) : Head :=
  let h := h.setSteer (fun s => { s with started := true })
  if h.refMode = 2 then (h.runMt h.now h.boundAddend).wr TIME_MT_ADDEND (toBits 32 h.boundAddend) else h

/-- The reference under a TIME section that has just come into force (R158, R164): the station followed stays when the list holds it, else
candidate 0 is followed; with REF_MODE 2 nothing is, and STATE is FREE (notes/assumptions/51.md). -/
def Head.takeReference (h : Head) : Head :=
  let stop (h : Head) : Head := h.setSteer (fun s => { s with latch := none, handover := [], moved := false })
  match h.fld TIME_MT_CTL_REF_MODE with
  | 2 => (stop (((h.put TIME_MT_STAT_STATE 0).put TIME_MT_STAT_CAND 0).put TIME_MT_STAT_REF 0)).setSteer (fun s => { s with fNext := none })
  | m =>
    let h := if h.stepped ∧ h.fld TIME_MT_STAT_STATE = 0 then h.put TIME_MT_STAT_STATE 1 else h
    if m ≠ 0 then h
    else
      match h.candidates.findIdx? (fun s => s == h.fld TIME_MT_STAT_REF) with
      | some i => h.put TIME_MT_STAT_CAND i
      | none => stop ((h.put TIME_MT_STAT_CAND 0).put TIME_MT_STAT_REF (nth h.candidates 0))

/-! ## The line link (R166, R167) -/

/-- The source that a head names in its LINE_FOLLOW: itself in REF_MODE 0, the head it follows in REF_MODE 1. -/
def Head.timeSource (h : Head) : Nat := if h.refMode = 0 then h.ring else h.fld TIME_MT_STAT_SRC_HEAD

/-- LINE_SYNC and LINE_FOLLOW at the next whole even millisecond of Machine Time; the stamp is that of the /S/, which leaves a
free number of 0.8 ns after the tick (R20, Config.freePhase), with the boundary delay. -/
def Head.lineSync (h : Head) : Head :=
  if h.fld TIME_MT_CTL_REF_MODE > 1 ∨ !h.on LANE_TOPO_LL_USED then h
  else
    let k := max (h.time.steer.syncEven + 1) (h.time.mt.nextOf (2000000 * 2 ^ 32) h.now)
    let h := h.forward (h.time.mt.tickOf (k * 2000000 * 2 ^ 32))
    let st := stampOf ((h.time.mt.at h.now + ((Config.freePhase h.draws).val + h.txDelay 9) * 4 * 2 ^ 32 / 5) / 2 ^ 32) 0
    let h := h.draw.setSteer (fun s => { s with syncEven := k })
    (h.sendMirror 0x51 0 false [0]).sendMirror 0x52 0 false
      [BitVec.ofNat 32 st, BitVec.ofNat 32 (st / 2 ^ 32), BitVec.ofNat 32 h.timeSource]

/-- A LINE_SYNC at LL0: its arrival stamp. -/
def Head.takeSync (h : Head) (unit : Nat) : Head := h.setSteer (fun s => { s with syncArrival := some unit })

/-- TIME_SRC_CONFLICT: bit 7 of TIME_EVT, sub-code 6 of Table 14-2 (R166). -/
def Head.srcConflict (h : Head) : Head := (h.orReg TIME_EVT 128).raise 8 6 0

/-- A LINE_FOLLOW at LL0 (R166, R167): content words stamp and source. In Roll Call it may step, but steers nothing (R162); a stamp
of another domain than 0 is not acted on (R11). -/
def Head.takeFollow (h : Head) (ws : List Word) : Head :=
  let src := wordAt ws 2 % 256
  if src = h.ring ∨ h.refMode ≠ 1 ∨ wordAt ws 0 % 4 ≠ 0 then h.setSteer (fun s => { s with syncArrival := none })
  else
    match h.time.steer.syncArrival with
    | none => h
    | some u =>
      let h := h.setSteer (fun s => { s with syncArrival := none })
      let conflict := h.time.steer.followSrc.any (fun x => x != src)
      let h := if conflict then h.srcConflict else h
      let lead := match h.time.steer.followSrc with | some x => min x src | none => src
      let h := (h.setSteer (fun s => { s with followSrc := some lead })).put TIME_MT_STAT_SRC_HEAD lead
      if lead ≠ src then h
      else
        let dep : Int := (nsOf (wordAt ws 0) (wordAt ws 1) * 2 ^ 32 : Nat)
        let e := dep + (h.time.steer.linkDelay * 4 * 2 ^ 32 / 5 : Nat) - (h.mtOfUnit u : Nat)
        if !h.stepped then h.setSteer (fun s => { s with stepPending := some (divHalfUp e (2 ^ 32)) })
        else if e.natAbs > 100000 * 2 ^ 32 then h.refFault
        else if h.bell.rollcall then h
        else
          let h := if h.fld TIME_MT_STAT_STATE = 3 then (h.put TIME_MT_STAT_STATE 1).timeEvent 4 else h
          h.steer e 2000000

/-- A value put into its place in a rising list; a list sorted so. -/
def sortIns (x : Int) : List Int → List Int
  | [] => [x]
  | y :: ys => if x ≤ y then x :: y :: ys else y :: sortIns x ys
def sortInts (l : List Int) : List Int := l.foldr sortIns []

/-- The rule of R139 over 16 samples in half units of 0.8 ns: the mean of the middle 12 to the nearest unit, none when they
spread by more than 5 units. -/
def trimmedMean (l : List Int) : Option Int :=
  let s := sortInts l
  let m := (s.drop 2).take 12
  let hi := m.foldl max (m.headD 0)
  let lo := m.foldl min (m.headD 0)
  if hi - lo > 10 then none else some (divHalfUp (m.foldl (· + ·) 0) 24)

/-- One sample of R138 in half units, each difference modulo 2^32. -/
def echoSample (t1 t2 t3 t4 : Nat) : Int := sext 32 (toBits 32 ((t4 : Int) - t1)) - sext 32 (toBits 32 ((t3 : Int) - t2))

/-- A LINK_ECHO exchange on LL0 (R167), t1 and t4 at its balls, with the boundary delays applied (R138): 16 of them give the link delay;
a second set when they spread too far. -/
def Head.linkEcho (h : Head) (t1 t2 t3 t4 : Nat) : Head :=
  let h := h.send 8 (mkFrame (headWord0 (h.ring * 256 + 255) 0xD 2 false false false) (headWord1 h.ownEpoch h.bellNo h.ring)
    [mirrorWord 0x53 0 h.red.lineSeq, BitVec.ofNat 32 t1])
  let l := h.time.steer.linkSamples ++ [echoSample (t1 + h.txDelay 8) t2 t3 (t4 - h.rxDelay 8)]
  if l.length < 16 then h.setSteer (fun s => { s with linkSamples := l })
  else
    match trimmedMean l with
    | some d => h.setSteer (fun s => { s with linkSamples := [], linkRetook := false, linkDelay := d.toNat })
    | none => h.setSteer (fun s => { s with linkSamples := [], linkRetook := !s.linkRetook })

/-! ## PPS (R170) -/

/-- The scale that PPS_OUT follows. -/
def Head.ppsScale (h : Head) : Scale := if h.on TIME_PPS_CTL_OUT_SCALE then h.time.lt else h.time.mt

/-- The tick at which a scale next reaches or passes a multiple of `u`: now, when it does so in this tick. -/
def Scale.nextWhole (s : Scale) (u now : Nat) : Nat := if s.passes u now then now else s.tickOf (ceilDiv (s.at now) u * u)

/-- The tick at which a scale next reaches or passes a whole second. -/
def Scale.nextSecond (s : Scale) (now : Nat) : Nat := s.nextWhole (10 ^ 9 * 2 ^ 32) now

/-- PPS_OUT rises at the next whole second of its scale; `ppsLast` is the tick of its last rise, which is no rise again. Before a recipe is
in force the PPS and trigger outputs stay in their reset state (R68). -/
def Head.ppsRise (h : Head) : Head :=
  if !h.on TIME_PPS_CTL_OUT_EN ∨ h.time.ppsHigh.isSome ∨ h.boot.recipe.isNone then h
  else
    let t := h.ppsScale.nextSecond h.now
    let t := if t = h.time.ppsLast then h.ppsScale.nextSecond (t + 1) else t
    let h := h.forward t
    { h with time := { h.time with ppsHigh := some (h.now + h.fld TIME_PPS_CTL_WIDTH_MS * 200000), ppsLast := h.now } }

/-- PPS_OUT falls after WIDTH_MS. -/
def Head.ppsFall (h : Head) : Head :=
  match h.time.ppsHigh with
  | none => h
  | some t => let h := h.forward t; { h with time := { h.time with ppsHigh := none } }

/-- A rising edge on PPS_IN at tick `t`; its event belongs to the tick two later (R15). -/
def Head.ppsIn (h : Head) (t : Nat) : Head :=
  let h := h.forward (t + 2)
  let h := h.wrPair TIME_PPS_MT_NS (stampOf (h.time.mt.ns t) 0)
  let h := h.wrPair TIME_PPS_LT_NS (stampOf (h.time.lt.ns t) 1)
  (h.wr TIME_PPS_CNT ((h.rd TIME_PPS_CNT + 1) % 2 ^ 32)).put TIME_EVT_PPS_IN 1

/-! ## Trigger pins (R171) -/

/-- The scale of a trigger's domain. -/
def Head.domainScale (h : Head) (dom : Nat) : Scale := if dom = 1 then h.time.lt else h.time.mt

/-- Arm trigger `k` with its time and domain, in this tick. -/
def Head.trgArm (h : Head) (k ns sec : Nat) : Head :=
  let dom := ns % 4
  let x := sec * 10 ^ 9 + bits ns 31 2
  let late := decide (x * 2 ^ 32 ≤ (h.domainScale dom).at h.now)
  let h := (h.wr (TIME_TRG_NS k) ns).wr (TIME_TRG_SEC k) sec
  h.setTrg k (fun t => { t with armed := true, late := late, domain := dom, time := x })

/-- A write of a trigger time: 7 when NS or DOMAIN is out of range. -/
def Head.writeTrg (h : Head) (k ns sec : Nat) : Head × Nat :=
  if bits ns 31 2 ≥ 10 ^ 9 ∨ ns % 4 > 1 then (h, 7) else (h.trgArm k ns sec, 0)

/-- A set of a scale has passed value `x`, which the scale had not reached. -/
def Scale.jumped (s : Scale) (x : Nat) : Bool := decide (x ≤ s.base) && decide (s.old s.tick < x)

/-- A MODE 1 or 2 trigger fires when its time is reached; one armed late at the next tick (R171), one that a set of its scale has passed
in the tick of the set, late too (Table 07-6). -/
def Head.trgFire (h : Head) (k : Nat) : Head :=
  let t := h.trg k
  let mode := h.fld (TIME_TRG_CTL_MODE k)
  if !t.armed ∨ (mode ≠ 1 ∧ mode ≠ 2) ∨ h.boot.recipe.isNone then h
  else
    let s := h.domainScale t.domain
    let x := t.time * 2 ^ 32
    let fired := if t.late then h.now + 1 else s.tickOf x
    let h := h.forward fired
    let h := h.wrPair (TIME_TRG_STAMP_NS k) (stampOf (s.ns fired) t.domain)
    let h := if t.late ∨ s.jumped x then h.put TIME_EVT_TRG_LATE (setBit (h.fld TIME_EVT_TRG_LATE) k) else h
    let next := t.time + h.rd (TIME_TRG_PER k)
    let h := h.setTrg k (fun x => { x with
      armed := mode == 2, late := false, time := if mode = 2 then next else x.time
      pulseEnd := some (fired + max 1 (h.fld (TIME_TRG_CTL_WIDTH k))) })
    let h := if mode = 2 then
        (h.wr (TIME_TRG_NS k) (next % 10 ^ 9 * 4 + t.domain)).wr (TIME_TRG_SEC k) (next / 10 ^ 9 % 2 ^ 32)
      else h
    h.unitEvent 3 k

/-- The pulse of trigger `k` ends. -/
def Head.trgPulseEnd (h : Head) (k : Nat) : Head :=
  match (h.trg k).pulseEnd with
  | none => h
  | some t => (h.forward t).setTrg k (fun x => { x with pulseEnd := none })

/-- An edge on TRGk as an input at tick `t`, stamped in Machine Time (R171); its event belongs to the tick two later (R15). -/
def Head.trgEdge (h : Head) (k : Nat) (rising : Bool) (t : Nat) : Head :=
  let h := h.forward (t + 2)
  let edge := h.fld (TIME_TRG_CTL_EDGE k)
  if h.fld (TIME_TRG_CTL_MODE k) ≠ 0 ∨ !(edge = 2 ∨ (edge = 0 ∧ rising) ∨ (edge = 1 ∧ !rising)) then h
  else
    let h := if (h.trg k).unread then h.put TIME_EVT_TRG_OVR (setBit (h.fld TIME_EVT_TRG_OVR) k) else h
    let h := h.wrPair (TIME_TRG_STAMP_NS k) (stampOf (h.time.mt.ns t) 0)
    (h.setTrg k (fun x => { x with unread := true })).unitEvent 3 k

/-- A write of TIME_TRG_CTL: reserved modes and edges and a MODE 2 width of PERIOD / 5 − 2 ticks or more are refused. -/
def Head.writeTrgCtl (h : Head) (k v : Nat) : Head × Nat :=
  let mode := bits v 1 0
  let width := bits v 31 16
  if mode = 3 ∨ bits v 3 2 = 3 ∨ width = 0 ∨ (mode = 2 ∧ (width + 2) * 5 ≥ h.rd (TIME_TRG_PER k)) then (h, 7)
  else
    let h := h.wr (TIME_TRG_CTL k) (width * 65536 + bits v 4 0)
    (if mode = 0 then h.setTrg k (fun x => { x with armed := false }) else h, 0)

/-! ## Writes of the scales (R156, R163, R173) -/

/-- Set Line Time in tick `t`. -/
def Head.setLine (h : Head) (t ns sec : Nat) : Head :=
  { h with time := { h.time with lt := h.time.lt.setTo t ((sec * 10 ^ 9 + bits ns 31 2) * 2 ^ 32) } }

/-- A write of Line Time: at once while no Bell runs, else at the next Bell edge. -/
def Head.writeLineTime (h : Head) (ns sec : Nat) : Head × Nat :=
  if bits ns 31 2 ≥ 10 ^ 9 ∨ ns % 4 ≠ 1 then (h, 7)
  else if h.bell.running then ((h.shadow TIME_LT_NS ns).shadow TIME_LT_SEC sec, 0)
  else (h.setLine h.now ns sec, 0)

/-- F in the range of R156. -/
def fInRange (v : Nat) : Bool := decide ((sext 32 v).natAbs ≤ 10737418)

/-- A write of TIME_LT_ADDEND. -/
def Head.writeLtAddend (h : Head) (v : Nat) : Head × Nat :=
  if !fInRange v then (h, 7)
  else if h.bell.running then (h.shadow TIME_LT_ADDEND v, 0)
  else ({ h with time := { h.time with lt := h.time.lt.setF h.now (sext 32 v) } }.wr TIME_LT_ADDEND v, 0)

/-- A write of TIME_MT_ADDEND: only in REF_MODE 2, within R_LIM (R163). -/
def Head.writeMtAddend (h : Head) (v : Nat) : Head × Nat :=
  if h.fld TIME_MT_CTL_REF_MODE ≠ 2 then (h, 0)
  else if !fInRange v ∨ (sext 32 v).natAbs * 2 ^ 32 > 5 * h.rLim then (h, 7)
  else (h.shadow TIME_MT_ADDEND v, 0)

/-- The shadows of the scales at a Bell edge in tick `t`; F_MT stays 0 in Roll Call (R162). -/
def Head.edgeMtAddend (h : Head) (t v : Nat) : Head :=
  (if h.bell.rollcall then h else h.runMt t (sext 32 v)).wr TIME_MT_ADDEND v
def Head.edgeLtAddend (h : Head) (t v : Nat) : Head :=
  { h with time := { h.time with lt := h.time.lt.setF t (sext 32 v) } }.wr TIME_LT_ADDEND v

end Sys2Proof.Machine
end

