-- ==== Sys2Proof/Machine/Detain.lean ====
section
/-! DEFINITION. Stations out of operation (chapter 06, R147 to R152; chapter 17, R404): Detention, resynchronisation through
Recess, probation, segment loss and rejoin, the join of a Substitute. -/

namespace Sys2Proof.Machine

/-! ## Records and comparison (R116, R136, R142) -/

/-- REPORT from a compiled arrival and a delay in 0.8 ns: to the nearest tick, halves up (R136). -/
def reportInstant (arrival delay : Nat) : Nat := (divHalfUp ((arrival * 25 : Nat) - (delay * 4 : Nat) : Int) 25).toNat

/-- The slot record of a station with the delays measured so far (Table 05-10). -/
def Head.slotRecord (h : Head) (s : Nat) : List Word :=
  match h.station? s with
  | none => []
  | some c =>
    let da := h.fld (NODE_DELAY_DELAY_A s)
    let db := h.fld (NODE_DELAY_DELAY_B s)
    let w (i : Nat) : Nat := wordAt c.record i
    let onB := c.attach = 1 ∨ (c.attach = 2 ∧ c.dual = 1) ∨ (h.paired && h.side == 1)
    let rep := if onB then reportInstant c.arrivalB db else reportInstant c.arrivalA da
    let limp (i d : Nat) : Nat := if w i = 0 then 0 else reportInstant (bits (w i) 31 16) d * 65536 + bits (w i) 15 0
    [w 0, bits (w 1) 31 16 * 65536 + rep % 65536, w 2, da * 65536 + db, w 4, limp 5 da, limp 6 db].map (BitVec.ofNat 32)

/-- The expected positions of a lane, in hop order, and the position of a station on it (1 for the first; 0 none). -/
def Head.positionsOf (h : Head) (lane : Nat) : List Position :=
  match h.content? with
  | some c => c.positions.filter (fun p => p.lane == lane)
  | none => []
def Head.posOn (h : Head) (lane s : Nat) : Nat :=
  match (h.positionsOf lane).findIdx? (fun p => p.station == s) with
  | some i => i + 1
  | none => 0
def Head.position? (h : Head) (lane s : Nat) : Option Position := (h.positionsOf lane).find? (fun p => p.station == s)

/-- A node matches a position (R142): its delay in the band, its descriptor equal under the mask. -/
def posMatches (p : Position) (delay : Nat) (desc : List Word) : Bool :=
  decide (p.dmin ≤ delay ∧ delay ≤ p.dmax) &&
    (List.range 64).all (fun w => band (bxor (wordAt desc w) (wordAt p.expected w)) (wordAt p.mask w) == 0)

/-- TSET and TAP of the axes of a station as its node declares them (AX_SHUNT, Table 15-2 word 0x07). -/
def Head.fillShunt (h : Head) (s : Nat) : Head :=
  let ws := (h.node s).descriptor
  if ws.isEmpty then h
  else (h.axesOf s).foldl (fun (h : Head) n =>
    (h.put (AX_SHUNT_TSET n) (bits (wordAt ws 7) 31 24)).put (AX_SHUNT_TAP n) (bits (wordAt ws 7) 23 16)) h

/-- A descriptor that was read: kept, with POWER_CYCLES; a changed count clears BRIDGE_SHORT and CFG_OK (Table 15-8). -/
def Head.takeDescriptor (h : Head) (s : Nat) (ws : List Word) : Head :=
  let pwr := wordAt ws 0x3A
  let changed := !(h.node s).descriptor.isEmpty && h.rd (NODE_PWR s) != pwr
  let h := ((h.setNode s (fun x => { x with descriptor := ws })).fillShunt s).wr (NODE_PWR s) pwr
  if !changed then h
  else ((h.axesOf s).foldl (fun h n => h.axisClear n 7) h).put (NODE_PROT_CFG_OK s) 0

/-! ## Out of operation (R149, R152) -/

/-- The tasks of a station's axes, and those that its reports release. -/
def Head.nodeTasks (h : Head) (s : Nat) : List Nat :=
  h.recipeTasks.filter (fun t => h.taskNode t == some s || (h.axesOf s).contains (h.taskAxis t))

/-- The tasks that the head disabled with a node are enabled again (R149, R221). -/
def Head.nodeBack (h : Head) (s : Nat) : Head :=
  (h.nodeTasks s).foldl (fun h t => if (h.task t).byNode then h.enableTask t else h) h

/-- Take a station out: its slots leave the Timetable, the tasks of its axes are disabled, each axis takes fault `k`
(3 DETENTION, 4 LINK_LOSS), each loop NODE (R308). -/
def Head.pullStation (h : Head) (s k : Nat) : Head :=
  let h := h.setNode s (fun x => { x with slotsOut := true, report := { x.report with valid := false } })
  let h := ((h.nodeTasks s).filter (fun t => h.taskEnabled t)).foldl (fun (h : Head) t =>
    (h.disableTask t).setTask t (fun x => { x with byNode := true })) h
  ((h.axesOf s).foldl (fun h n => h.faultAxis n k) h).loopsFault s 5

/-- A node enters Detention at a Bell edge (R148, R149). -/
def Head.detain (h : Head) (s : Nat) : Head :=
  let h := (h.pullStation s 3).setNode s (fun x => { x with
    resync := .wait (bellAfter h.bellNo 8), drifts := [], detainPending := false, lost := false })
  (((h.put (NODE_STAT_STATE s) 2).bump (NODE_DETAIN s)).raise 3 0 s).privFlag 26

/-- The lane that a station's Roll Call operations in Recess use: channel A while its lane is UP, else channel B; that of the
recovered channel for a dual node in limp (R152); in a pair the own side's (R395). -/
def Head.resyncLane (h : Head) (s : Nat) : Nat :=
  let a := h.laneOf s 0
  if h.paired then (h.fieldLanes.find? (fun l => h.posOn l s != 0)).getD a
  else if (h.node s).limp ≠ 0 ∧ !(h.node s).slotsOut then h.laneOf s (if (h.node s).limp = 1 then 1 else 0)
  else if a ≠ 15 ∧ h.laneUp a then a else if h.laneOf s 1 ≠ 15 then h.laneOf s 1 else a

/-- Begin the 16 ECHOs of step 2. -/
def Head.resyncEchoes (h : Head) (s : Nat) (again : Bool) : Head :=
  (h.setNode s (fun x => { x with resync := .echoes 2, samples := [], retook := again })).queueTxn .resyncEcho s 0 4 0 0 []

/-- Start again at step 2 after 1 s (R149). -/
def Head.resyncRetry (h : Head) (s : Nat) : Head :=
  h.setNode s (fun x => { x with resync := .retryAt (h.now + 200000000) 2 })

/-- RESYNC_START: the wait of step 1, or the second of steps 2 and 3, is over. -/
def Head.resyncStart (h : Head) (s : Nat) : Head :=
  match (h.node s).resync with
  | .wait b => if bellReached h.bellNo b then h.resyncEchoes s false else h
  | .retryAt t _ => if t ≤ h.now then h.resyncEchoes s false else h
  | _ => h

/-- Put a measured delay into NODE_DELAY for the channel of a lane. -/
def Head.putDelay (h : Head) (s lane d : Nat) : Head :=
  if lane < 4 then h.put (NODE_DELAY_DELAY_A s) d else h.put (NODE_DELAY_DELAY_B s) d

/-- An ECHO answer of step 2 (R138, R139): `sample` in half units. -/
def Head.resyncEchoed (h : Head) (s lane : Nat) (sample : Int) : Head :=
  match (h.node s).resync with
  | .echoes _ =>
    let l := (h.node s).samples ++ [sample]
    if l.length < 16 then (h.setNode s (fun x => { x with samples := l })).queueTxn .resyncEcho s 0 4 0 0 []
    else
      match trimmedMean l with
      | none => if (h.node s).retook then (h.put (NODE_STAT_RESULT s) 3).resyncRetry s else h.resyncEchoes s true
      | some d =>
        let ok := match h.position? lane s with
          | some p => decide ((p.dmin : Int) ≤ d ∧ d ≤ p.dmax)
          | none => true
        if !ok then (h.put (NODE_STAT_RESULT s) 3).resyncRetry s
        else
          let h := h.putDelay s lane d.toNat
          let r := h.slotRecord s
          (h.setNode s (fun x => { x with resync := .slots, record := r })).queueTxn .resyncSlots s 0 5 0 0 r
  | _ => h

/-- The SLOTS answer of step 3: the record echoed. -/
def Head.resyncSlotted (h : Head) (s : Nat) (echoed : List Word) : Head :=
  if (h.node s).resync ≠ .slots then h
  else if echoed = (h.node s).record then h.queueTxn .resyncStart s 0 7 0 0 []
  else h.resyncRetry s

/-- The named Bell of START has come: the slots return with gates-off commands for the probation of step 4; a dual node in limp
that never left operation returns to its normal slots (R152). -/
def Head.resyncEdge (h : Head) (s b : Nat) : Head :=
  match (h.node s).resync with
  | .start k =>
    if k ≠ b then h
    else if (h.node s).slotsOut then
      (h.setNode s (fun x => { x with
        resync := .probation b, slotsOut := false, limp := 0, limpNext := 0, rejoin := false, probDrift := false, probEdges := 0
        probMiss := 0, lost := false, missA := 0, missB := 0, missRun := 0 })).put (NODE_STAT_STATE s) 3
    else
      ((h.setNode s (fun x => { x with resync := .none, limp := 0, limpNext := 0, rejoin := false, missA := 0, missB := 0 })).put (NODE_STAT_STATE s) 1).configWrite s
  | _ => h

/-- Release a node (R149 step 5, R152): its fault clears, its tasks are enabled again; the configuration follows. -/
def Head.releaseNode (h : Head) (s : Nat) : Head :=
  let h := h.setNode s (fun x => { x with resync := .none, failedProb := 0, missRun := 0 })
  let h := (h.put (NODE_STAT_STATE s) 1).put (NODE_STAT_RESULT s) 0
  let h := (h.axesOf s).foldl (fun (h : Head) n => ((h.axisClear n 3).axisClear n 4).unfault n) h
  (h.nodeBack s).configWrite s

/-- A failed probation: back to step 1, or DETENTION_LOCK after the third in a row (R150). -/
def Head.probationFailed (h : Head) (s : Nat) : Head :=
  let f := (h.node s).failedProb + 1
  let h := (h.setNode s (fun x => { x with slotsOut := true, failedProb := f }))
  if f ≥ 3 then ((h.setNode s (fun x => { x with resync := .none })).put (NODE_STAT_STATE s) 4).raise 3 1 s
  else (h.setNode s (fun x => { x with resync := .wait (bellAfter h.bellNo 8) })).put (NODE_STAT_STATE s) 2

/-- PROBATION_END: a drift event, 16 missing Bells, or 256 Bells gone (R149). -/
def Head.probationEnd (h : Head) (s : Nat) : Head :=
  let n := h.node s
  match n.resync with
  | .probation b =>
    if n.probDrift ∨ n.probMiss ≥ 16 then h.probationFailed s
    else if 256 ≤ bellsSince h.bellNo b then (if n.probEdges ≤ 2 then h.releaseNode s else h.probationFailed s)
    else h
  | _ => h

/-- NODE_CTL.RELEASE acts in DETENTION_LOCK: step 2 again (R150). -/
def Head.nodeRelease (h : Head) (s : Nat) : Head :=
  if h.fld (NODE_STAT_STATE s) ≠ 4 then h
  else ((h.setNode s (fun x => { x with failedProb := 0 })).put (NODE_STAT_STATE s) 2).resyncEchoes s false

/-! ## Segment loss and rejoin (R152) -/

/-- The other channel of a dual station still works. -/
def Head.otherChannel (h : Head) (s lane : Nat) : Bool :=
  let o := h.laneOf s (if lane < 4 then 1 else 0)
  h.isDual s && !h.paired && o != 15 && h.laneUp o

/-- The stations of a lane from hop `k` outward that a loss takes out: detained ones too, but not one that Detention takes in the same Bell
(Table 06-7), one that is lost already, or one that the host must release (R150). -/
def Head.lostSegment (h : Head) (lane k : Nat) : List Nat :=
  ((h.positionsOf lane).map (·.station)).filter (fun s =>
    let st := h.fld (NODE_STAT_STATE s)
    decide (k ≤ h.posOn lane s) && (st == 1 || st == 7 || st == 3 || (st == 2 && (h.node s).resync != .wait (bellAfter h.bellNo 8))) &&
      !(h.node s).detainPending)

/-- The stations of a segment are lost: LINK_LOSS, RESULT LOST; a dual node goes on in limp on its other channel (R128), unless that is the
channel it has lost before. -/
def Head.segmentLost (h : Head) (lane k : Nat) : Head :=
  let l := h.lostSegment lane k
  if l.isEmpty then h
  else
    let h := l.foldl (fun (h : Head) s =>
      if h.otherChannel s lane && (h.node s).limp != lane / 4 + 1 then h.setNode s (fun x => { x with limpNext := if x.limp = 0 then (if lane < 4 then 2 else 1) else x.limpNext, rejoin := true })
      else
        ((h.pullStation s 4).setNode s (fun x => { x with resync := .none, lost := true, rejoin := true })
          |>.put (NODE_STAT_STATE s) 5).put (NODE_STAT_RESULT s) 5) h
    (h.raiseWith 3 5 lane k).privFlag 27

/-- The first hop of a line from which every station has been missing for 4 Bells; 0 none. -/
def Head.lostFrom (h : Head) (lane : Nat) : Nat :=
  let miss (s : Nat) : Bool := decide (4 ≤ (if lane < 4 then (h.node s).missA else (h.node s).missB))
  let l := ((h.positionsOf lane).map (·.station)).filter (fun s =>
    h.fld (NODE_STAT_STATE s) != 6 && !(h.node s).slotsOut && (h.repSlotsOf s).any (fun x => x.lane == lane && h.slotInForce s lane x.limp))
  let tail := (l.reverse.takeWhile miss).reverse
  match tail with
  | s :: _ => h.posOn lane s
  | [] => 0

/-- SEGMENT_LOSS on a lane (R152): the lane is not UP, or on a line every station from a hop outward is missing. -/
def Head.segmentCheck (h : Head) (lane : Nat) : Head :=
  if !h.bell.running ∨ h.bell.rollcall ∨ !(h.fieldLanes.contains lane) then h
  else if !h.laneUp lane then h.segmentLost lane 1
  else if h.topo (lane / 4) = 1 then (let k := h.lostFrom lane; if k = 0 then h else h.segmentLost lane k)
  else h

/-- The stations of a lane that wait for a rejoin and are not on their way, in hop order. -/
def Head.lostStations (h : Head) (lane : Nat) : List Nat :=
  ((h.positionsOf lane).map (·.station)).filter (fun s =>
    (h.node s).rejoin && ((h.node s).resync == .none || (h.node s).resync == .descriptor))

/-- 64 Bells have passed since the lane's last ECHO to a lost station. -/
def Head.echoDue (h : Head) (lane : Nat) : Bool := (h.lane lane).echoBell.all (fun b => decide (64 ≤ bellsSince h.bellNo b))

/-- REJOIN_ECHO: every 64 Bells an ECHO to the nearest lost station of the lane (R152). -/
def Head.rejoinEcho (h : Head) (lane : Nat) : Head :=
  match h.lostStations lane with
  | s :: _ =>
    if (h.node s).resync ≠ .none ∨ !h.echoDue lane then h
    else if (h.net.waiting ++ h.net.flights.map (·.txn)).any (fun x => x.src == .rejoinEcho && x.station == s) then h
    else (h.setLane lane (fun x => { x with echoBell := some h.bellNo })).queueTxn .rejoinEcho s 0 4 0 0 []
  | [] => h

/-- The nearest lost station answered: its descriptor is read again. -/
def Head.rejoinAnswered (h : Head) (s : Nat) : Head :=
  (h.setNode s (fun x => { x with resync := .descriptor })).queueTxn (.descriptor 0) s 1 0 0 46 []

/-- The descriptor of the nearest lost station: after a successful comparison every lost station of the lane goes through steps
2 to 5 of R149, in hop order; one that no longer matches stays out with IDENT. -/
def Head.rejoinCompared (h : Head) (s lane : Nat) (desc : List Word) : Head :=
  let d := if lane < 4 then h.fld (NODE_DELAY_DELAY_A s) else h.fld (NODE_DELAY_DELAY_B s)
  let ok := match h.position? lane s with | some p => posMatches p d desc | none => false
  let h := h.takeDescriptor s desc
  if !ok then (h.setNode s (fun x => { x with resync := .none, rejoin := false })).put (NODE_STAT_RESULT s) 2
  else (h.lostStations lane).foldl (fun h s => h.resyncEchoes s false) h

/-! ## Join of a Substitute (R404) -/

def JoinRun.initial (_ : Nat) : JoinRun := { step := 0, samples := [], good := 0, joined := false, retook := false, tried := false, limp := false }
def Head.joinRun (h : Head) (s : Nat) : JoinRun := h.red.join.get .initial s
def Head.setJoin (h : Head) (s : Nat) (f : JoinRun → JoinRun) : Head :=
  { h with red := { h.red with join := h.red.join.modify .initial s f } }

/-- The lane of a station on the own side: the one whose expected positions name it, 0xF none. -/
def Head.ownLane (h : Head) (s : Nat) : Nat := (h.fieldLanes.find? (fun l => h.posOn l s != 0)).getD 15

/-- The stations of the own side, lane by lane in hop order. -/
def Head.joinOrder (h : Head) : List Nat := h.fieldLanes.flatMap (fun l => (h.positionsOf l).map (·.station))

/-- A station whose exchange has ended in the present round of joins. -/
def JoinRun.settled (j : JoinRun) : Bool := j.joined || j.step == 7 || j.tried

/-- Queue the request of a join's step: 1 ECHO, 2 and 3 descriptor, 4 SLOTS, 5 RECESS_TABLE, 6 START. -/
def Head.joinRequest (h : Head) (s : Nat) : Head :=
  match (h.joinRun s).step with
  | 1 => h.queueTxn .join s 0 4 0 0 []
  | 2 => h.queueTxn .join s 1 0 0 46 []
  | 3 => h.queueTxn .join s 1 0 0x2E 18 []
  | 4 =>
    let r := h.slotRecord s
    (h.setNode s (fun x => { x with record := r })).queueTxn .join s 0 5 0 0 r
  | 5 =>
    let ws := match h.content?.bind (fun c => c.laneTables.find? (fun t => t.lane == h.ownLane s)) with
      | some t => BitVec.ofNat 32 (t.recessStart * 65536 + t.pairs.length * 256 + t.lag) ::
          t.pairs.map (fun p => BitVec.ofNat 32 (p.1 * 65536 + p.2))
      | none => []
    h.queueTxn .join s 0 6 0 0 ws
  | 6 => h.queueTxn .join s 0 7 0 0 []
  | _ => h

/-- A new round of joins, once every station has had its turn: those that failed are tried again. -/
def Head.joinRound (h : Head) : Head :=
  if h.joinOrder.all (fun s => (h.joinRun s).settled) then h.joinOrder.foldl (fun (h : Head) s => h.setJoin s (fun x => { x with tried := false })) h
  else h

/-- JOIN: the Substitute begins to join a station of its side that is not joined, lane by lane in hop order (R404): a station begins when
those before it have had their turn (notes/assumptions/76.md). -/
def Head.joinStart (h : Head) (s : Nat) : Head :=
  if !h.substitute ∨ h.ownLane s = 15 then h
  else
    let h := h.joinRound
    let turn := (h.joinOrder.takeWhile (· != s)).all (fun a => (h.joinRun a).settled)
    if !turn ∨ (h.joinRun s).settled ∨ (h.joinRun s).step ≠ 0 then h
    else (h.setJoin s (fun _ => { JoinRun.initial 0 with step := 1 })).joinRequest s

/-- The active epoch changed while a station's join ran: its exchange is dropped and the join begins again at step 1 (R405). -/
def Head.joinRestart (h : Head) (s : Nat) : Head :=
  let j := h.joinRun s
  if j.step = 0 ∨ 7 ≤ j.step then h
  else
    let mine (x : Txn) : Bool := x.src == .join && x.station == s
    let old := (h.net.flights.map (·.txn) ++ h.net.waiting).filter (fun x => mine x && decide (x.ticket < 256))
    let h : Head := { h with net := { h.net with
      waiting := h.net.waiting.filter (fun x => !mine x), flights := h.net.flights.filter (fun f => !mine f.txn) } }
    let h := old.foldl (fun (h : Head) x => h.freeTicket x.ticket) h
    (h.setJoin s (fun _ => { JoinRun.initial 0 with step := 1 })).joinRequest s

/-- The active epoch that a partner's heartbeat or BELL_SYNC names; joins that run begin again when it is another (R405). -/
def Head.activeEpoch (h : Head) (e : Nat) : Head :=
  if h.fld RED_HB_DUE_P_EPOCH = e then h
  else
    let h := h.put RED_HB_DUE_P_EPOCH e
    if h.substitute then h.stations.foldl (fun h s => h.joinRestart s) h else h

/-- The exchange of a join's step ended: `ok` with the answer's words, and the sample of an ECHO (R138, R139). A failure leaves the station
to be joined anew; START follows when the node is in limp, as its answers or the active head say. -/
def Head.joinAnswered (h : Head) (s : Nat) (ok : Bool) (ws : List Word) (sample : Int) : Head :=
  let j := h.joinRun s
  let again (h : Head) : Head := h.setJoin s (fun _ => { JoinRun.initial 0 with tried := true })
  let go (h : Head) (n : Nat) : Head := (h.setJoin s (fun x => { x with step := n, samples := [] })).joinRequest s
  let lane := h.ownLane s
  if !ok then again h
  else match j.step with
    | 1 =>
      let l := j.samples ++ [sample]
      if l.length < 16 then (h.setJoin s (fun x => { x with samples := l })).joinRequest s
      else match trimmedMean l with
        | some d => go (h.putDelay s lane d.toNat) 2
        | none => if j.retook then again h else (h.setJoin s (fun x => { x with samples := [], retook := true })).joinRequest s
    | 2 => go (h.setNode s (fun x => { x with half := ws })) 3
    | 3 =>
      let desc := (h.node s).half.take 46 ++ ws
      let d := if lane < 4 then h.fld (NODE_DELAY_DELAY_A s) else h.fld (NODE_DELAY_DELAY_B s)
      let h := h.takeDescriptor s desc
      if (h.position? lane s).any (fun p => posMatches p d desc) then go h 4 else again h
    | 4 => if ws = (h.node s).record then go h 5 else again h
    | 5 => if j.limp ∨ h.fld (NODE_STAT_STATE s) = 7 then go h 6 else h.setJoin s (fun x => { x with step := 7 })
    | _ => h

/-- A Bell of reports on the Substitute's side: 256 clean ones join the station; a drift event starts the count again. -/
def Head.joinBell (h : Head) (s : Nat) (seen drift : Bool) : Head :=
  let j := h.joinRun s
  if j.step ≠ 7 ∨ j.joined then h
  else if drift then h.setJoin s (fun x => { x with good := 0 })
  else if !seen then h
  else h.setJoin s (fun x => { x with good := x.good + 1, joined := decide (256 ≤ x.good + 1) })

end Sys2Proof.Machine
end

