-- ==== Sys2Proof/Machine/RollCall.lean ====
section
/-! DEFINITION. Roll Call (chapter 06, R131 to R144, R153): the request of each lane, the answers, silence, the end, START, the
restart, the request for a full one; the claim of an epoch (R398). -/

namespace Sys2Proof.Machine

def Head.rcLane (h : Head) (l : Nat) : RcLane := h.net.rc.lanes.toList.getD l .initial
def Head.setRc (h : Head) (f : RollCall → RollCall) : Head := { h with net := { h.net with rc := f h.net.rc } }
def Head.setRcLane (h : Head) (l : Nat) (f : RcLane → RcLane) : Head :=
  h.setRc (fun r => { r with lanes := r.lanes.mapFinIdx (fun i x _ => if i = l then f x else x) })

/-! ## Claim epochs (R398) -/

/-- `a` is newer than `b`. -/
def epochNewer (a b : Nat) : Bool :=
  let d := (a + 65536 - b % 65536) % 65536
  1 ≤ d && d ≤ 32767

/-- Note an epoch that was seen. -/
def Head.seeEpoch (h : Head) (e : Nat) : Head :=
  if h.red.newest.all (epochNewer e) then { h with red := { h.red with newest := e } } else h

/-- A frame of the own side with a newer epoch than the own makes an active head of a pair yield at the next edge (R411). -/
def Head.yieldTo (h : Head) (e : Nat) : Head :=
  if h.paired ∧ h.fld RED_STAT_ROLE = 1 ∧ epochNewer e h.ownEpoch then { h with red := { h.red with yieldAtEdge := true } } else h

/-- The smallest epoch of the own parity that is newer than every epoch seen; it is recorded in the event log (type 2). -/
def Head.claimEpoch (h : Head) : Head :=
  let par := if h.paired then h.side else 0
  let n := h.red.newest.elim 0 (fun x => (x + 1) % 65536)
  let e := if n % 2 = par then n else (n + 1) % 65536
  let h := { h with red := { h.red with newest := some e }, log := { h.log with epoch := e, claimed := true } }
  (h.put RED_STAT_EPOCH e).logAdd 2 e 0 0

/-! ## Start (R131, R153) -/

/-- The host waits for this transaction. -/
def TxnSrc.isHost : TxnSrc → Bool
  | .host _ => true
  | _ => false

/-- The first request of a Roll Call Bell stands at step `markers` on every lane in use; the others have ended. -/
def Head.rcLanesInit (h : Head) : Head :=
  let l := h.fieldLanes
  h.setRc (fun r => { r with
    lanes := r.lanes.mapFinIdx (fun i _ _ => if l.contains i then { RcLane.initial with step := .markers } else .initial)
    bells := 0, startsLeft := 0, restartAt := none, active := true, first := true })

/-- The tickets that the READs of a Roll Call hold are freed. -/
def Head.rcFreeTickets (h : Head) : Head :=
  h.net.rc.lanes.toList.foldl (fun (h : Head) x =>
    let h := match x.held with | some t => h.freeTicket t | none => h
    if x.reading && x.sent then h.freeTicket x.seq else h) h

/-- Every station's Roll Call begins anew. -/
def Head.rcStation (h : Head) (s : Nat) : Head :=
  (h.setNode s (fun x => { x with
    resync := .none, lost := false, rejoin := false, failedProb := 0, limp := 0, limpNext := 0, slotsOut := false
    detainPending := false, matched := false })).put (NODE_STAT_RESULT s) 0

/-- Roll Call starts: 8 kHz Bells, F_MT 0 (R162), the lanes that line mode does not use idle (R90), the transmitters enabled, every lane at
its beginning; what the head ran in Recess is abandoned, and a host's request that was on its way goes out again, with RETRY (R125). -/
def Head.rollCallStart (h : Head) : Head :=
  let h := if !h.log.claimed ∧ !h.paired then h.claimEpoch else h
  let h := h.restMt.relane
  let h := (h.rcFreeTickets.rcLanesInit.wrapFld NODE_RC_STAT_RUNS).put NODE_RC_STAT_RESULT 3
  let h := h.put NODE_RC_STAT_FAIL_STATION 0
  let h := (List.range 8).foldl (fun (h : Head) l =>
    (h.wr (NODE_RC_LANE l) ((h.positionsOf l).length % 256 * 2 ^ 16)).setLane l (fun x => { x with bells := 0 })) h
  let h := h.stations.foldl (fun h s => h.rcStation s) h
  let all := h.net.flights.map (·.txn) ++ h.net.waiting
  let again := (h.net.flights.map (fun (f : Flight) => { f.txn with retries := max 1 f.txn.retries }) ++ h.net.waiting).filter (fun x => x.src.isHost)
  let h : Head := { h with net := { h.net with waiting := again, flights := [] } }
  let h : Head := (all.filter (fun x => !x.src.isHost && decide (x.ticket < 256))).foldl (fun h x => h.freeTicket x.ticket) h
  let h := h.put SYS_STATUS_STATE 3
  let t := if h.bell.running then h.bell.instant else h.time.mt.ns h.now
  { h with bell := { h.bell with running := true, rollcall := true, instant := t, firstCyclic := none } }

/-! ## Requests (R131, R136) -/

/-- Send a Roll Call operation on a lane: SLOT 1, the lane's next SEQ. -/
def Head.rcSend (h : Head) (l s op arg phase : Nat) (ws : List Word) : Head :=
  let q := ((h.rcLane l).seq + 1) % 256
  let w0 := BitVec.ofNat 32 (op * 2 ^ 24 + q * 2 ^ 16 + arg % 65536)
  let h := h.sendField l s 0xB 1 h.ownEpoch false false (w0 :: ws)
  h.setRcLane l (fun x => { x with seq := q, sent := true, sentAt := h.sentStamp l phase })

/-- Send a Recess READ under ticket `t` in a Roll Call Bell. -/
def Head.rcSendRead (h : Head) (l s addr count phase t : Nat) (retry : Bool) : Head :=
  let h := h.sendField l s 0x9 1 h.ownEpoch retry false [BitVec.ofNat 32 (2 ^ 24 + t * 2 ^ 16 + count * 256), BitVec.ofNat 32 addr]
  h.setRcLane l (fun x => { x with seq := t, sent := true, sentAt := h.sentStamp l phase })

/-- A descriptor READ: it holds a ticket (R141), which a repeat keeps, with RETRY (R125). None free: it waits for the next Bell. -/
def Head.rcRead (h : Head) (l s addr count phase : Nat) : Head :=
  match (h.rcLane l).held with
  | some t => h.rcSendRead l s addr count phase t true
  | none =>
    match h.takeHeadTicket 1 count with
    | none => h
    | some (t, h) => (h.rcSendRead l s addr count phase t false).setRcLane l (fun x => { x with held := some t })

/-- The READ of a steering sample on the steering lane (R160), in this Bell once a ticket is free. -/
def Head.rcSteer (h : Head) (l phase : Nat) : Head :=
  match h.takeHeadTicket 1 5 with
  | none => h
  | some (t, h) =>
    let h := h.setSteer (fun s => { s with readDue := false, stepTries := s.stepTries + 1 })
    (h.rcSendRead l (nth h.candidates 0) 0x3B 5 phase t false).setRcLane l (fun x => { x with reading := true })

/-- The words of a unique ID. -/
def uidWords (u : Nat) : List Word := [BitVec.ofNat 32 u, BitVec.ofNat 32 (u / 2 ^ 32)]

/-- The words of a lane's Recess table (R123). -/
def Head.tableWords (h : Head) (l : Nat) : List Word :=
  match h.content?.bind (fun c => c.laneTables.find? (fun t => t.lane == l)) with
  | some t => BitVec.ofNat 32 (t.recessStart * 65536 + t.pairs.length * 256 + t.lag) ::
      t.pairs.map (fun p => BitVec.ofNat 32 (p.1 * 65536 + p.2))
  | none => [0]

/-- Record a result for a station: its lanes, position and state (Table 06-3). A dual node that failed on its other channel keeps
that result. -/
def Head.rcRecord (h : Head) (l s result : Nat) : Head :=
  let h := if l < 4 then h.put (NODE_STAT_LANE_A s) l else h.put (NODE_STAT_LANE_B s) l
  let first := if l < 4 then true else h.fld (NODE_STAT_LANE_A s) = 15
  let h := if first then h.put (NODE_STAT_POS s) (h.posOn l s) else h
  if result = 0 then (if h.fld (NODE_STAT_RESULT s) = 0 then h.put (NODE_STAT_STATE s) 1 else h)
  else (h.put (NODE_STAT_RESULT s) result).put (NODE_STAT_STATE s) 6

/-- FWD of the node that holds station `s` (R140): as its descriptor declares it; while that has not been read, as its position expects. -/
def Head.rcForward (h : Head) (l s : Nat) : Nat :=
  let d := (h.node s).descriptor
  let ws := if d.isEmpty then ((h.position? l s).map (·.expected)).getD [] else d
  bits (wordAt ws 5) 31 16

/-- Go on to the next node of a lane at position `p`; the hop figures of the next node count from this one (R140). -/
def Head.rcNext (h : Head) (l p : Nat) : Head :=
  h.setRcLane l (fun y => { y with
    step := .probe, pos := p, hop := y.hop + 1, hold := 0, repeats := 0, silent := 0, samples := [], retook := false
    prevDelay := y.delay, prevFwd := h.rcForward l y.hold })

/-- Go to a step of the present node. -/
def Head.rcStep (h : Head) (l : Nat) (s : RcStep) : Head := h.setRcLane l (fun y => { y with step := s, repeats := 0, silent := 0 })

/-- A dual node on channel B waits until it has passed R142 on channel A (R136), goes on to SLOTS then, and takes the result that it has
on channel A when it failed there (R143). -/
def Head.rcAwaited (h : Head) (l : Nat) : Head :=
  let x := h.rcLane l
  let res := h.fld (NODE_STAT_RESULT x.hold)
  if x.step ≠ .await then h
  else if res ≠ 0 then (h.rcRecord l x.hold res).rcNext l (x.pos + 1)
  else if (h.node x.hold).matched then h.rcStep l .slots
  else h

/-- The station that the node with this unique ID has on channel A: the one under test there, or the one it was given. -/
def Head.stationOfUid (h : Head) (uid : Nat) : Option Nat :=
  match ((List.range 4).map h.rcLane).find? (fun x => x.uid == uid && x.hold != 0 && x.step != .probe) with
  | some x => some x.hold
  | none => h.stations.find? (fun s => (List.range 4).any (fun a => h.posOn a s != 0) && pairOf (h.rd (NODE_UID_LO s)) (h.rd (NODE_UID_HI s)) == uid)

/-- The index of the position that channel-B lane `l` takes for the node with this unique ID: that of the station it has on channel A
(R136, R143), when the lane expects it at position `p` or later, else `p` (notes/assumptions/99.md). -/
def Head.rcPlace (h : Head) (l uid p : Nat) : Nat :=
  if l < 4 ∨ h.paired then p
  else
    match (h.stationOfUid uid).map (fun s => h.posOn l s) with
    | some k => if p + 1 ≤ k then k - 1 else p
    | none => p

/-- The positions of a lane from `p` up to, but without, `q` are ABSENT. -/
def Head.rcSkip (h : Head) (l p q : Nat) : Head := (((h.positionsOf l).take q).drop p).foldl (fun (h : Head) a => h.rcRecord l a.station 1) h

/-- The node under test on lane `l` stands at position `q` with station `s`: what it measured goes with it. -/
def Head.rcMove (h : Head) (l q s : Nat) : Head :=
  let x := h.rcLane l
  let h := h.rcSkip l x.pos q
  (((h.wrPair (NODE_UID_LO x.hold) 0).putDelay x.hold l 0).putDelay s l x.delay).setRcLane l (fun y => { y with pos := q, hold := s })

/-- Before a request: on channel B the node under test follows the station that it has taken on channel A (R136), and a node whose
position records IDENT or DELAY gets no SLOTS (R143). -/
def Head.rcSettle (h : Head) (l : Nat) : Head :=
  let x := h.rcLane l
  let on := x.hold != 0 && (x.step == .assign || x.step == .echo || x.step == .await || x.step == .slots || x.step == .table)
  let q := h.rcPlace l x.uid x.pos
  let h := if on ∧ q ≠ x.pos then h.rcMove l q (((h.positionsOf l)[q]?.map (·.station)).getD x.hold) else h
  let res := h.fld (NODE_STAT_RESULT (h.rcLane l).hold)
  if x.step = .slots ∧ (res = 2 ∨ res = 3) then h.rcNext l ((h.rcLane l).pos + 1) else h

/-- The request of a lane in this Roll Call Bell (Table 06-1); `phase` is the wait of R20. A repeated READ of a latch record waits for a
re-ASSIGN. -/
def Head.rcRequest (h : Head) (l phase : Nat) : Head :=
  let h := (h.rcSettle l).rcAwaited l
  let x := h.rcLane l
  if x.sent then h
  else if h.time.steer.readDue ∧ l = h.steerLane ∧ x.step ≠ .reassign then h.rcSteer l phase
  else
    match x.step with
    | .markers =>
      if h.laneUp l ∧ (h.lane l).bells + 16 ≤ h.net.rc.bells then
        (h.rcSend l 255 1 1 phase []).setRcLane l (fun y => { y with step := .probe, sent := false })
      else h
    | .probe => h.rcSend l 255 1 0 phase []
    | .assign | .reassign => h.rcSend l 255 3 (h.headNo * 256 + x.hold) phase (uidWords x.uid)
    | .echo => h.rcSend l x.hold 4 0 phase []
    | .descLow => h.rcRead l x.hold 0 46 phase
    | .descHigh => h.rcRead l x.hold 0x2E 18 phase
    | .slots =>
      let r := h.slotRecord x.hold
      (h.setNode x.hold (fun y => { y with record := r })).rcSend l x.hold 5 0 phase r
    | .table => h.rcSend l x.hold 6 0 phase (h.tableWords l)
    | .await | .ended => h

/-- ROLLCALL_REQUEST: at tick 64 of a Roll Call Bell the head sends at most one request per lane, or START once every lane has
ended. -/
def Head.rollCallRequest (h : Head) (phase : Nat) : Head :=
  if !h.net.rc.active ∨ !h.bell.rollcall then h
  else
    let h := (h.forward (h.instantTick 64)).privFlag 26
    if h.net.rc.startsLeft > 0 then
      let b := h.bell.firstCyclic.getD 0
      let h := h.fieldLanes.foldl (fun h l => h.rcSend l 255 7 (b % 256) phase []) h
      h.setRc (fun r => { r with startsLeft := r.startsLeft - 1 })
    else h.fieldLanes.foldl (fun h l => h.rcRequest l phase) h

/-! ## The end of a lane and of Roll Call (R136, R137, R144) -/

/-- Every REQUIRED position is OK: the first that is not, if any. -/
def Head.rcFailed (h : Head) : Option Nat :=
  let l := h.fieldLanes.flatMap (fun l => h.positionsOf l)
  (l.find? (fun p => p.required && (h.fld (NODE_STAT_RESULT p.station) != 0 || h.fld (NODE_STAT_STATE p.station) != 1))).map (·.station)

/-- Every lane has ended: a failed REQUIRED position fails Roll Call, which starts again 1 s later (R144). -/
def Head.rcFinish (h : Head) : Head :=
  if !h.net.rc.active ∨ !(h.net.rc.lanes.toList.all (fun x => x.step == .ended)) ∨ h.net.rc.restartAt.isSome ∨ h.bell.firstCyclic.isSome then h
  else
    match h.rcFailed with
    | some s =>
      let h := (h.put NODE_RC_STAT_RESULT 2).put NODE_RC_STAT_FAIL_STATION s
      ((h.put HOST_EVT_ROLLCALL_FAIL 1).raise 0 4 0).setRc (fun r => { r with restartAt := some (h.now + 200000000) })
    | none => h

/-- A lane ends at its present position: the positions from there on that took no result are ABSENT. -/
def Head.rcEnd (h : Head) (l : Nat) (result : Option Nat) : Head :=
  let x := h.rcLane l
  let ps := (h.positionsOf l).map (·.station)
  let h := match result, ps[x.pos]? with
    | some r, some s => h.rcRecord l s r
    | _, _ => h
  let rest := ps.drop (if result.isSome then x.pos + 1 else x.pos)
  let h := rest.foldl (fun h s => h.rcRecord l s 1) h
  let h := h.put (NODE_RC_LANE_STOP_POS l) (if x.step = .markers then 0 else x.pos + 1)
  (h.setRcLane l (fun y => { y with step := .ended, sent := false })).rcFinish

/-- The ticket of a lane's descriptor READ is freed. -/
def Head.rcFree (h : Head) (l : Nat) : Head :=
  match (h.rcLane l).held with
  | some t => (h.freeTicket t).setRcLane l (fun y => { y with held := none })
  | none => h

/-- The answer of a lane is missing (R136): repeats, NO_ACK, or the lane's normal end after two silent PROBEs. -/
def Head.rcSilence (h : Head) (l : Nat) : Head :=
  let x := h.rcLane l
  if !x.sent ∨ (x.step = .ended ∧ !x.reading) then h
  else
    let h := h.setRcLane l (fun y => { y with sent := false })
    if x.reading then ((h.freeTicket x.seq).setRcLane l (fun y => { y with reading := false })).stepLost
    else
      match x.step with
      | .markers => h
      | .probe => if x.silent = 0 then h.setRcLane l (fun y => { y with silent := 1 }) else h.rcEnd l none
      | _ =>
        if x.repeats < 3 then h.setRcLane l (fun y => { y with repeats := y.repeats + 1 })
        else (h.rcFree l).rcEnd l (some 4)

/-- ROLLCALL_NO_ANSWER on a lane, judged at tick 24,000; a lane that is not UP by the 256th Bell ends at position 0. -/
def Head.rollCallNoAnswer (h : Head) (l : Nat) : Head :=
  if !h.net.rc.active ∨ !h.bell.rollcall then h
  else
    let x := h.rcLane l
    if x.step = .markers ∧ !h.laneUp l ∧ 255 ≤ h.net.rc.bells then h.rcEnd l none
    else if x.sent then (h.forward (h.instantTick 24001)).rcSilence l
    else h

/-! ## Answers (R133 to R143) -/

/-- The hop figures of R140 for a delay `d`: the hop delay and the cable length in 0.1 m. A negative one shows as 0; those of a dual
node are channel A's (notes/assumptions/94.md). -/
def Head.rcHop (h : Head) (l s d : Nat) : Head :=
  if l ≥ 4 ∧ h.isDual s ∧ !h.paired then h
  else
  let x := h.rcLane l
  let hop : Int := if x.hop = 0 then d else (d : Int) - x.prevDelay - x.prevFwd
  let prop := match h.position? l s with | some p => max 1 p.prop | none => 1
  let len := divHalfUp (hop * 8000) prop
  h.wr (NODE_HOP s) ((min 65535 len.toNat) * 65536 + min 65535 hop.toNat)

/-- The 16 samples of the node under test are complete (R139). -/
def Head.rcEchoed (h : Head) (l : Nat) (samples : List Int) : Head :=
  let x := h.rcLane l
  let fail (h : Head) : Head := (h.rcRecord l x.hold 3).rcNext l (x.pos + 1)
  match trimmedMean samples with
  | none => if x.retook then fail h else h.setRcLane l (fun y => { y with samples := [], retook := true })
  | some d =>
    let h := (h.putDelay x.hold l d.toNat).rcHop l x.hold d.toNat
    let h := h.setRcLane l (fun y => { y with delay := d.toNat })
    let inBand := match h.position? l x.hold with | some p => decide ((p.dmin : Int) ≤ d ∧ d ≤ p.dmax) | none => false
    if !inBand then fail h
    else if l ≥ 4 ∧ h.isDual x.hold ∧ !h.paired ∧ (List.range 4).any (fun a => h.posOn a x.hold != 0) then h.rcStep l .await
    else h.rcStep l .descLow

/-- The descriptor that holds candidate 0's latch record gives the step (R161). -/
def Head.rcLatch (h : Head) (l s : Nat) (desc : List Word) : Head :=
  if l = h.steerLane ∧ s = nth h.candidates 0 then h.stepSample s (desc.drop 0x3B) else h

/-- The descriptor of the node under test is complete: R142, and the search of R143. -/
def Head.rcCompare (h : Head) (l : Nat) (desc : List Word) : Head :=
  let x := h.rcLane l
  let ps := h.positionsOf l
  let matched (h : Head) (s : Nat) : Head := (h.takeDescriptor s desc).setNode s (fun y => { y with matched := true })
  match ps[x.pos]? with
  | none => h.rcEnd l none
  | some p =>
    if posMatches p x.delay desc then
      (((matched h x.hold).rcLatch l x.hold desc).rcStep l .slots)
    else
      let later := ps.drop (x.pos + 1)
      let cut := match later.findIdx? (fun q => q.required) with | some i => i + 1 | none => later.length
      match (if p.required then none else (later.take cut).findIdx? (fun q => posMatches q x.delay desc)) with
      | some i =>
        let q := x.pos + 1 + i
        let s := ((ps[q]?).map (·.station)).getD 0
        let h := (h.wr (NODE_HOP x.hold) 0).setNode x.hold (fun y => { y with descriptor := [] })
        let h := ((h.rcMove l q s).rcHop l s x.delay)
        ((matched h s).rcLatch l s desc).rcStep l .reassign
      | none =>
        let h := h.takeDescriptor x.hold desc
        (h.rcRecord l x.hold 2).rcNext l (x.pos + 1)

/-- The answer of the node under test is refused or echoes something else: it counts as unanswered (R136). -/
def Head.rcUnanswered (h : Head) (l : Nat) : Head := (h.setRcLane l (fun y => { y with sent := true })).rcSilence l

/-- A Roll Call answer that passed checks 1 to 5 (R133), stamped in tick `t`, `stamp` in 0.8 ns. One that does not fit the request leaves
it unanswered. -/
def Head.rcAnswer (h : Head) (l t stamp : Nat) (f : Frame) : Head :=
  let x := h.rcLane l
  let stays := h
  let kind := bits f.w0.toNat 15 12
  let from_ := bits f.w0.toNat 23 16
  let w (i : Nat) : Nat := wordAt f.payload i
  let q := bits (w 0) 23 16
  if !x.sent ∨ t < h.instantTick 464 ∨ h.instantTick 24000 < t ∨ q ≠ x.seq then h
  else
    let h := h.setRcLane l (fun y => { y with sent := false })
    let op := bits (w 0) 31 24
    let status := bits (w 0) 31 24
    if kind = 0xA then
      let data := f.payload.drop 1
      if x.reading then
        let h := (h.freeTicket x.seq).setRcLane l (fun y => { y with reading := false })
        if status = 0 then h.stepSample (nth h.candidates 0) data else h.stepLost
      else
      let h := h.rcFree l
      match x.step with
      | .descLow =>
        if status = 5 then h.rcUnanswered l
        else if status ≠ 0 then (h.rcRecord l x.hold 2).rcNext l (x.pos + 1)
        else (h.setNode x.hold (fun y => { y with descriptor := data })).rcStep l .descHigh
      | .descHigh =>
        if status = 5 then h.rcUnanswered l
        else if status ≠ 0 then (h.rcRecord l x.hold 2).rcNext l (x.pos + 1)
        else h.rcCompare l ((h.node x.hold).descriptor.take 46 ++ data)
      | _ => stays
    else if x.reading then stays
    else
      match x.step with
      | .probe =>
        if op ≠ 2 then stays
        else
          let uid := pairOf (w 1) (w 2)
          match (h.positionsOf l)[x.pos]? with
          | none => (h.put (NODE_RC_LANE_EXTRA l) 1).rcEnd l none
          | some _ =>
            let q := h.rcPlace l uid x.pos
            let s := ((h.positionsOf l)[q]?.map (·.station)).getD 0
            ((h.rcSkip l x.pos q).setRcLane l (fun y => { y with uid := uid, hold := s, pos := q })).rcStep l .assign
      | .assign =>
        if op ≠ 3 ∨ from_ ≠ x.hold then stays
        else
          let h := h.wrPair (NODE_UID_LO x.hold) x.uid
          ((h.put (NODE_RC_LANE_FOUND l) (h.fld (NODE_RC_LANE_FOUND l) + 1)).rcStep l .echo).setRcLane l (fun y => { y with samples := [] })
      | .reassign => if op ≠ 3 ∨ from_ ≠ x.hold then stays else (h.wrPair (NODE_UID_LO x.hold) x.uid).rcStep l .slots
      | .echo =>
        if op ≠ 4 then stays
        else
          let s := x.samples ++ [echoSample x.sentAt (w 1) (w 2) stamp]
          let h := h.setRcLane l (fun y => { y with samples := s, repeats := 0 })
          if s.length < 16 then h else h.rcEchoed l s
      | .slots =>
        if op = 5 ∧ f.payload.drop 1 = (h.node x.hold).record then h.rcStep l .table
        else h.rcUnanswered l
      | .table =>
        if op = 6 ∧ f.payload.drop 1 = h.tableWords l then (h.rcRecord l x.hold 0).rcNext l (x.pos + 1)
        else h.rcUnanswered l
      | _ => stays

/-! ## START and restart (R137, R144) -/

/-- ROLLCALL_STARTUP: every lane has ended and every REQUIRED position is OK: the first of three STARTs, naming the Bell 8 Bells
on. -/
def Head.rollCallStartup (h : Head) (phase : Nat) : Head :=
  if !h.net.rc.active ∨ !(h.net.rc.lanes.toList.all (fun x => x.step == .ended)) ∨ h.rcFailed.isSome ∨ h.bell.firstCyclic.isSome then h
  else
    let b := bellAfter h.bellNo 8
    let h := { h with bell := { h.bell with firstCyclic := some b } }
    (h.setRc (fun r => { r with startsLeft := 3 })).rollCallRequest phase

/-- ROLLCALL_RESTART: 1 s after the failure Roll Call starts again, with CLEAR. -/
def Head.rollCallRestart (h : Head) : Head :=
  match h.net.rc.restartAt with
  | some t => (h.forward t).rollCallStart
  | none => h

/-- The first cyclic Bell (R137): stations that are not OK leave their axes with NODE_ABSENT (R144) and their loops with NODE; the others lose the faults that
a full Roll Call clears, get back the tasks disabled with them and await their configuration (R339). -/
def Head.rollCallDone (h : Head) : Head :=
  let h := h.startMt.setRc (fun r => { r with active := false, byRequest := false })
  let h := { h with bell := { h.bell with rollcall := false, firstCyclic := none, longLeft := 8 } }
  let h := (h.put NODE_RC_STAT_RESULT 1).put SYS_STATUS_STATE 4
  h.stations.foldl (fun (h : Head) s =>
    let h := h.setNode s (fun x => { x with slotsOut := false, missRun := 0, missA := 0, missB := 0 })
    if h.fld (NODE_STAT_STATE s) = 6 ∨ h.fld (NODE_STAT_STATE s) = 0 then
      (((h.axesOf s).foldl (fun h n => h.faultAxis n 5) h).loopsFault s 5).put (NODE_STAT_STATE s) 6
    else (((h.axesOf s).foldl (fun (h : Head) n =>
      ([3, 4, 5].foldl (fun (h : Head) k => h.axisClear n k) h).unfault n) h).nodeBack s).putBit (NODE_PROT_CFG_OK s) (h.configWords s).isEmpty) h

/-! ## A full Roll Call on request (R153) -/

/-- What refuses a reload or a Roll Call (R72, R153): 0 nothing, 1 state not changeover-safe, 2 an axis enabled (R251: or in
a Placement Test), 3 a reload or a requested Roll Call is running, 4 Maintenance mode; with several the highest shows
(notes/assumptions/92.md). `safe` says that the table's state is changeover-safe. -/
def Head.changeRefuse (h : Head) (safe : Bool) : Nat :=
  if h.fld SYS_STATUS_STATE = 7 then 4
  else if h.boot.reload ≠ .none ∨ h.net.rc.requested ∨ h.net.rc.byRequest then 3
  else if h.allAxes.any (fun n => h.enabled n || (h.axis n).pt.active) then 2
  else if !safe then 1
  else 0

/-- NODE_RC_CTL.FULL: a full Roll Call begins at the next Bell edge, or the request is refused with REFUSE. -/
def Head.requestRollCall (h : Head) (safe : Bool) : Head × Nat :=
  let r := h.changeRefuse safe
  if r ≠ 0 ∨ !h.bell.running then (h.put NODE_RC_CTL_REFUSE (max r 1), 6)
  else ((h.put NODE_RC_CTL_REFUSE 0).setRc (fun x => { x with requested := true }), 0)

end Sys2Proof.Machine
end

