-- ==== Sys2Proof/Machine/Recess.lean ====
section
/-! DEFINITION. Recess transactions (chapter 05, R123 to R126): the request of a pair, the response, the missing response with
its repeats, what a completed transaction means to the one who asked. -/

namespace Sys2Proof.Machine

/-- The Recess table of a lane. -/
def Head.laneTable? (h : Head) (l : Nat) : Option LaneTable := h.content?.bind (fun c => c.laneTables.find? (fun t => t.lane == l))

/-- L(n) of Table 05-11: the ticks a frame of `n` payload words occupies the wire. -/
def wireTicks (n : Nat) : Nat := ceilDiv ((14 + 4 * n) * 8) 5

/-- A transaction may go in a pair of this lane now. -/
def Head.mayFly (h : Head) (lane pair : Nat) (last : Bool) (x : Txn) : Bool :=
  let s := x.station
  let onLane := h.laneOf s 0 == lane || h.laneOf s 1 == lane || h.paired && h.posOn lane s != 0
  let limp := (h.node s).limp
  let side := if x.src == .join then decide (h.ownLane s = lane) && last && h.substitute
    else if x.rcOp ≠ 0 then decide (h.resyncLane s = lane) && !h.substitute
    else (decide (limp = 0) || decide (lane / 4 + 1 = limp)) && !h.substitute
  onLane && side && !(h.net.flights.any (fun f => f.txn.station == s)) && (decide (x.ticket < 256) || !h.host.free.isEmpty) &&
    decide (pair < 8)

/-- The oldest waiting transaction that may go, no station's later one before its earlier one (R124). -/
def pickTxn (ok : Txn → Bool) : List Txn → List Nat → Option Txn
  | [], _ => none
  | x :: xs, seen => if !seen.contains x.station && ok x then some x else pickTxn ok xs (x.station :: seen)

/-- The words of a request: R114, or Table 05-9 with the ticket as SEQ and `arg` as ARG. -/
def Txn.words (x : Txn) (arg : Nat) : List Word :=
  if x.rcOp = 0 then BitVec.ofNat 32 (x.op * 2 ^ 24 + x.ticket * 2 ^ 16 + x.count * 256) :: BitVec.ofNat 32 x.addr :: x.data
  else BitVec.ofNat 32 (x.rcOp * 2 ^ 24 + x.ticket * 2 ^ 16 + arg) :: x.data

/-! ## Completion -/

/-- What a finished transaction means: `ok` says that a response came, with its STATUS and words; `sample` is that of an ECHO. -/
def Head.txnDone (h : Head) (x : Txn) (lane : Nat) (ok : Bool) (status : Nat) (ws : List Word) (sample : Int) : Head :=
  let h := if x.src.isHost ∨ x.ticket ≥ 256 then h else h.freeTicket x.ticket
  let s := x.station
  let good := ok && status == 0
  match x.src with
  | .host t =>
    if !ok then h.finishTicket t 8 [] false 0
    else if status = 0 then h.finishTicket t 0 (if x.op = 1 then ws else []) false 0
    else h.finishTicket t (0x10 + status) [] false 0
  | .reference => if good ∧ h.boot.reload = .none then h.setSteer (fun y => { y with latch := some (s, ws) }) else h
  | .descriptor part =>
    if !good then h.setNode s (fun y => { y with resync := .none })
    else if part = 0 then
      (h.setNode s (fun y => { y with half := ws })).queueTxn (.descriptor 1) s 1 0 0x2E 18 []
    else h.rejoinCompared s (h.resyncLane s) ((h.node s).half.take 46 ++ ws)
  | .config => if good then h.configDone s x.addr else h
  | .rawsw =>
    if h.fld (NODE_RAWSW_RESULT s) ≠ 1 then h
    else if !ok then h.put (NODE_RAWSW_RESULT s) 4
    else if status = 0 then (h.put (NODE_RAWSW_RESULT s) 2).setNode s (fun y => { y with rawsw := 3 })
    else h.put (NODE_RAWSW_RESULT s) 3
  | .resyncEcho => if ok then h.resyncEchoed s lane sample else h.resyncRetry s
  | .resyncSlots => if ok then h.resyncSlotted s ws else h.resyncRetry s
  | .resyncStart => h
  | .unlock => h
  | .rejoinEcho => if ok then h.rejoinAnswered s else h
  | .join => h.joinAnswered s good ws sample

/-- Every transaction ends ABORTED, and its ticket is freed (Table 05-14). -/
def Head.recessAbort (h : Head) : Head :=
  let all := h.net.flights.map (·.txn) ++ h.net.waiting
  let h : Head := { h with net := { h.net with waiting := [], flights := [] } }
  all.foldl (fun (h : Head) x => match x.src with
    | .host t => h.finishTicket t 9 [] false 0
    | _ => if x.ticket < 256 then h.freeTicket x.ticket else h) h

/-! ## The pair's instants -/

/-- RECESS_REQUEST: at the request instant of pair `p` of a lane (R124). `phase` is the wait of R20. -/
def Head.recessRequest (h : Head) (lane p phase : Nat) : Head :=
  match h.laneTable? lane with
  | none => h
  | some t =>
    match t.pairs[p]? with
    | none => h
    | some pair =>
      if !h.bell.running ∨ h.bell.rollcall then h
      else
        let h := h.forward (h.instantTick pair.1)
        match pickTxn (h.mayFly lane p (p + 1 == t.pairs.length)) h.net.waiting [] with
        | none => h
        | some x =>
          let h : Head := { h with net := { h.net with waiting := h.net.waiting.erase x } }
          if x.src = .rawsw ∧ !h.rawswReady x.station then
            let h := if x.ticket < 256 then h.freeTicket x.ticket else h
            h.put (NODE_RAWSW_RESULT x.station) 3
          else
            let r : Option (Nat × Head) := if x.ticket < 256 then some (x.ticket, h) else h.takeHeadTicket x.op x.count
            match r with
            | none => h
            | some (tk, h) =>
              let x := { x with ticket := tk }
              let named := bellAfter h.bellNo 8
              let ep := if h.substitute then h.epochIn else h.ownEpoch
              let limp := (h.node x.station).limp != 0
              let h := h.sendField lane x.station (if x.rcOp = 0 then 9 else 0xB) (0xF0 + p) ep (x.retries != 0) limp (x.words (if x.rcOp = 7 then named % 256 else 0))
              if x.rcOp = 7 then
                let h := h.freeTicket tk
                if x.src = .join then h.setJoin x.station (fun j => { j with step := 7 })
                else h.setNode x.station (fun y => { y with resync := .start named })
              else
                let f : Flight := { txn := x, lane := lane, pair := p, dueBell := bellAfter h.bellNo t.lag, departed := h.sentStamp lane phase, damaged := false }
                { h with net := { h.net with flights := h.net.flights ++ [f] } }

/-- The flight whose response window this is. -/
def Head.flightAt (h : Head) (lane pair : Nat) : Option Flight :=
  h.net.flights.find? (fun f => f.lane == lane && f.pair == pair && f.dueBell == h.bellNo)

/-- Drop a flight. -/
def Head.landed (h : Head) (f : Flight) : Head := { h with net := { h.net with flights := h.net.flights.erase f } }

/-- The ticket or SEQ is that of a transaction that has not completed. -/
def Head.ticketKnown (h : Head) (tk : Nat) : Bool := (h.net.flights.map (·.txn) ++ h.net.waiting).any (fun x => x.ticket == tk)

/-- A Recess response that passed checks 1 to 5, in the window of flight `g` (R114, R125, Table 05-14). -/
def Head.recessResponse (h : Head) (g : Flight) (lane stamp : Nat) (f : Frame) : Head :=
  let w0 := wordAt f.payload 0
  let tk := bits w0 23 16
  let isReg := bits f.w0.toNat 15 12 == 0xA
  if g.txn.ticket ≠ tk then (if h.ticketKnown tk then h else h.bump (LANE_HEADER lane))
  else if bits f.w0.toNat 23 16 ≠ g.txn.station ∨ isReg ≠ (g.txn.rcOp == 0) then h
  else
    let ws := f.payload.drop 1
    let sample := echoSample g.departed (wordAt f.payload 1) (wordAt f.payload 2) stamp
    let h := if g.txn.src = .join then h.setJoin g.txn.station (fun j => { j with limp := bit f.w0.toNat 1 }) else h
    (h.landed g).txnDone g.txn lane true (if isReg then bits w0 31 24 else 0) ws sample

/-- RECESS_RESPONSE_MISSING: the window of a pair closes without a good response (R125): RETRY up to 3 times, then TIMEOUT. -/
def Head.recessMissing (h : Head) (lane pair : Nat) : Head :=
  match h.flightAt lane pair with
  | none => h
  | some g =>
    let a := match (h.laneTable? lane).bind (fun t => t.pairs[pair]?) with | some q => q.2 | none => 0
    let h := h.forward (h.instantTick (a + 14 + wireTicks 47))
    let h := h.landed g
    let h := if g.damaged then h else h.bump (NODE_MISS g.txn.station)
    if g.txn.retries < 3 then
      { h with net := { h.net with waiting := { g.txn with retries := g.txn.retries + 1 } :: h.net.waiting } }
    else h.txnDone g.txn lane false 0 [] 0

end Sys2Proof.Machine
end

