-- ==== Sys2Proof/Machine/Receive.lean ====
section
/-! DEFINITION. What arrives on a field lane (chapters 05 and 06): the checks of Table 05-3, acceptance windows, edge and drift
events, cyclic reports and their release, missing reports, limp. -/

namespace Sys2Proof.Machine

/-! ## Checks 1 to 5 (Table 05-3) -/

/-- Header fields of a frame. -/
def fKind (f : Frame) : Nat := bits f.w0.toNat 15 12
def fLen (f : Frame) : Nat := bits f.w0.toNat 11 6
def fUp (f : Frame) : Bool := bit f.w0.toNat 0
def fLimp (f : Frame) : Bool := bit f.w0.toNat 1
def fStation (f : Frame) : Nat := bits f.w0.toNat 31 16
def fEpoch (f : Frame) : Nat := bits f.w1.toNat 31 16
def fBseq (f : Frame) : Nat := bits f.w1.toNat 15 8
def fSlot (f : Frame) : Nat := bits f.w1.toNat 7 0

/-- LEN is allowed for a kind (Table 05-2). -/
def lenAllowed (kind len : Nat) : Bool :=
  match kind with
  | 0 => len == 0 || len == 4
  | 1 => len == 7
  | 2 | 4 => len == 5
  | 3 => len == 2
  | 5 => 1 ≤ len && len ≤ 8
  | 6 => 3 ≤ len && len ≤ 17 && len % 2 == 1
  | 7 => 1 ≤ len && len ≤ 16
  | 8 => 2 ≤ len && len ≤ 17
  | 9 => 2 ≤ len && len ≤ 48
  | 0xA => 1 ≤ len && len ≤ 47
  | 0xB => 1 ≤ len && len ≤ 16
  | 0xC => len == 3
  | 0xD => 2 ≤ len && len ≤ 48
  | _ => false

/-- DIR and lane are those of a kind (Table 05-2): `line` says that the frame came on the line link. -/
def dirAllowed (kind : Nat) (up line : Bool) : Bool :=
  match kind with
  | 0 | 1 | 3 | 5 | 7 | 9 => !up && !line
  | 2 | 4 | 6 | 8 | 0xA => up && !line
  | 0xB => !line
  | 0xC => line
  | 0xD => !up && line
  | _ => false

/-- Check 5: the header. -/
def headerOk (f : Frame) (line : Bool) : Bool :=
  let k := fKind f
  lenAllowed k (fLen f) && dirAllowed k (fUp f) line && bits f.w0.toNat 5 3 == 0 &&
    (k != 0xA || decide (bits (wordAt f.payload 0) 31 24 ≤ 5))

/-- What check of 1 to 5 a frame fails first, in its order; none when it passes. -/
def frameFault (r : RxFrame) : Option Nat :=
  let f := r.frame
  if r.badGroup then some 1
  else if fLen f > 48 then some 2
  else if !r.ended ∨ f.payload.length ≠ fLen f then some 3
  else if frameCrc (f.w0 :: f.w1 :: f.payload) ≠ f.crc then some 4
  else if !headerOk f (8 ≤ r.lane.val) then some 5
  else none

/-- Count a refused frame on its lane. -/
def Head.countFault (h : Head) (lane check : Nat) : Head :=
  match check with
  | 1 => h.bump (LANE_FRAMING lane)
  | 2 | 3 => h.bump (LANE_LENGTH lane)
  | 4 => h.bump (LANE_CRC lane)
  | _ => h.bump (LANE_HEADER lane)

/-! ## Windows (R122, R147) -/

/-- The tick of a stamp in 0.8 ns. -/
def unitTick (u : Nat) : Nat := u * 4 / 25

/-- The tick lies in the window of nominal arrival `a`, widened by `more` (R122, R404). -/
def Head.inWindow (h : Head) (a more t : Nat) : Bool :=
  let x := h.instantTick a
  decide (x ≤ t + 6) && decide (t ≤ x + 14 + more)

/-- The cyclic slots of a lane in whose windows tick `t` lies, and the first of them. Normal and limp slots count alike (R104); a node
that is not OK keeps its slots (R144). -/
def Head.slotWindows (h : Head) (lane t : Nat) : List RepSlot :=
  match h.content? with
  | none => []
  | some c => c.repSlots.filter (fun x => x.lane == lane && !(h.node x.station).slotsOut && h.inWindow x.arrival 0 t)
def Head.slotWindow (h : Head) (lane t : Nat) : Option RepSlot := (h.slotWindows lane t).head?

/-- The payload words of a report slot's frame. -/
def repWords (x : RepSlot) : Nat := if x.part = 0 ∨ x.limp then x.len else x.part

/-- The Bell that a frame whose stamp lies in tick `t` is judged by: the one before when it started there (R18). -/
def Head.judgeAt (h : Head) (t : Nat) : Head :=
  let b := h.bell
  if b.edge ≤ t ∨ b.prevEdge = 0 ∨ t < b.prevEdge then h
  else { h with bell := { b with instant := b.prevInstant, edge := b.prevEdge, rollcall := b.prevRollcall } }.wr TIME_BELL_CNT (bellAfter h.bellNo (2 ^ 32 - 1))

/-- The widening of the join pair's window (R404): the largest DMAX of the lane, in ticks. -/
def Head.joinWiden (h : Head) (lane : Nat) : Nat :=
  ceilDiv (((h.positionsOf lane).map (·.dmax)).foldl max 0 * 4) 25

/-- Tick `t` lies in the response window of some pair of the lane. -/
def Head.pairWindow (h : Head) (lane t : Nat) : Bool :=
  match h.laneTable? lane with
  | none => false
  | some tb => tb.pairs.any (fun p => h.inWindow p.2 0 t)

/-- The flight of a lane in whose response window tick `t` lies. -/
def Head.flightWindow (h : Head) (lane t : Nat) : Option Flight :=
  match h.laneTable? lane with
  | none => none
  | some tb => h.net.flights.find? (fun f =>
      f.lane == lane && f.dueBell == h.bellNo &&
        (match tb.pairs[f.pair]? with
         | some p => h.inWindow p.2 (if f.txn.src == .join then h.joinWiden lane else 0) t
         | none => false))

/-- The branch port of a star lane takes the frame (R93, R122): its /S/ lies in a window of the branch and its last code group has come
when the window's frame length has passed: that of the slot record, or 47 words for a Recess window and a Roll Call answer (R133). -/
def Head.portTakes (h : Head) (r : RxFrame) : Bool :=
  let lane := r.lane.val
  let t := unitTick r.stamp
  let ends (close : Nat) : Bool := decide (r.stamp * 4 + 40 * (14 + 4 * r.frame.payload.length) ≤ 25 * h.instantTick close)
  if h.bell.rollcall then
    decide (h.instantTick 464 ≤ t ∧ t ≤ h.instantTick 24000) && ends (24000 + wireTicks 47)
  else
    (h.slotWindows lane t).any (fun x => ends (x.arrival + 14 + wireTicks (repWords x))) ||
      (match h.laneTable? lane with
       | some tb => tb.pairs.any (fun p => h.inWindow p.2 0 t && ends (p.2 + 14 + wireTicks 47))
       | none => false) ||
      (match h.flightWindow lane t, h.laneTable? lane with
       | some f, some tb => (match tb.pairs[f.pair]? with
         | some p => ends (p.2 + 14 + (if f.txn.src == .join then h.joinWiden lane else 0) + wireTicks 47)
         | none => false)
       | _, _ => false)

/-- An edge event of a station (R147, R148). -/
def Head.edgeEvent (h : Head) (s : Nat) : Head :=
  let b := h.bellNo
  let h := h.bump (NODE_EDGE s)
  let l := b :: (h.node s).edges
  let recent := l.filter (fun x => bellsSince b x < 1024)
  let warned := (h.node s).edgeWarnAt.any (fun x => bellsSince b x < 1024)
  let h := h.setNode s (fun x => { x with edges := recent.take 16, probEdges := x.probEdges + 1 })
  if recent.length ≥ 16 ∧ !warned then (h.setNode s (fun x => { x with edgeWarnAt := some b })).raise 3 2 s else h

/-- A drift event of a station (R147 to R149): the third within 64 Bells sends it to Detention at the next Bell edge. -/
def Head.driftEvent (h : Head) (s : Nat) : Head :=
  if s = 0 ∨ s > 254 then h
  else
    let b := h.bellNo
    let h := h.bump (NODE_DRIFT s)
    let l := (b :: (h.node s).drifts).filter (fun x => bellsSince b x < 64)
    let st := h.fld (NODE_STAT_STATE s)
    let h := h.joinBell s false true
    h.setNode s (fun x => { x with
      drifts := l.take 3, probDrift := true
      detainPending := x.detainPending || (decide (l.length ≥ 3) && (st == 1 || st == 7) && !h.substitute) })

/-- A frame that failed its CRC inside a station's window (Table 06-6). -/
def Head.crcEvent (h : Head) (s : Nat) : Head :=
  let b := h.bellNo
  let h := h.bump (NODE_CRC s)
  let l := (b :: (h.node s).crcs).filter (fun x => bellsSince b x < 1024)
  if l.length ≥ 8 then (h.setNode s (fun x => { x with crcs := [] })).raise 3 3 s
  else h.setNode s (fun x => { x with crcs := l })

/-- A frame in the window of cyclic slot `x` failed its CRC or its header. -/
def Head.spoil (h : Head) (x : RepSlot) : Head :=
  h.setNode x.station (fun y => if x.lane < 4 then { y with badA := true } else { y with badB := true })

/-- A frame in the window of flight `g` failed its CRC or its header. -/
def Head.spoilFlight (h : Head) (g : Flight) : Head :=
  { h with net := { h.net with flights := h.net.flights.map (fun x => if x = g then { x with damaged := true } else x) } }

/-! ## Reports (R104, R127, R128) -/

/-- The kind of a station's report: 2 servo, 4 stepper, 6 I/O, 8 process. -/
def Head.repKind (h : Head) (s : Nat) : Nat := bits (h.recWord s 0) 11 8

/-- Whole payload of a report slot: in split mode both parts, when both have come. -/
def Head.assemble (h : Head) (x : RepSlot) (ws : List Word) : Head × Option (List Word) :=
  if x.part = 0 ∨ x.limp then (h, some ws)
  else
    let h := h.setNode x.station (fun y => { y with split := (x.lane, ws) :: y.split })
    let part (onA : Bool) : Option (List Word) := ((h.node x.station).split.find? (fun e => decide (e.1 < 4) == onA)).map (·.2)
    match part true, part false with
    | some a, some b => (h, some (a ++ b))
    | _, _ => (h, none)

/-- The release of the station's tasks by a valid report or by a window close (R210). -/
def Head.releaseStation (h : Head) (s : Nat) (valid closing : Bool) : Head :=
  (h.tasksOfStation s).foldl (fun h t => h.releaseTask t valid closing) h

/-- A servo or stepper report acts: flags first (R17), the chopper's window, the position, then the release. -/
def Head.driveReport (h : Head) (s stamp : Nat) (ws : List Word) : Head :=
  let prot := protOf ws
  let h := (h.protReact s prot stamp).chopPeriod s prot (sext 24 (bits (wordAt ws 4) 31 8))
  let pos := sext 48 (bits (pairOf (wordAt ws 2) (wordAt ws 3)) 47 0)
  let h := (h.axesOf s).foldl (fun (h : Head) n =>
    let h := h.setMot n (fun m => { m with valid := true })
    if bit prot 12 ∨ !h.hasEncoder n ∨ h.on (AX_CTL_FB n) then h else h.takePos n pos) h
  h.releaseStation s true false

/-- The protection flags of a servo or stepper report of a station in probation act like any (R17, R110); only the release of its
tasks is withheld (R149). -/
def Head.probationReport (h : Head) (s stamp : Nat) (ws : List Word) : Head :=
  let h := h.setNode s (fun x => { x with probMiss := 0 })
  if h.repKind s = 6 ∨ h.repKind s = 8 then h else h.protReact s (protOf ws) stamp

/-- A stamp in 0.8 ns as a time-stamp of domain 0, truncated to whole ns (R169). -/
def Head.stampUnit (h : Head) (u : Nat) : Nat := stampOf (h.mtOfUnit u / 2 ^ 32) 0

/-- The Machine Time in ns of the shunt sample and encoder latch that a report of this Bell tells of (Table 07-5): the instant of the Bell
in which its period began (R460) + (APPLY + S1) × 5 ns. -/
def Head.sampledAt (h : Head) (s : Nat) : Nat :=
  let apply := bits (h.recWord s 1) 31 16
  let s1 := match h.pairedCmd s h.bellNo with | some ws => bits (wordAt ws 3) 31 16 | none => 0
  (if apply < h.reportAt s then h.bell.instant else h.bell.prevInstant) + 5 * (apply + s1)

/-- A whole valid report of a station is used. -/
def Head.useReport (h : Head) (s u : Nat) (ws : List Word) : Head :=
  let t := unitTick u
  let h := h.setNode s (fun x => { x with
    seenThisBell := true, missRun := 0, report := { payload := ws, bell := h.bellNo, tick := t, valid := true, sampled := h.sampledAt s } })
  let h := h.joinBell s true false
  if h.fld (NODE_STAT_STATE s) = 3 then h.probationReport s (h.stampUnit u) ws
  else
    let k := h.repKind s
    if k = 6 then (h.setNode s (fun x => { x with inputs := ws, stale := false })).releaseStation s true false
    else if k = 8 then (h.releaseStation s true false).processDue s true
    else h.driveReport s (h.stampUnit u) ws

/-- R104: the frame is the report that slot `x` expects in this Bell. -/
def Head.slotMatch (h : Head) (x : RepSlot) (f : Frame) : Bool :=
  fStation f == h.headNo * 256 + x.station && fKind f == x.kind && fLen f == repWords x && fBseq f == h.bellNo % 256 &&
    fSlot f == x.slot && fEpoch f == h.epochIn

/-- Note a matching frame of slot `x`, whose nominal arrival is tick `a`, with its stamp in 0.8 ns (R128, R407): its channel is seen, one
in window counts in the mean of R407 in units of 0.2 ns, LIMP asks for limp. -/
def Head.noteFrame (h : Head) (x : RepSlot) (a : Nat) (f : Frame) (u : Nat) : Head :=
  let s := x.station
  let onA := decide (x.lane < 4)
  let h := h.setNode s (fun y => if onA then { y with seenA := true, missA := 0 } else { y with seenB := true, missB := 0 })
  let d : Int := (u : Int) * 4 - (a : Int) * 25
  let h : Head :=
    if unitTick u < a + 10 then { h with red := { h.red with gridSum := h.red.gridSum + d, gridCnt := h.red.gridCnt + 1 } } else h
  if fLimp f && (h.node s).limp == 0 && h.isDual s && !h.paired then
    h.setNode s (fun y => { y with limpNext := if onA then 1 else 2 })
  else h

/-- A frame in the window of cyclic slot `x` of the Bell of `j` (R104): a mismatch leaves the slot missing, a Recess kind is a header
error (Table 05-14), and a node that is not OK is ignored (R144). -/
def Head.cyclicReport (h j : Head) (x : RepSlot) (r : RxFrame) : Head :=
  let f := r.frame
  if h.fld (NODE_STAT_STATE x.station) = 6 then h
  else if fKind f ≥ 9 then (h.spoil x).bump (LANE_HEADER x.lane)
  else if !j.slotMatch x f then h
  else
    let h := h.noteFrame x (j.instantTick x.arrival) f r.stamp
    if (h.node x.station).seenThisBell then h
    else
      let p := h.assemble x f.payload
      match p.2 with
      | some ws => p.1.useReport x.station r.stamp ws
      | none => p.1

/-! ## A frame on a field lane -/

/-- The tick in which a frame's completion is seen: 7 lane cycles and 2 core cycles, 60 ns, after the last CRC bit, which comes 13 + 4n
code groups after the /S/ began (Table 01-3; Table 01-6 has 65 ticks for a servo report). -/
def rxDone (r : RxFrame) : Nat := ceilDiv (4 * r.stamp + 5 * (164 + 32 * r.frame.payload.length)) 25

/-- The guard interval of arrival `a` (R122). -/
def Head.guarded (h : Head) (a t : Nat) : Bool := decide (h.instantTick a + 10 ≤ t)

/-- A frame stamped in the guard interval of a cyclic slot or of a Recess window is an edge event of its station, whatever comes of the
frame (Table 06-5); the windows are those of the Bell of `j`. -/
def Head.guardEvent (h j : Head) (lane t : Nat) : Head :=
  if !j.bell.running ∨ j.bell.rollcall then h
  else
    match j.flightWindow lane t, j.slotWindow lane t with
    | some g, _ =>
      let late := ((h.laneTable? lane).bind (fun tb => tb.pairs[g.pair]?)).any (fun p => j.guarded p.2 t)
      if late ∧ g.txn.src ≠ .join then h.edgeEvent g.txn.station else h
    | none, some x => if j.guarded x.arrival t ∧ h.fld (NODE_STAT_STATE x.station) ≠ 6 then h.edgeEvent x.station else h
    | none, none => h

/-- Tick `t` lies in no window of the lane. -/
def Head.outside (h : Head) (lane t : Nat) : Bool :=
  (h.flightWindow lane t).isNone && (h.slotWindow lane t).isNone && !h.pairWindow lane t

/-- The kinds of cyclic frames. -/
def cyclicKind (k : Nat) : Bool := decide (1 ≤ k ∧ k ≤ 8)
/-- A frame that can answer a Recess request: a register response, or an upstream Roll Call operation. -/
def answers (f : Frame) : Bool := fUp f && (fKind f == 0xA || fKind f == 0xB)

/-- A frame on a field lane that passed checks 1 to 5, by the windows of the Bell of `j`: Roll Call Bells, Recess windows, cyclic
windows, drift. -/
def Head.fieldFrame (h j : Head) (r : RxFrame) : Head :=
  let lane := r.lane.val
  let f := r.frame
  let t := unitTick r.stamp
  let h := (h.seeEpoch (fEpoch f)).yieldTo (fEpoch f)
  if j.bell.rollcall then (if answers f then h.rcAnswer lane t r.stamp f else h)
  else
    match j.flightWindow lane t, j.slotWindow lane t with
    | some g, _ =>
      if answers f then
        if fEpoch f ≠ h.epochIn ∨ fSlot f ≠ 0xF0 + g.pair then h else h.recessResponse g lane r.stamp f
      else if cyclicKind (fKind f) then (h.spoilFlight g).bump (LANE_HEADER lane)
      else h
    | none, some x => h.cyclicReport j x r
    | none, none =>
      if j.pairWindow lane t then
        (if cyclicKind (fKind f) ∨ (answers f ∧ !h.ticketKnown (bits (wordAt f.payload 0) 23 16)) then h.bump (LANE_HEADER lane) else h)
      else if fUp f then h.driftEvent (fStation f % 256)
      else h

/-- What a station has been seen to send in the Bell in progress stays as it was before a frame of the Bell before came. -/
def Head.keepSeen (h was : Head) (s : Nat) : Head :=
  let n := was.node s
  h.setNode s (fun x => { x with seenThisBell := n.seenThisBell, seenA := n.seenA, seenB := n.seenB, badA := n.badA, badB := n.badB, split := n.split })

/-- A good frame on a field lane: dropped by a full bank (R14), else used. -/
def Head.fieldGood (h j : Head) (r : RxFrame) : Head :=
  let lane := r.lane.val
  if h.banksFull lane then h.overrunLane lane
  else
    let k := (h.bank lane r.frame).fieldFrame j r
    if j.bell.edge = h.bell.edge then k else k.keepSeen h (fStation r.frame % 256)

/-- A frame on a field lane whose check `k` failed (Table 06-6). -/
def Head.fieldBad (h j : Head) (lane t k : Nat) : Head :=
  let h := h.countFault lane k
  if (k = 4 ∨ k = 5) ∧ j.bell.running ∧ !j.bell.rollcall then
    let crc (h : Head) (s : Nat) : Head := if k = 4 then h.crcEvent s else h
    match j.flightWindow lane t, j.slotWindow lane t with
    | some g, _ => crc (h.spoilFlight g) g.txn.station
    | none, some x => if h.fld (NODE_STAT_STATE x.station) = 6 then h else crc (h.spoil x) x.station
    | none, none => h
  else h

/-- A frame that the branch port of a star lane refuses (R93): counted, and outside every window a drift event (R147). -/
def Head.gateRefuse (h j : Head) (r : RxFrame) : Head :=
  let lane := r.lane.val
  let h := (h.bump (LANE_GATE lane)).put (LANE_EVT_GATE lane) 1
  if j.bell.running ∧ !j.bell.rollcall ∧ (frameFault r).isNone ∧ fUp r.frame ∧ j.outside lane (unitTick r.stamp) then
    h.driftEvent (fStation r.frame % 256)
  else h

/-- A frame on a field lane (R102, R93, R14): one with a bad code group or framing reaches no further check (R83). -/
def Head.fieldReceive (h : Head) (r : RxFrame) : Head :=
  let lane := r.lane.val
  let t := unitTick r.stamp
  let j := h.judgeAt t
  if r.badGroup then h.countFault lane 1
  else
    let h := h.guardEvent j lane t
    if h.topo (lane / 4) == 2 && !j.portTakes r then h.gateRefuse j r
    else
      match frameFault r with
      | some k => h.fieldBad j lane t k
      | none => h.fieldGood j r

/-! ## Missing reports (R151, R210) -/

/-- The report of station `s` is missing in this Bell (Table 06-6); it is found so once a Bell. -/
def Head.reportMissing (h : Head) (s : Nat) : Head :=
  let run := (h.node s).missRun + 1
  let h := h.setNode s (fun x => { x with judged := true, missRun := run, report := { x.report with valid := false } })
  if h.fld (NODE_STAT_STATE s) = 3 then h.setNode s (fun x => { x with probMiss := x.probMiss + 1 })
  else
    match h.repKind s with
    | 6 =>
      let h := h.setNode s (fun x => { x with stale := true })
      (if run = 4 then h.raise 3 4 s else h).releaseStation s false true
    | 8 => (h.releaseStation s false true).processDue s false
    | _ =>
      let h := (h.axesOf s).foldl (fun (h : Head) n =>
        let h := h.setMot n (fun m => { m with valid := false })
        if run = 4 then h.faultAxis n 0 else h) h
      h.releaseStation s false true

/-- The window-close instant of an upstream slot (R210): A + 14 + L(REP_LEN) + 12 ticks. -/
def Head.closeTick (h : Head) (x : RepSlot) : Nat :=
  h.instantTick (x.arrival + 14 + wireTicks (repWords x) + 12)

/-- Every window of the station that is in force has closed by now. -/
def Head.windowsClosed (h : Head) (s : Nat) : Bool :=
  (h.repSlotsOf s).all (fun x => !(h.slotInForce s x.lane x.limp) || decide (h.closeTick x ≤ h.now))

/-- RX_WINDOW_CLOSE of an upstream slot (R147, R210): a slot with no used frame is missing; two missing Bells on a channel of
a dual node switch it to limp (R128). -/
def Head.windowClose (h : Head) (lane slot : Nat) : Head :=
  match h.content?.bind (fun c => c.repSlots.find? (fun x => x.lane == lane && x.slot == slot)) with
  | none => h
  | some x =>
    let s := x.station
    if !h.bell.running ∨ h.bell.rollcall ∨ !(h.slotInForce s lane x.limp) ∨ h.fld (NODE_STAT_STATE s) = 6 then h
    else
      let h := h.forward (h.closeTick x)
      let n := h.node s
      let seen := if lane < 4 then n.seenA else n.seenB
      let dead := h.dualMode s = 3 ∧ n.limp ≠ 0 ∧ lane / 4 + 1 ≠ n.limp
      let h : Head := if seen ∨ dead then h
        else
          let bad := if lane < 4 then n.badA else n.badB
          let h := (if bad then h else h.bump (NODE_MISS s)).setNode s (fun y => if lane < 4 then { y with missA := y.missA + 1 } else { y with missB := y.missB + 1 })
          let run := if lane < 4 then (h.node s).missA else (h.node s).missB
          if run ≥ 2 ∧ n.limp = 0 ∧ h.otherChannel s lane then
            h.setNode s (fun y => { y with limpNext := if lane < 4 then 2 else 1 })
          else h
      if !n.seenThisBell ∧ !n.judged ∧ h.windowsClosed s then h.reportMissing s else h

/-- A dual node's limp at a Bell edge (R128). -/
def Head.limpEdge (h : Head) (s : Nat) : Head :=
  let n := h.node s
  if n.limpNext = 0 ∨ n.limp ≠ 0 ∨ n.slotsOut then h.setNode s (fun x => { x with limpNext := 0 })
  else
    let h := (h.privFlag 27).setNode s (fun x => { x with limp := x.limpNext, limpNext := 0, rejoin := true, missA := 0, missB := 0 })
    if h.fld (NODE_STAT_STATE s) = 1 then h.put (NODE_STAT_STATE s) 7 else h

/-- What a station's node clears for a new Bell. -/
def Head.nodeBell (h : Head) (s : Nat) : Head :=
  h.setNode s (fun x => { x with seenThisBell := false, seenA := false, seenB := false, badA := false, badB := false, judged := false, split := [] })

end Sys2Proof.Machine
end

