-- ==== Sys2Proof/Machine/Redund.lean ====
section
/-! DEFINITION. Redundant heads (chapter 17): heartbeats, cold start, failure of the partner, takeover, yielding and handoff,
the health word, the mirror records. -/

namespace Sys2Proof.Machine

def Head.setRed (h : Head) (f : Red → Red) : Head := { h with red := f h.red }

/-- Ticks of a period of 125 µs. -/
def period125 : Nat := 25000

def Head.redState (h : Head) : Nat := h.fld RED_STAT_STATE
def Head.partnerState (h : Head) : Nat := h.fld RED_STAT_P_STATE
def Head.role (h : Head) : Nat := h.fld RED_STAT_ROLE
/-- The active head of a pair. -/
def Head.activePair (h : Head) : Bool := h.paired && h.role == 1

/-! ## Health (Table 17-3, R407) -/

/-- Every REQUIRED station is joined on the own side; at the active head, in cyclic operation. -/
def Head.allJoined (h : Head) : Bool :=
  (h.fieldLanes.flatMap (fun l => h.positionsOf l)).all (fun p => !p.required ||
    (if h.substitute then (h.joinRun p.station).joined
     else h.fld (NODE_STAT_STATE p.station) == 1 || h.fld (NODE_STAT_STATE p.station) == 7))

/-- The rotated mirror items: TYPE, index, group. -/
def Head.mirrorItems (h : Head) : List (Nat × Nat × Nat) :=
  match h.content? with
  | some c => c.mirror.map (fun x => (x / 256 % 256, x % 256, x / 65536))
  | none => []

/-- MIRROR_DIV, at least 1. -/
def Head.mirrorDiv (h : Head) : Nat := max 1 (h.fld RED_CFG_MIRROR_DIV)

/-- The own health word. -/
def Head.healthWord (h : Head) : Nat :=
  let b := h.bellNo
  let safe := h.rd SAFE_SIG == h.rd SAFE_RECIPE_SIG && h.rd SAFE_SIG != 0 && !h.on SAFE_STATUS_ISL_FAULT
  let grid := decide (h.red.grid.length ≥ 256) && decide ((h.rdInt RED_GRID).natAbs ≤ 256)
  let fresh := h.mirrorItems.all (fun x => h.red.fresh.any (fun e => e.1 == x.1 * 256 + x.2.1 && decide (bellsSince b e.2 ≤ 2 * h.mirrorDiv)))
  let shadow := !(h.red.lastDiverge.any (fun x => decide (bellsSince b x < 1024)))
  b2n h.red.identOk + b2n safe * 2 + b2n (h.fieldLanes.all (fun l => h.laneUp l)) * 4 + b2n h.allJoined * 8 + b2n grid * 16 +
    b2n fresh * 32 + b2n shadow * 64 + b2n (h.fld TIME_MT_STAT_STATE == 2) * 128 + b2n h.red.heardLLPrev * 256 +
    b2n h.red.heardPinPrev * 512 + min 255 (h.fld SCHED_LOAD_TOTAL / 100) * 2 ^ 24

/-- The Substitute is READY while bits 0 to 7 of its health word are set (R407). -/
def Head.readyCheck (h : Head) : Head :=
  let ok := h.rd RED_HEALTH % 256 == 255
  if !h.substitute then h
  else if ok ∧ h.redState = 4 then (h.put RED_STAT_STATE 5).redEvent 4
  else if !ok ∧ h.redState = 5 then (h.put RED_STAT_STATE 4).redEvent 3
  else h

/-- A Bell's mean of (stamp − nominal arrival), and the mean over the last 256 Bells, in 1/256 tick (R407). -/
def Head.gridBell (h : Head) : Head :=
  if !h.substitute then h.setRed (fun r => { r with gridSum := 0, gridCnt := 0 })
  else if h.red.gridCnt = 0 then h
  else
    let m := divEven (h.red.gridSum * 256) (25 * h.red.gridCnt)
    let g := (m :: h.red.grid).take 256
    (h.setRed (fun r => { r with grid := g, gridSum := 0, gridCnt := 0 })).wrInt RED_GRID (divEven (g.foldl (· + ·) 0) g.length)

/-- The health of a Bell: GRID, the own word, READY or STANDBY. -/
def Head.healthBell (h : Head) : Head :=
  if !h.paired then h
  else
    let h := h.gridBell
    (h.wr RED_HEALTH h.healthWord).readyCheck

/-! ## Heartbeat (R400, R401) -/

/-- HEARTBEAT_SEND: in a Bell at HB_T, before any Bell at the next period of 125 µs with a change of HBT_OUT and the health word as it stands. -/
def Head.heartbeatSend (h : Head) : Head :=
  if !h.paired then h
  else
    let h : Head :=
      if h.bell.running then
        h.forward (h.instantTick (if h.bell.rollcall then 32 else (h.content?.map (·.hbT)).getD 32))
      else
        let h := h.forward ((h.now / period125 + 1) * period125)
        { h with pins := { h.pins with hbtOut := !h.pins.hbtOut } }.wr RED_HEALTH h.healthWord
    h.sendLine 0xC true [
      BitVec.ofNat 32 (h.ownEpoch * 65536 + h.ring * 256 + h.role * 16 + h.redState), BitVec.ofNat 32 h.bellNo,
      BitVec.ofNat 32 (h.rd RED_HEALTH)]

/-- HEARTBEAT_RECEIVE: a partner heartbeat that passed checks 1 to 5, completed in tick `t` (R401, R402, R411, R412). -/
def Head.heartbeatTake (h : Head) (f : Frame) (t : Nat) : Head :=
  let w0 := wordAt f.payload 0
  let e := bits w0 31 16
  let st := bits w0 3 0
  let ring := bits w0 15 8
  if !h.paired ∨ ring ≠ h.partnerRing then h
  else
    let due := h.instantTick (h.fld RED_HB_DUE_HB_DUE)
    let heard := !h.bell.running || (decide (t ≤ due) && fBseq f == h.bellNo % 256)
    let h := ((h.put RED_STAT_P_STATE st).activeEpoch e).wr RED_PHEALTH (wordAt f.payload 2)
    let h := h.setRed (fun r => { r with heardLL := r.heardLL || heard, lastBeat := f.payload })
    let was := h.ownEpoch
    let h := h.seeEpoch e
    if h.redState = 2 then (if st = 2 then h.setRed (fun r => { r with claimRival := some (e, ring) }) else h)
    else if h.activePair ∧ st = 3 ∧ (epochNewer e was ∨ (e = was ∧ ring > h.ring)) then h.setRed (fun r => { r with yieldAtEdge := true })
    else if st = 7 ∧ h.substitute ∧ h.redState = 5 then h.setRed (fun r => { r with claimAtEdge := true })
    else h

/-- HBT_IN: a level change stamped in tick `t` counts for the Bell whose window from tick −100 to HB_DUE holds it; its event belongs
to the tick two later (R15). -/
def Head.hbtIn (h : Head) (t : Nat) : Head :=
  let h := h.forward (t + 2)
  if !h.bell.running ∨ t ≤ h.instantTick (h.fld RED_HB_DUE_HB_DUE) then h.setRed (fun r => { r with heardPin := true })
  else if t + 100 ≥ h.instantTick (if h.bell.rollcall then 25000 else h.bellTicks) then h.setRed (fun r => { r with pinEarly := true })
  else h

/-- HB_PATH for a silent path (0 line link, 1 pin), at most once per 1,024 Bells. -/
def Head.pathEvent (h : Head) (idx : Nat) : Head :=
  let last := if idx = 0 then h.red.quietLL else h.red.quietPin
  if last.any (fun b => bellsSince h.bellNo b < 1024) then h
  else
    let h := h.setRed (fun r => if idx = 0 then { r with quietLL := some h.bellNo } else { r with quietPin := some h.bellNo })
    h.raise 10 8 idx

/-- The partner is declared failed: a READY Substitute claims at the next edge, one in STANDBY waits 32 ms (R410). -/
def Head.partnerFailed (h : Head) : Head :=
  let h := h.privFlag 24
  if !h.substitute ∨ h.red.lostUntil.isSome then h
  else if h.redState = 5 then h.setRed (fun r => { r with claimAtEdge := true })
  else (h.redEvent 1).setRed (fun r => { r with lostUntil := some (h.now + 6400000) })

/-- HB_DUE_CHECK at tick HB_DUE of the Bell, once a Bell. -/
def Head.hbDueCheck (h : Head) : Head :=
  if !h.paired ∨ !h.bell.running ∨ h.red.checkedBell = some h.bellNo then h
  else
    let h := h.forward (h.instantTick (h.fld RED_HB_DUE_HB_DUE))
    let r := h.red
    let h := h.setRed (fun r => { r with checkedBell := some h.bellNo })
    let h := if r.heardLL then h else h.bump RED_MISS_LL
    let h := if r.heardPin then h else h.bump RED_MISS_HBT
    let h := if r.heardLL ∧ !r.heardPin then h.pathEvent 1 else if r.heardPin ∧ !r.heardLL then h.pathEvent 0 else h
    if r.heardLL ∨ r.heardPin ∨ r.heardLLPrev ∨ r.heardPinPrev then h else h.partnerFailed

/-- What was heard in the Bell that ends becomes that of the Bell before. -/
def Head.heardBell (h : Head) : Head :=
  h.setRed (fun r => { r with heardLLPrev := r.heardLL, heardPinPrev := r.heardPin, heardLL := false, heardPin := r.pinEarly, pinEarly := false })

/-! ## Cold start (R402) -/

/-- A loaded paired recipe: listening, 32 ms with ROLE 0 and 64 ms with ROLE 1. -/
def Head.listen (h : Head) : Head :=
  ((h.put RED_STAT_STATE 1).put SYS_STATUS_STATE 3).setRed (fun r => { r with listenUntil := some (h.now + (if h.on SYS_STRAP_ROLE then 12800000 else 6400000)) })

/-- The head becomes a Substitute in STANDBY. -/
def Head.becomeSubstitute (h : Head) : Head :=
  (((h.put RED_STAT_ROLE 2).put RED_STAT_STATE 4).put SYS_STATUS_STATE 4).setRed (fun r => { r with
    join := [], latches := [], waiting := [], inbox := [], fresh := [], grid := [], claimAtEdge := false, yieldAtEdge := false
    handoffBell := none, lostUntil := none, identOk := false })

/-- Claim an epoch and send heartbeats in CLAIM for 8 periods; no Bell runs until the Roll Call of the winner. -/
def Head.startClaim (h : Head) : Head :=
  let h : Head := { h with bell := { h.bell with running := false } }
  (((h.claimEpoch.put RED_STAT_STATE 2).put RED_STAT_ROLE 0).put SYS_STATUS_STATE 3).setRed (fun r => { r with
    listenUntil := none, backoffUntil := none, lostUntil := none, claimRival := none, claimUntil := some (h.now + 8 * period125) })

/-- Steps 1 and 2: a partner in RUN makes the head a Substitute, otherwise it claims. -/
def Head.coldStep (h : Head) : Head :=
  let h := h.setRed (fun r => { r with listenUntil := none, backoffUntil := none })
  if h.partnerState = 3 ∨ h.partnerState = 7 then h.becomeSubstitute else h.startClaim

/-- LISTEN_END. -/
def Head.listenEnd (h : Head) : Head :=
  match h.red.listenUntil with
  | some t => (h.forward t).coldStep
  | none => h

/-- CLAIM_END: the newer epoch wins, with equal epochs the higher ring number; the loser backs off 1 to 8 Bells. -/
def Head.claimEnd (h : Head) : Head :=
  match h.red.claimUntil with
  | none => h
  | some t =>
    let h := (h.forward t).privFlag 24
    let lost := h.red.claimRival.any (fun r => epochNewer r.1 h.ownEpoch || (r.1 == h.ownEpoch && decide (r.2 > h.ring)))
    let h := h.setRed (fun r => { r with claimUntil := none })
    if lost then
      let n := 1 + (Config.freeBackoff h.draws).toNat % 8
      (h.draw.put RED_STAT_STATE 6).setRed (fun r => { r with backoffUntil := some (h.now + n * h.bellTicks) })
    else ((h.put RED_STAT_ROLE 1).put RED_STAT_STATE 3).rollCallStart

/-- BACKOFF_END. -/
def Head.backoffEnd (h : Head) : Head :=
  match h.red.backoffUntil with
  | some t => (h.forward t).coldStep
  | none => h

/-- PARTNER_LOST: 32 ms after the declaration a Substitute in STANDBY claims as at cold start. -/
def Head.partnerLost (h : Head) : Head :=
  match h.red.lostUntil with
  | some t => (h.forward t).startClaim
  | none => h

/-! ## Takeover, yield, handoff (R410 to R412) -/

/-- REF_MODE, the candidate, O and STATE of the latest TIME_STATE, taken at a takeover (R167, Table 07-6); I stays the head's own, and a
handover under way is done again. -/
def Head.takeTimeState (h : Head) : Head :=
  match h.red.timeState with
  | w :: ws =>
    let o := sext 64 (pairOf (wordAt ws 0) (wordAt ws 1))
    let w := w.toNat
    let h := ((h.put TIME_MT_CTL_REF_MODE (bits w 17 16)).put TIME_MT_STAT_CAND (bits w 15 8)).put TIME_MT_STAT_REF (bits w 7 0)
    let h := h.put TIME_MT_STAT_STATE (bits (wordAt ws 4) 31 28)
    (h.setSteer (fun s => { s with offset := o, lostRun := 0, keptRun := 0, handover := [], moved := false })).showOffset
  | [] => h

/-- A takeover finds station `s`: its edge and drift counts begin afresh, and one that this head does not hold in cyclic operation, for
which it must be joined on this side, is taken through step 2 of R149 again (R410, Table 06-7). -/
def Head.takeStation (h : Head) (s : Nat) : Head :=
  let h := h.setNode s (fun x => { x with drifts := [], edges := [], edgeWarnAt := none })
  let st := h.fld (NODE_STAT_STATE s)
  if (st = 1 ∨ st = 7) ∧ (h.joinRun s).joined then h
  else ((h.setNode s (fun x => { x with slotsOut := true })).put (NODE_STAT_STATE s) (if st = 5 then 5 else 2)).resyncEchoes s false

/-- The claim event of a READY Substitute, ahead of the Bell edge (R410); a catch starts its 64 Bells again (Table 10-8). -/
def Head.takeover (h : Head) (stamp : Nat) : Head :=
  let h := h.claimEpoch
  let h := ((h.put RED_STAT_ROLE 1).put RED_STAT_STATE 3).setRed (fun r => { r with claimAtEdge := false, lostUntil := none })
  let h := h.takeTimeState
  let h := (h.bump RED_TAKEOVERS).wrPair RED_TK_NS stamp
  let h := h.recipeTasks.foldl (fun (h : Head) t => h.put (SCHED_TSTAT_CONSEC t) 0) h
  let h := h.stations.foldl (fun h s => h.takeStation s) (h.privFlag 24)
  let h := h.allAxes.foldl (fun (h : Head) n => if h.fld (AX_STAT_STATE n) = 3 then h.setXWords n [(42, 0), (44, 0)] else h) h
  let h := (List.range 32).foldl (fun (h : Head) i => h.endTune i 5 true) h
  h.redEvent 0

/-- What an active head had under way on its side ends: Roll Call, the transactions of Recess, the resynchronisations. -/
def Head.leaveSide (h : Head) : Head :=
  let h := h.rcFreeTickets.recessAbort
  let h := h.setRc (fun r => { r with active := false, requested := false, byRequest := false, restartAt := none })
  let h : Head := { h with bell := { h.bell with rollcall := false, firstCyclic := none } }
  h.stations.foldl (fun (h : Head) s => h.setNode s (fun x => { x with
    resync := .none, rejoin := false, detainPending := false, configLeft := [] })) h

/-- An active head yields at a Bell edge (R411). -/
def Head.yieldNow (h : Head) : Head := (h.leaveSide.becomeSubstitute.privFlag 24).redEvent 2

/-- The pair's events at a Bell edge, at rank 3, ahead of the edge; `stamp` is that of the edge. -/
def Head.pairEdge (h : Head) (stamp : Nat) : Head :=
  if !h.paired then h
  else
    let h := if h.red.claimAtEdge ∧ h.substitute then h.takeover stamp else h
    if h.red.yieldAtEdge ∧ h.activePair then h.yieldNow
    else match h.red.handoffBell with
      | some b =>
        if !h.activePair then h.setRed (fun r => { r with handoffBell := none })
        else if h.bellNo = b then h.put RED_STAT_STATE 7
        else if bellReached h.bellNo b then h.yieldNow else h
      | none => h

/-- HANDOFF (R412): accepted only while active with a READY partner. -/
def Head.writeRedCtl (h : Head) (v : Nat) : Head × Nat :=
  if !bit v 0 then (h, 0)
  else if !h.activePair ∨ h.partnerState ≠ 5 then (h, 6)
  else ((h.setRed (fun r => { r with handoffBell := some (bellAfter h.bellNo 1) })).redEvent 7, 0)

/-! ## Mirror records (R408, R409, Table 17-4)

The layout of a record's content after the BSEQ word is the model's (notes/assumptions/42.md): the Δ-corrected values, then the
replaced ones, each as two words. -/

def longWords (x : Int) : List Word := let n := toBits 64 x; [BitVec.ofNat 32 n, BitVec.ofNat 32 (n / 2 ^ 32)]

/-- The long values of a record's words. -/
def longsOf : List Word → List Int
  | a :: b :: t => sext 64 (pairOf a.toNat b.toNat) :: longsOf t
  | _ => []

/-- The value of an X word pair or single of the current task's window. -/
def Head.xLong (h : Head) (n i : Nat) : Int :=
  match h.currentTask n with
  | some t =>
    let g := h.engine (h.taskHome t)
    let b := bits (h.desc t 5) 31 16
    (g.xRam.get zero24 (b + i)).toInt * 2 ^ 24 + (g.xRam.get zero24 (b + i + 1)).toNat
  | none => 0
def Head.setXLong (h : Head) (n i : Nat) (v : Int) : Head :=
  let x := toBits 48 v
  h.setXWords n [(i, BitVec.ofNat 24 (x / 2 ^ 24)), (i + 1, BitVec.ofNat 24 x)]

/-- The values that Table 17-4 calls Δ-corrected, of one item. -/
def Head.deltaVals (h : Head) (typ i : Nat) : List Int :=
  match typ with
  | 5 =>
    let m := h.mot i
    [h.xLong i 11, h.xLong i 13, m.integ, m.pRef, m.v, m.ramp.r, m.wf, m.pm, m.vm, m.yPrev]
  | 7 => let x := h.vm i; [x.m, x.v, x.a]
  | 8 => let f := h.fol i; [f.phi, (f.kappa : Int), f.pend]
  | 9 => let x := h.loop i; x.e ++ x.u ++ [x.spAct, x.ym]
  | _ => []

/-- Take corrected values. -/
def Head.putDeltas (h : Head) (typ i : Nat) (v : List Int) : Head :=
  let g (k : Nat) : Int := v.getD k 0
  match typ with
  | 5 =>
    let h := (h.setXLong i 11 (g 0)).setXLong i 13 (g 1)
    h.setMot i (fun m => { m with
      integ := g 2, pRef := wrapPos (h.rd (AX_MODULO i)) (g 3), v := g 4, ramp := { m.ramp with r := g 5 }, wf := g 6, pm := g 7, vm := g 8
      yPrev := g 9 })
  | 7 => h.setVm i (fun x => { x with
      m := g 0 % h.mcyc i, v := satInt 32 (g 1), a := satInt 32 (g 2)
      ramp := if g 1 = x.v then x.ramp else { x.ramp with r := satInt 32 (g 1) * 256, acc := g 2 * 256 } })
  | 8 => h.setFol i (fun f => { f with phi := g 0, kappa := (g 1).toNat, pend := g 2 })
  | 9 => h.setLoop i (fun x => { x with e := v.take 4, u := (v.drop 4).take 4, spAct := g 8, ym := g 9 })
  | _ => h

/-- The replaced values of an item. -/
def Head.plainVals (h : Head) (typ i : Nat) : List Nat :=
  match typ with
  | 1 => let s := h.red.sync.getD (0, 0, 0); [s.1, h.bellTicks, h.ownEpoch]
  | 2 => [h.rd BOOT_RECIPE_ID, h.rd BOOT_RECIPE_VER, (h.boot.recipe.map (·.netSig.toNat)).getD 0, h.rd SAFE_RECIPE_SIG]
  | 3 => [h.fld (NODE_STAT_STATE i), if h.side = 0 then h.fld (NODE_DELAY_DELAY_A i) else h.fld (NODE_DELAY_DELAY_B i), h.fld (NODE_STAT_RESULT i)]
  | 4 => [h.rd (AX_CTL i) % 16, h.rd (AX_FAULT i), h.rd (AX_MFAULT i), h.rd (AX_STAT i), h.rd (AX_MSTAT i), (h.axis i).catches.length]
  | 7 => let x := h.vm i
         [b2n x.running, x.dec, h.fld (VM_STAT_STATE i), b2n x.stopAt.isSome, toBits 32 (if x.running then h.rdInt (VM_SPD_REF i) else 0)]
  | 8 => let f := h.fol i
         [h.fld (AX_FOL_STAT_CLU i), (f.cam.map (· + 1)).getD 0, (f.pendCam.map (· + 1)).getD 0, h.fld (AX_REG_STAT_MISS i)]
  | 9 => let x := h.loop i; [h.fld (PL_MODE_MODE i), (x.tune.map (·.phase)).getD 0, x.delayAt]
  | 0xA => let x := h.group i
           [h.rd (DCB_STAT i), x.missing, x.window.length] ++ x.window.flatMap (fun w => [w.1, b2n w.2.1, toBits 64 w.2.2])
  | 0xB => [h.rd MST_STAT, h.rd MST_TIMER, h.rd MST_FLAGS, h.rd MST_REQ]
  | _ => []

/-- The control state of an axis from the active head. -/
def Head.putAxisControl (h : Head) (i : Nat) (g : Nat → Nat) : Head :=
  let h := (((h.wr (AX_CTL i) (g 0)).wr (AX_FAULT i) (g 1)).wr (AX_MFAULT i) (g 2)).wr (AX_STAT i) (g 3)
  (h.wr (AX_MSTAT i) (g 4)).setAxis i (fun x => { x with catches := (x.catches ++ List.replicate (g 5) h.mtNs).take (g 5) })

/-- A window of the chopper from its mirrored figures. -/
def windowOf : List Nat → List (Nat × Bool × Int)
  | a :: b :: c :: t => (a, b == 1, sext 64 c) :: windowOf t
  | _ => []

/-- Take replaced values. -/
def Head.putPlains (h : Head) (typ i : Nat) (l : List Nat) : Head :=
  let g (k : Nat) : Nat := nth l k
  match typ with
  | 3 =>
    let h := (h.put (NODE_STAT_STATE i) (g 0)).put (NODE_STAT_RESULT i) (g 2)
    if h.side = 0 then h.put (NODE_DELAY_DELAY_B i) (g 1) else h.put (NODE_DELAY_DELAY_A i) (g 1)
  | 4 => h.putAxisControl i g
  | 7 =>
    let h := if g 0 = 1 then h.wr (VM_SPD_REF i) (g 4 % 2 ^ 32) else h
    (h.put (VM_STAT_STATE i) (g 2)).setVm i (fun x => { x with
      running := g 0 = 1, dec := g 1, stopAt := if g 3 = 1 then x.stopAt else none })
  | 8 =>
    ((h.put (AX_FOL_STAT_CLU i) (g 0)).put (AX_REG_STAT_MISS i) (g 3)).setFol i (fun f => { f with
      cam := if g 1 = 0 then none else some (g 1 - 1), pendCam := if g 2 = 0 then none else some (g 2 - 1) })
  | 9 =>
    let was := h.plMode i
    (h.put (PL_MODE_MODE i) (g 0)).setLoop i (fun x => { x with
      delayAt := g 2 % 64
      tune := if g 1 = 0 then none
        else some { x.tune.getD (Tune.start (g 1) h.bellNo (if was = 2 then 2 else 1)) with phase := g 1 } })
  | 0xA => (h.wr (DCB_STAT i) (g 0)).setGroup i (fun x => { x with missing := g 1, window := windowOf (l.drop 3) })
  | 0xB =>
    let h : Head := { h with mst := { h.mst with firstPass := false } }
    (((h.wr MST_STAT (g 0)).wr MST_TIMER (g 1)).wr MST_FLAGS (g 2)).wr MST_REQ (g 3)
  | _ => h

/-- The words of an item's record sampled now. -/
def Head.itemWords (h : Head) (typ i : Nat) : List Word :=
  BitVec.ofNat 32 (h.bellNo % 256) :: (h.deltaVals typ i).flatMap longWords ++ (h.plainVals typ i).flatMap (fun x => longWords (x : Int))

/-- The words of one entry of AX_QUEUE: 0 the frame that clears the copy, 1 the running entry, 2 one that waits, 3 the remainder. `left` is
the signed distance left and `r` the entry's target on the axis. -/
def Head.queueWords (h : Head) (n place : Nat) (e : MoveEntry) (r left : Int) : List Word :=
  BitVec.ofNat 32 (h.bellNo % 256) ::
    [(place : Int), (b2n e.ready.isSome : Int), (e.id : Int), (e.typ : Int), (e.dirm : Int), (b2n e.blend : Int), e.target, e.vel, (e.acc : Int),
      (e.dec : Int), (h.fld (AX_MSTAT_MV_ID n) : Int), r, left].flatMap longWords

/-- AX_QUEUE of axis `i`: one frame that clears the copy and says whether an entry runs, then one per entry. -/
def Head.sendQueue (h : Head) (i : Nat) : Head :=
  let m := h.mot i
  let parts := (m.run.map (fun r => h.queueWords i 1 r.entry r.target r.left)).toList ++
    m.queue.map (fun e => h.queueWords i 2 e 0 0) ++ (m.remain.map (fun r => h.queueWords i 3 r.entry r.target r.left)).toList
  let first := h.queueWords i 0 ⟨0, 0, 0, false, 0, 0, 0, 0, none⟩ (b2n m.run.isSome) 0
  (first :: parts).foldl (fun (h : Head) ws => h.sendMirror 6 i true ws) h

/-- MIRROR_SEND: the record of an item. A rotated item goes with its sample of the last sample Bell; AX_QUEUE goes with one
frame per entry, the remainder last; WRITE and RELOAD send what waits. -/
def Head.mirrorSend (h : Head) (typ i : Nat) : Head :=
  if !h.activePair then h
  else
    match typ with
    | 6 => h.sendQueue i
    | 0xC =>
      match h.red.writesOut with
      | w :: ws =>
        (h.setRed (fun r => { r with writesOut := ws })).sendMirror 0xC i true [BitVec.ofNat 32 w.2.2, BitVec.ofNat 32 w.1, w.2.1]
      | [] => h
    | 0xD =>
      match h.red.reloadOut with
      | some (slot, b) => (h.setRed (fun r => { r with reloadOut := none })).sendMirror 0xD 0 true [BitVec.ofNat 32 b, BitVec.ofNat 32 slot]
      | none => h
    | _ =>
      match h.red.waiting.find? (fun r => r.typ == typ && r.index == i) with
      | some r => (h.setRed (fun x => { x with waiting := x.waiting.erase r })).sendMirror typ i true r.words
      | none => h.sendMirror typ i true (h.itemWords typ i)

/-- The rotated items whose group comes in this Bell. -/
def Head.groupItems (h : Head) : List (Nat × Nat) :=
  (h.mirrorItems.filter (fun x => h.bellNo % h.mirrorDiv == x.2.2 % h.mirrorDiv)).map (fun x => (x.1, x.2.1))

/-- At a Bell edge both heads sample the items of the Bell's group: the active one into records, the Substitute as latches. -/
def Head.mirrorSample (h : Head) : Head :=
  if !h.paired then h
  else
    let h := if h.bellNo % 256 = 0 then h.setRed (fun r => { r with sync := some (h.bell.instant, h.bellNo, 0) }) else h
    h.groupItems.foldl (fun (h : Head) x =>
      let h := h.privFlag 25
      let rec_ : MirrorRec := ⟨x.1, x.2, h.bellNo % 256, h.itemWords x.1 x.2⟩
      let rest (l : List MirrorRec) : List MirrorRec := l.filter (fun r => !(r.typ == x.1 && r.index == x.2))
      h.setRed (fun r => if h.substitute then { r with latches := rest r.latches ++ [rec_] } else { r with waiting := rest r.waiting ++ [rec_] })) h

/-- Align the Bell grid of a Substitute with a BELL_SYNC record: the instant of a Bell with BSEQ 0, the Bell length, the epoch. -/
def Head.alignGrid (h : Head) (inst bt epoch : Nat) : Head :=
  let len := 5 * max 1 bt
  let now := h.mtNs
  let k := (now - inst) / len
  let b0 := wordAt h.red.lastBeat 1
  let n := ((b0 : Int) + sext 8 (toBits 8 ((k : Int) - b0))).toNat
  let at_ := inst + k * len
  let h := (h.activeEpoch epoch).seeEpoch epoch
  { h with bell := { h.bell with running := true, rollcall := false, instant := at_, edge := h.time.mt.tickOf (at_ * 2 ^ 32) } }.wr TIME_BELL_CNT n

/-- IDENT: the partner runs the same recipe and set (Table 17-3). -/
def Head.identify (h : Head) (l : List Nat) : Head :=
  let ok := l == h.plainVals 2 0
  let h := if ok then h else h.redEvent 5
  h.setRed (fun r => { r with identOk := ok })

/-- RELOAD: the same slot is loaded, and the gates-off edge is the one after the acceptance Bell `b`, or the next for a record that came
after it (R73, R414). -/
def Head.mirrorReload (h : Head) (slot b : Nat) : Head :=
  let h := if bellReached h.bellNo (bellAfter b 1) then h.bump RED_LATE else h
  let h : Head := { h with boot := { h.boot with reload := .accepted slot (h.fld BOOT_STATUS_SLOT) } }
  (((h.put BOOT_RELOAD_SLOT slot).put BOOT_RELOAD_BUSY 1).put MST_STAT_RUN 0).put SYS_STATUS_STATE 5

/-- MIRROR_RECEIVE: a record of TYPE 0x01 to 0x3F or TIME_STATE at a Substitute. -/
def Head.mirrorTake (h : Head) (f : Frame) : Head :=
  let w0 := wordAt f.payload 0
  let typ := bits w0 31 24
  let i := bits w0 23 16
  let ws := f.payload.drop 1
  if typ = 2 ∧ h.paired then h.identify ((longsOf (ws.drop 1)).map (·.toNat))
  else if !h.substitute then h
  else if typ = 0x50 then h.setRed (fun r => { r with timeState := ws })
  else
    let l := (longsOf (ws.drop 1)).map (·.toNat)
    let key := typ * 256 + i
    let h := h.setRed (fun r => { r with fresh := (key, h.bellNo) :: r.fresh.filter (fun e => e.1 != key) })
    if typ = 1 then h.alignGrid (nth l 0) (nth l 1) (nth l 2)
    else if typ = 0xD then h.mirrorReload (wordAt ws 1 % 16) (wordAt ws 0)
    else h.setRed (fun r => { r with inbox := r.inbox ++ [⟨typ, i, wordAt ws 0, ws.drop 1⟩] })

/-- The move queue of a Substitute's axis from one frame of AX_QUEUE. -/
def Head.putQueue (h : Head) (n : Nat) (v : List Int) : Head :=
  let g (k : Nat) : Int := v.getD k 0
  let e : MoveEntry := { id := (g 2).toNat, typ := (g 3).toNat, dirm := (g 4).toNat, blend := g 5 = 1, target := g 6, vel := g 7
                         acc := (g 8).toNat, dec := (g 9).toNat, ready := if g 1 = 1 then some h.bellNo else none }
  let run : MoveRun := { entry := e, target := g 11, left := g 12, vend := none, braking := false, halt := none }
  let h := h.put (AX_MSTAT_MV_ID n) (g 10).toNat
  h.setMot n (fun m =>
    if g 0 = 0 then { m with queue := [], remain := none, run := if g 11 = 0 then none else m.run }
    else if g 0 = 1 then { m with run := if m.run.any (fun r => r.entry.id == e.id) then m.run else some run }
    else if g 0 = 2 then { m with queue := m.queue ++ [e] }
    else { m with remain := some run })

/-- A record that is not rotated came after its effective edge, the one after its sample Bell (R409). -/
def Head.recordLate (h : Head) (r : MirrorRec) : Head :=
  if 1 < (h.bellNo + 256 - r.bseq % 256) % 256 then h.bump RED_LATE else h

/-- A WRITE at its effective edge: a parameter by way of its shadow; a command that acts at its commit acts here (R406). -/
def Head.mirrorWrite (h : Head) (a v : Nat) : Head :=
  if a = SCHED_FLAG_SET then (bitsSet 8 (bits v 23 16)).foldl (fun (h : Head) k => h.setFlag (v % 1024) (8 + k)) h
  else if a = MST_FORCE then (if bit v 6 then { h with mst := { h.mst with force := some (v % 64) } } else h)
  else h.shadow a v

/-- One record applied at a Bell edge (R409): every Δ-corrected value X becomes X_mirror + (X_now − X_latched), and a correction of more than
1 LSB is a divergence. -/
def Head.mirrorApply (h : Head) (r : MirrorRec) : Head :=
  let v := longsOf r.words
  if r.typ = 0xC then
    let h := if r.bseq ≠ h.bellNo ∧ bellReached h.bellNo r.bseq then h.bump RED_LATE else h
    h.mirrorWrite (wordAt r.words 0) (wordAt r.words 1)
  else if r.typ = 6 then (h.recordLate r).putQueue r.index v
  else
    let n := (h.deltaVals r.typ r.index).length
    let mir := v.take n
    let now := h.deltaVals r.typ r.index
    let h := h.putPlains r.typ r.index ((v.drop n).map (·.toNat))
    match h.red.latches.find? (fun l => l.typ == r.typ && l.index == r.index) with
    | some l =>
      let late := l.bseq ≠ r.bseq % 256
      let old := if late then now else (longsOf (l.words.drop 1)).take n
      let new := (List.range n).map (fun k => mir.getD k 0 + (now.getD k 0 - old.getD k 0))
      let far := (List.range n).any (fun k => decide ((mir.getD k 0 - old.getD k 0).natAbs > 1))
      let h := if late then h.bump RED_LATE else h
      (if far ∧ !late then h.diverge else h).putDeltas r.typ r.index new
    | none => if n = 0 then h.recordLate r else h.putDeltas r.typ r.index mir

/-- The records that wait act at a Bell edge; a WRITE waits for its Bell. -/
def Head.mirrorEdge (h : Head) : Head :=
  let due := h.red.inbox.filter (fun r => r.typ != 0xC || bellReached h.bellNo r.bseq)
  let rest := h.red.inbox.filter (fun r => r.typ == 0xC && !bellReached h.bellNo r.bseq)
  due.foldl Head.mirrorApply (h.setRed (fun r => { r with inbox := rest }))

end Sys2Proof.Machine
end

