-- ==== Sys2Proof/Machine/Access.lean ====
section
/-! DEFINITION. Reads of the host map (chapters 00 and 19): what stands at an address now, the latches of R7, fields that a read
clears, the two views. -/

namespace Sys2Proof.Machine

/-! ## Values that follow other state -/

/-- Seconds of R442's lock that are left: 60 s from `lockFrom`. -/
def Head.lockLeft (h : Head) : Nat :=
  match h.host.lockFrom with
  | some t => 60 - min 60 ((h.now - t) / 200000000)
  | none => 0

/-- HOST_EVT as a read shows it: NO_RECIPE and NOTIFY follow their causes (Table 19-5). -/
def Head.evtWord (h : Head) : Nat :=
  bandNot (h.rd HOST_EVT) 0xA + b2n (h.on MST_NOTIFY_VALID) * 8 + b2n (h.fld SYS_STATUS_STATE == 6) * 2

/-- EVT_N is driven low (R445). -/
def Head.evtLow (h : Head) : Bool := band h.evtWord (bor (h.rd HOST_EVT_EN) 0xE) != 0

/-- HOST_ENG_STAT: IDLE counts the seconds since the last accepted request while the view is open. -/
def Head.engStat (h : Head) : Nat :=
  (if h.on SYS_STATUS_ENG_OPEN then min 65535 ((h.now - h.host.idleFrom) / 200000000) * 65536 else 0) + h.rd HOST_ENG_STAT % 65536

/-- Word `i` of the segments in use (R291). -/
def Head.camInUseWord (h : Head) (i : Nat) : Nat :=
  bitsOfList ((List.range 32).map (fun k => h.segInUse (32 * i + k)))
where
  bitsOfList (l : List Bool) : Nat := l.foldr (fun b acc => b2n b + 2 * acc) 0

/-- A word of the trim window: the store, or the staging buffer with VIEW = 1. -/
def Head.trimWord (h : Head) (a : Nat) : Nat :=
  if h.on SYS_TRIM_CTL_VIEW then (h.boot.trimStage.get zeroWord ((a - 0x800) / 4)).toNat else h.rd a

/-- A time scale's pair as a stamp, `dom` its domain. -/
def Head.scaleStamp (h : Head) (dom : Nat) : Nat :=
  match dom with
  | 0 => stampOf h.mtNs 0
  | 1 => stampOf (h.time.lt.ns h.now) 1
  | _ => stampOf (5 * h.now) 2

/-- A register of a process loop as the set in force has it: FORM, KS and the coefficients wait for COMMIT, the model for a sample instant
(R3, R313). -/
def Head.plInForce (h : Head) (a : Nat) : Nat :=
  let x := h.loop ((a - 0xB0000) / 0x100)
  let off := a % 0x100
  if off = 0x0C then putBits (putBits (h.rd a) 7 5 x.ks) 4 4 x.form
  else if 0x30 ≤ off ∧ off ≤ 0x48 then toBits 24 (x.coef.getD ((off - 0x30) / 4) 0) * 256
  else if 0x60 ≤ off ∧ off ≤ 0x6C then nth x.model ((off - 0x60) / 4)
  else h.rd a

/-- What byte address `a` of the host map holds now, in the Engineer view. -/
def Head.peek (h : Head) (a : Nat) : Nat :=
  if 0x200000 ≤ a ∧ a < 0x280000 then (h.cams.get zeroWord ((a - 0x200000) / 4)).toNat
  else if 0x400000 ≤ a ∧ a < 0x440000 then (h.acq.mem.get zeroWord ((a - 0x400000) / 4)).toNat
  else if 0x60000 ≤ a ∧ a < 0x7A000 then (h.readLeMem a).getD 0
  else if 0x800 ≤ a ∧ a < 0x1000 then h.trimWord a
  else if 0x0A1800 ≤ a ∧ a < 0x0A2000 then h.camInUseWord ((a - 0x0A1800) / 4)
  else if 0xB0000 ≤ a ∧ a < 0xB2000 then h.plInForce a
  else if 0x120400 ≤ a ∧ a < 0x120800 then h.ticketWord ((a - 0x120400) / 4)
  else if a = HOST_STAT then h.hostStat
  else if a = HOST_EVT then h.evtWord
  else if a = HOST_ENG_CTL then h.lockLeft * 65536
  else if a = HOST_ENG_STAT then h.engStat
  else if a = TIME_MT_NS then h.scaleStamp 0 % 2 ^ 32
  else if a = TIME_MT_SEC then h.scaleStamp 0 / 2 ^ 32
  else if a = TIME_LT_NS then h.scaleStamp 1 % 2 ^ 32
  else if a = TIME_LT_SEC then h.scaleStamp 1 / 2 ^ 32
  else if a = TIME_FR_NS then h.scaleStamp 2 % 2 ^ 32
  else if a = TIME_FR_SEC then h.scaleStamp 2 / 2 ^ 32
  else if 0x80000 ≤ a ∧ a < 0xA0000 ∧ a % 0x400 = 4 then putBits (h.rd a) 9 8 (h.recentCatches ((a - 0x80000) / 0x400)).length
  else match (List.range 16).find? (fun e => a == LE_STAT e || a == LE_BUSY e) with
    | some e => if a = LE_STAT e then h.readLeStat e else min (2 ^ 32 - 1) (h.rd a + h.parkWait e)
    | none => h.rd a

/-! ## The map (Table 19-7) -/

/-- A register or window word stands at byte address `a`. -/
def mapped (a : Nat) : Bool :=
  a % 4 == 0 && (decide (0x200000 ≤ a ∧ a < 0x280000) || decide (0x400000 ≤ a ∧ a < 0x440000) ||
    decide (0x60000 ≤ a ∧ a < 0x64000) || decide (0x68000 ≤ a ∧ a < 0x7A000) || (regRow? a).isSome)

/-- The LE block with its window, or a register that carries /P as a whole: the Operator view does not reach it (R444). -/
def privAddr (a : Nat) : Bool :=
  decide (0x50000 ≤ a ∧ a < 0x7A000) || (match regRow? a with | some r => r.priv | none => false)

/-- A word as a view shows it: reserved bits and WO fields read 0, and fields marked /P in the Operator view (R3, R4, R5). -/
def viewOf (a v : Nat) (engineer : Bool) : Nat :=
  match regRow? a with
  | some r => band v (r.mask (fun f => !(f.acc == .wo || (f.priv && !engineer && !r.priv))))
  | none => v

/-- The upper word of the pair at lower address `a`. -/
def upperOf (a : Nat) : Nat := a + 4

/-- What a read clears: RC fields, and the oldest entry of a capture FIFO with CAP_CNT, but for a read that answers the latch of an empty
FIFO (R98, R306). -/
def Head.readClear (h : Head) (a : Nat) : Head :=
  match (List.range 8).find? (fun k => a == CAP_CNT k) with
  | some k => (h.setCap k (fun c => { c with fifo := if c.held = some false then c.fifo else c.fifo.drop 1, held := none })).capShow k
  | none =>
    let h := match (List.range 16).find? (fun e => a == LE_BUSY e) with
      | some e => h.parkSpend e
      | none => h
    let h := match (List.range 4).find? (fun k => a == TIME_TRG_STAMP_NS k || a == TIME_TRG_STAMP_SEC k) with
      | some k => h.setTrg k (fun t => { t with unread := false })
      | none => h
    match regRow? a with
    | some r => let m := r.mask (fun f => f.acc == .rc); if m = 0 then h else h.wr a (bandNot (h.rd a) m)
    | none => h

/-- Latch the word that stands at `a` for the next read there; the latch is keyed by the address below (R7). -/
def Head.latch (h : Head) (a : Nat) : Head :=
  { h with latches := h.latches.set (fun _ => none) (a - 4) (some (BitVec.ofNat 32 (h.peek a))) }

/-- The word that a latch holds for a read at `a`. -/
def Head.latched (h : Head) (a : Nat) : Option Word := h.latches.get (fun _ => none) (a - 4)

/-- The latch for a read at `a` is consumed. -/
def Head.unlatch (h : Head) (a : Nat) : Head := { h with latches := h.latches.set (fun _ => none) (a - 4) none }

/-- What reading a lower word latches: the upper word, and with CAP_NS the count of the same entry too (R7, R306). -/
def Head.latchOf (h : Head) (a : Nat) : Head :=
  let h := h.latch (upperOf a)
  match (List.range 8).find? (fun k => a == CAP_NS k) with
  | some k => (h.latch (a + 8)).setCap k (fun c => { c with held := some !c.fifo.isEmpty })
  | none => h

/-- One word read by the host (R3, R5, R7, R98, R306). -/
def Head.readWord (h : Head) (a : Nat) (engineer : Bool) : Head × Nat :=
  match regRow? a with
  | none => (h, h.peek a)
  | some r =>
    match r.half with
    | .upper =>
      let h := h.readClear a
      match h.latched a with
      | some w => (h.unlatch a, w.toNat)
      | none => (h, viewOf a (h.peek a) engineer)
    | .lower => ((h.latchOf a).readClear a, viewOf a (h.peek a) engineer)
    | .one =>
      match h.latched a with
      | some w => ((h.unlatch a).readClear a, w.toNat)
      | none => (h.readClear a, viewOf a (h.peek a) engineer)

/-- Several words read in ascending order, or all from one address (RDF). -/
def Head.readWords (h : Head) (engineer fixed : Bool) : Nat → Nat → Head × List Word
  | _, 0 => (h, [])
  | a, n + 1 =>
    let r := h.readWord a engineer
    let t := r.1.readWords engineer fixed (if fixed then a else a + 4) n
    (t.1, BitVec.ofNat 32 r.2 :: t.2)

end Sys2Proof.Machine
end

