-- ==== Sys2Proof/Machine/Island.lean ====
section
/-! DEFINITION. The safety island (chapter 16): its inputs, functions, outputs, tests, supply, resets, self-tests and record. All
of it acts on the island's own state; the wires to the core are the only other thing it reads. -/

namespace Sys2Proof.Machine

/-- A list of bits as a number, the first the lowest. -/
def bitsOf (l : List Bool) : Nat := l.foldr (fun b acc => b2n b + 2 * acc) 0

/-! ## Power (R364, R365, R387) -/

def SafeIn.initial : SafeIn := { run := 0, level := false, fault := 0, disc := 0, stage := 0, passed := false }
def SafeOut.initial : SafeOut :=
  { on := false, ball := false, req := 2, ss1 := none, lock := 0, shortRun := 0, openRun := 0, onFor := 0, lowFor := 0, srb := false }

/-- The island without VDD_SAFE. -/
def Island.off : Island :=
  { powered := false, tested := false, param := none, sig := 0, role := none, paramStop := true, wdStop := false,
    supplyStop := false, fault := 0, inputs := Vector.replicate 8 .initial, raw := 0, outs := Vector.replicate 4 .initial,
    demand := 0, restart := 0, waitEdge := 0, fsWarn := false, fsSag := false, warnRun := 0, sagRun := 0, fsCode := 0, fsVolt := 0,
    wdSeen := 0, wdQuiet := 0, wdGood := 0, partnerSeen := false, partnerQuiet := 0, press := none, accepted := 0, ignored := 0,
    testDone := 0, skipped := 0, testAge := 0, slotsDone := 0, sfltLow := true, wdOut := 0, seq := 0, earlySeen := 0, record := [], events := [] }

def Island.inp (s : Island) (k : Nat) : SafeIn := s.inputs.toList.getD k .initial
def Island.out (s : Island) (n : Nat) : SafeOut := s.outs.toList.getD n .initial
def Island.setIn (s : Island) (k : Nat) (f : SafeIn → SafeIn) : Island :=
  { s with inputs := s.inputs.mapFinIdx (fun i x _ => if i = k then f x else x) }
def Island.setOut (s : Island) (n : Nat) (f : SafeOut → SafeOut) : Island :=
  { s with outs := s.outs.mapFinIdx (fun i x _ => if i = n then f x else x) }

/-- Note an event of class 0x7 for the next record (R393). -/
def Island.say (s : Island) (sub idx : Nat) : Island := { s with events := s.events ++ [sub * 256 + idx % 256] }

/-- An island fault (R385): every output locked out with cause 4. The first code stays. -/
def Island.fail (s : Island) (code : Nat) : Island :=
  if s.fault ≠ 0 ∨ code = 0 then s
  else
    let s := { s with fault := code, outs := s.outs.map (fun (o : SafeOut) => { o with lock := if o.lock = 0 then 4 else o.lock }) }
    s.say 11 code

/-- Power-on reset with its tests (R387): `code` is that of a test that failed, 0 when all passed. -/
def Island.powerOn (code : Nat) : Island :=
  let s : Island := Island.off
  Island.fail { s with powered := true, tested := true } code

/-! ## The parameter set (Table 16-9) -/

/-- Word `i` of the set; 0 when none is held. -/
def Island.pw (s : Island) (i : Nat) : Nat := match s.param with | some l => wordAt l i | none => 0

def Island.typ (s : Island) (k : Nat) : Nat := bits (s.pw (2 + k)) 2 0
/-- The samples a level must stand: FILT × 50, FILT 0 standing for 16 (R367). -/
def Island.filt (s : Island) (k : Nat) : Nat := let f := bits (s.pw (2 + k)) 7 4; (if f = 0 then 16 else f) * 50
/-- Inputs `k` and `k + 1` are a pair. -/
def Island.pairAt (s : Island) (k : Nat) : Bool := k % 2 == 0 && bit (s.pw (2 + k)) 8 && s.typ k != 0
def Island.pairWord (s : Island) : Bool := bit (s.pw 0) 22
/-- The island drives its outputs: SERVE, and ROLE 0 in a pair (R389). -/
def Island.serves (s : Island) : Bool := bit (s.pw 0) 23 && (!s.pairWord || s.role == some false)
def Island.fnWord (s : Island) (f : Nat) : Nat := s.pw (10 + f)
def Island.fnUsed (s : Island) (f : Nat) : Bool := bits (s.fnWord f) 13 12 != 0
def Island.fnSs1 (s : Island) (f : Nat) : Bool := bit (s.fnWord f) 14
def Island.used (s : Island) (n : Nat) : Bool := bit (s.pw (18 + n)) 0

/-- Evaluation cycles of a time in µs, counted at the slow end: 19 island cycles per µs (R366). -/
def evalsOf (us : Nat) : Nat := us * 19 / 4700

/-- Output `n` goes off with request code 2. -/
def Island.offNow (s : Island) (n : Nat) : Island :=
  let s := if (s.out n).on then s.say 2 n else s
  s.setOut n (fun o => { o with on := false, ball := false, req := 2, ss1 := none })

/-- The core passes words 0 to 21 and its role; every output goes off at once (R75, R387 to R389): `sig` is the recipe's SAFE_SIG and `good` says that the set has
it and that every word came through sound. -/
def Island.take (s : Island) (words : List Word) (sig : Word) (role good : Bool) : Island :=
  if !s.powered ∨ !s.tested then s
  else if s.role.any (fun r => r != role) then s.fail 3
  else
    let s := (List.range 4).foldl (fun (s : Island) n => s.offNow n) { s with paramStop := true }
    if !good then s
    else
      let s := ({ s with param := some (words.take 22), sig := sig, role := some role, testAge := 0, slotsDone := 0 }).say 13 0
      { s with inputs := s.inputs.mapFinIdx (fun k x _ => if s.typ k = 0 then .initial else x) }

/-! ## Inputs (R367 to R370) -/

/-- One sample of an input through its filter. -/
def SafeIn.sample (x : SafeIn) (typ filt : Nat) (high : Bool) : SafeIn :=
  if typ = 0 then x
  else if high = x.level then { x with run := 0 }
  else if x.run + 1 ≥ filt then { x with run := 0, level := high }
  else { x with run := x.run + 1 }

/-- One sample of every input and readback. -/
def Island.sample (s : Island) (p : SafeSample) : Island :=
  let was := s.raw
  let s := { s with
    inputs := s.inputs.mapFinIdx (fun k x _ => x.sample (s.typ k) (s.filt k) (bit p.sin k))
    raw := p.sin % 256
    outs := s.outs.mapFinIdx (fun n o _ => { o with srb := bit p.srb n, lowFor := if bit p.srb n then 0 else o.lowFor }) }
  let k := bits (s.pw 0) 21 19
  if s.pairWord ∧ bit was k ≠ bit p.sin k then { s with partnerSeen := true } else s

/-- An input takes a fault (1 STUCK, 2 CROSS_IN, 3 DISC). -/
def Island.inFault (s : Island) (k kind : Nat) : Island :=
  let s := if (s.inp k).fault = 0 then s.say 5 k else s
  s.setIn k (fun x => { x with fault := kind, passed := false, stage := 0 })

/-- A pair takes fault DISC (R369). -/
def Island.pairFault (s : Island) (k : Nat) : Island := (s.inFault k 3).inFault (k + 1) 3

/-- Disagreement of the pair at `k` in one evaluation; a standing DISC follows its clearing, and one met stays met until the pair disagrees
too long again. -/
def Island.pairCheck (s : Island) (k : Nat) : Island :=
  if !s.pairAt k then s
  else
    let a := (s.inp k).level
    let b := (s.inp (k + 1)).level
    if a ≠ b then
      let n := (s.inp k).disc + 1
      let s := s.setIn k (fun x => { x with disc := n })
      if n > evalsOf (2000 * bits (s.pw (2 + k)) 23 16) ∧ ((s.inp k).fault ≠ 3 ∨ (s.inp (k + 1)).fault ≠ 3 ∨ (s.inp k).stage ≠ 0) then s.pairFault k else s
    else
      let step (x : SafeIn) : SafeIn := { x with
        disc := 0, stage := if x.fault ≠ 3 then 0 else if x.stage = 2 then 2 else if !a then 1 else if x.stage = 1 then 2 else x.stage }
      (s.setIn k step).setIn (k + 1) step

/-- The input demands: low, or faulted (R368, R370). -/
def Island.low (s : Island) (k : Nat) : Bool := s.typ k != 0 && s.typ k != 4 && (!(s.inp k).level || (s.inp k).fault != 0)
/-- The same with the pair of the input. -/
def Island.demands (s : Island) (k : Nat) : Bool :=
  let p := k - k % 2
  if s.pairAt p then s.low p || s.low (p + 1) else s.low k

/-! ## Test pulses (R370, R372, R373) -/

/-- Output `n` is locked out with a cause (1 SHORT_FS, 2 OPEN, 3 CROSS). -/
def Island.lock (s : Island) (n cause : Nat) : Island :=
  if (s.out n).lock ≠ 0 then s else (s.setOut n (fun o => { o with lock := cause })).say 4 n
def Island.lockAll (s : Island) (cause : Nat) : Island := (List.range 4).foldl (fun s n => s.lock n cause) s

/-- Evaluation cycles in TEST_INT at 20 island cycles a µs, 1 s where the word holds none (R372, notes/assumptions/70.md). -/
def Island.testEvals (s : Island) : Nat := max 1 (bits (s.pw 1) 31 24) * 20000000 / 4700

/-- Samples in OFFP, of 300 µs where the word holds none. -/
def Island.offSamples (s : Island) : Nat := (let t := bits (s.pw 1) 23 14; if t = 0 then 300 else t) * 20 / 188

/-- The slot of Table 16-4 that the test interval stands in, and one evaluation more of it. -/
def Island.slotNow (s : Island) : Nat := s.testAge * 8 / s.testEvals
def Island.testTick (s : Island) : Island :=
  if s.testAge + 1 < s.testEvals then { s with testAge := s.testAge + 1 } else { s with testAge := 0, slotsDone := 0 }

/-- Slot `k` is due: the interval stands in it and it has carried no pulse yet. -/
def Island.slotDue (s : Island) (k : Nat) : Bool := s.slotNow == k && !bit s.slotsDone k

/-- The samples of an off-pulse; those that the command does not bring read as its last, or as the last ones taken. -/
def Island.pulseSamples (s : Island) (ps : List SafeSample) : List SafeSample :=
  let last := ps.getLast?.getD ⟨s.raw, bitsOf (s.outs.toList.map (·.srb))⟩
  ps.take s.offSamples ++ List.replicate (s.offSamples - ps.length) last

/-- What an off-pulse of output `n` shows: SHORT_FS and CROSS of Table 16-5. -/
def Island.outPulse (s : Island) (n : Nat) (ps : List SafeSample) : Island :=
  let last := ps.drop (ps.length - 3)
  let s := if !ps.isEmpty ∧ ps.all (fun p => bit p.srb n) then s.lock n 1 else s
  let cross := (List.range 4).any (fun m => m != n && (s.out m).ball && !last.isEmpty && last.all (fun p => !bit p.srb m))
  if cross then s.lockAll 3 else s

/-- What an off-pulse of SPT`t` shows at one input (R370). -/
def Island.sptInput (s : Island) (t : Nat) (last : List SafeSample) (k : Nat) : Island :=
  if s.typ k = 1 + t then
    if last.any (fun p => bit p.sin k) then s.inFault k 1
    else s.setIn k (fun x => { x with passed := x.passed || x.fault == 1 })
  else if s.typ k = 2 - t then
    if !last.isEmpty ∧ last.all (fun p => !bit p.sin k) then s.inFault k 2
    else s.setIn k (fun x => { x with passed := x.passed || x.fault == 2 })
  else s

/-- TEST_PULSE of a slot of Table 16-4 that is due; `ps` are the samples of the off-pulse. A slot in FS_SAG is skipped and counted. -/
def Island.testPulse (s : Island) (slot : Nat) (ps : List SafeSample) : Island :=
  let who : Option Nat := match slot with | 0 => some 0 | 1 => some 4 | 2 => some 1 | 3 => some 5 | 4 => some 2 | 6 => some 3 | _ => none
  match who with
  | none => s
  | some w =>
    if s.param.isNone ∨ !s.serves ∨ !s.slotDue slot ∨ (w < 4 ∧ !(s.out w).ball) then s
    else if s.fsSag then { s with skipped := (s.skipped + 1) % 65536, slotsDone := setBit s.slotsDone slot }
    else
      let ps := s.pulseSamples ps
      let s := { s with testDone := (s.testDone + 1) % 65536, slotsDone := setBit s.slotsDone slot }
      if w < 4 then s.outPulse w ps
      else (List.range 8).foldl (fun (s : Island) k => s.sptInput (w - 4) (ps.drop (ps.length - 3)) k) s

/-! ## Supply, watchdog, self-tests (R381 to R385, R390) -/

/-- The supply stop (R381). -/
def Island.stopSupply (s : Island) : Island := if s.supplyStop then s else ({ s with supplyStop := true }).say 7 0

/-- SFS converts with 10 bits: a code is at most 1,023 (R44). -/
def sfsCode (n : Nat) : Nat := min 1023 n

/-- The field supply of a mean code lies above a level of `mv` mV: the divider is 1/12, the converter spans 2.5 V (R44). -/
def sfsAbove (code mv : Nat) : Bool := decide (mv * 1024 < code * 30000)
/-- It lies below that level. -/
def sfsBelow (code mv : Nat) : Bool := decide (code * 30000 < mv * 1024)

/-- The states of Table 16-6 from the mean code of SFS. -/
def Island.supply (s : Island) (code : Nat) : Island :=
  let warnRun := if sfsBelow code 20400 then s.warnRun + 1 else 0
  let warn := if s.fsWarn then !sfsAbove code 20800 else decide (warnRun ≥ 4)
  let sag := if s.fsSag then !sfsAbove code 19600 else sfsBelow code 19200
  let run := if sag then s.sagRun + 1 else 0
  let tol := let t := bits (s.pw 1) 13 9; if t = 0 then 10 else t
  let s := if warn ∧ !s.fsWarn then s.say 6 0 else s
  let s := { s with fsCode := code, fsVolt := code * 300 / 1024, fsWarn := warn, warnRun := warnRun, fsSag := sag, sagRun := run }
  if run > evalsOf (tol * 1000) then s.stopSupply else s

/-- The core watchdog line over one evaluation (R382, R390). -/
def Island.watch (s : Island) (w : Wires) : Island :=
  let quiet := if w.wdChanges ≠ s.wdSeen then 0 else s.wdQuiet + 1
  let part := if s.partnerSeen then 0 else s.partnerQuiet + 1
  let s := { s with wdSeen := w.wdChanges, wdQuiet := quiet, partnerQuiet := part, partnerSeen := false }
  let gone : Bool := if s.pairWord then decide (quiet ≥ 4) && decide (part ≥ 4)
    else w.wdDropped || !w.wdAlive || decide (quiet ≥ 4)
  if gone then
    let s := { s with wdGood := 0 }
    if s.wdStop then s else ({ s with wdStop := true }).say 8 0
  else { s with wdGood := s.wdGood + 1 }

/-- The clock check (R383): more than 8 % from 64 × BELL_TICKS / 10 island cycles. -/
def clockBad (cycles bellTicks : Nat) : Bool :=
  let want : Int := (64 * bellTicks : Nat)
  decide (((cycles * 10 : Nat) - want : Int).natAbs * 100 > 8 * (64 * bellTicks))

/-- The readback checks of an output over evaluations (Table 16-5). -/
def Island.readback (s : Island) (n : Nat) : Island :=
  let o := s.out n
  if o.ball then
    let bad := decide (o.onFor ≥ 3) && !o.srb && !s.fsSag
    let run := if bad then o.openRun + 1 else 0
    let s := s.setOut n (fun o => { o with onFor := o.onFor + 1, shortRun := 0, openRun := run })
    if run ≥ 3 then s.lock n 2 else s
  else
    let run := if o.srb then o.shortRun + 1 else 0
    let s := s.setOut n (fun o => { o with onFor := 0, openRun := 0, shortRun := run })
    if run ≥ 3 then s.lock n 1 else s

/-! ## Reset (R380) -/

/-- RESET: a released press of `samples` samples, kept for the end of the next evaluation. -/
def Island.reset (s : Island) (samples : Nat) : Island :=
  let us := samples * 188 / 19
  if !s.powered then s
  else if 100000 ≤ us ∧ us ≤ 2000000 then { s with press := some 0 }
  else if 3000000 ≤ us ∧ us ≤ 5000000 then { s with press := some 1 }
  else { s with ignored := (s.ignored + 1) % 65536 }

/-- A reset edge: input faults that may clear, the stops that may clear, the outputs a long reset unlocked. -/
def Island.resetEdge (s : Island) : Island :=
  { s with
    inputs := s.inputs.map (fun (x : SafeIn) => if x.fault ≠ 0 ∧ (if x.fault = 3 then x.stage = 2 else x.passed) then { x with fault := 0 } else x)
    supplyStop := s.supplyStop && !sfsAbove s.fsCode 19600
    wdStop := s.wdStop && decide (s.wdGood < evalsOf 100000)
    paramStop := s.paramStop && s.param.isNone, waitEdge := 0 }

/-- A long reset: lock-outs clear while every output is off and the readback has been low for 1 s. -/
def Island.longReset (s : Island) : Island :=
  if s.outs.toList.any (·.on) then s
  else
    (List.range 4).foldl (fun (s : Island) n =>
      let o := s.out n
      if o.lock ≠ 0 ∧ o.lock ≠ 4 ∧ !o.srb ∧ o.lowFor ≥ evalsOf 1000000 then
        ({ s with waitEdge := setBit s.waitEdge n }).setOut n (fun o => { o with lock := 0 })
      else s) s

/-- One evaluation more of every readback that reads low (R380). -/
def Island.lowTick (s : Island) : Island :=
  { s with outs := s.outs.map (fun (o : SafeOut) => { o with lowFor := if o.srb then 0 else o.lowFor + 1 }) }

/-- The press that waits acts. -/
def Island.takePress (s : Island) : Island :=
  match s.press with
  | none => s
  | some p =>
    let s := ({ s with press := none, accepted := (s.accepted + 1) % 65536 }).say 12 p
    if p = 0 then s.resetEdge else s.longReset

/-! ## Functions and outputs (R376 to R378) -/

/-- Every condition of R376 that stops all outputs. -/
def Island.hardStop (s : Island) (w : Wires) : Bool :=
  s.param.isNone || s.fault != 0 || s.paramStop || s.wdStop || s.supplyStop || w.askOff

/-- Function `f` in one evaluation; `edge` says that a reset edge acts. -/
def Island.function (s : Island) (edge : Bool) (f : Nat) : Island :=
  if !s.fnUsed f then { s with restart := clearBit s.restart f, demand := clearBit s.demand f }
  else
    let raw := (List.range 8).any (fun k => bit (s.fnWord f) k && s.demands k)
    let hold := bit s.restart f && !(edge && !raw)
    let hold := hold || (raw && !bit (s.fnWord f) 15)
    let dem := raw || hold
    let s := if dem ∧ !bit s.demand f then s.say 0 f else s
    { s with
      restart := if hold then setBit s.restart f else clearBit s.restart f
      demand := if dem then setBit s.demand f else clearBit s.demand f }

/-- The functions of output `n` that demand. -/
def Island.against (s : Island) (n : Nat) : List Nat :=
  (List.range 8).filter (fun f => s.fnUsed f && bit s.demand f && bit (s.fnWord f) (8 + n))

/-- Output `n` goes on with no request. -/
def Island.onNow (s : Island) (n : Nat) : Island :=
  let s := if (s.out n).on then s else s.say 3 n
  s.setOut n (fun o => { o with on := true, ball := s.serves, req := 0, ss1 := none })

/-- Output `n` in one evaluation; `was` are the demands before it. -/
def Island.output (w : Wires) (was : Nat) (s : Island) (n : Nat) : Island :=
  let o := s.out n
  let fs := s.against n
  let sto := fs.any (fun f => !s.fnSs1 f)
  if s.hardStop w ∨ !s.used n ∨ o.lock ≠ 0 ∨ bit s.waitEdge n ∨ sto ∨ bit w.early n then s.offNow n
  else
    match o.ss1 with
    | some c => if c ≤ 1 then s.offNow n else s.setOut n (fun o => { o with ss1 := some (c - 1), ball := s.serves })
    | none =>
      let new := fs.filter (fun f => !bit was f)
      match (new.map (fun f => bits (s.fnWord f) 31 17 * 4)).min? with
      | some c =>
        if !o.on ∨ c = 0 then s.offNow n
        else (s.say 1 n).setOut n (fun o => { o with req := 1, ss1 := some c, ball := s.serves })
      | none => if fs.isEmpty then s.onNow n else s.offNow n

/-- SS1_EXPIRY: the count of output `n` has run out. -/
def Island.expire (s : Island) (n : Nat) : Island := if (s.out n).ss1.isSome then s.offNow n else s

/-! ## The record and the evaluation (R366, SAFE registers) -/

/-- The 16 words of the record. -/
def Island.makeRecord (s : Island) (w : Wires) : List Word :=
  let o (f : SafeOut → Bool) : Nat := bitsOf (s.outs.toList.map f)
  let filt := bitsOf (s.inputs.toList.map (·.level))
  let wait := s.restart != 0 || s.supplyStop || s.wdStop || s.waitEdge != 0 || (s.paramStop && s.param.isSome)
  let left (n : Nat) : Nat := (s.out n).ss1.getD 0 % 65536
  let ws : List Nat := [
    b2n (s.outs.toList.any (·.ss1.isSome)) * 2 ^ 31 + b2n (s.paramStop || s.param.isNone) * 2 ^ 30 + b2n (s.fault != 0) * 2 ^ 29 +
      b2n wait * 2 ^ 28 + b2n s.wdStop * 2 ^ 27 + b2n s.supplyStop * 2 ^ 26 + b2n s.fsSag * 2 ^ 25 + b2n s.fsWarn * 2 ^ 24 +
      o (·.lock != 0) * 2 ^ 20 + s.demand % 256 * 2 ^ 12 + filt * 2 ^ 4 + o (·.ball),
    s.earlySeen % 16 * 2 ^ 12 + w.ack % 16 * 2 ^ 8 + ((s.outs.toList.map (·.req)).foldr (fun c acc => c + 4 * acc) 0),
    bitsOf (s.inputs.toList.map (·.fault != 0)) * 2 ^ 16 + filt * 2 ^ 8 +
      bitsOf ((List.range 8).map (fun k => s.typ k != 0 && bit s.raw k)),
    o (·.srb) * 16 + o (·.ball),
    (s.outs.toList.map (·.lock)).foldr (fun c acc => c + 16 * acc) 0,
    (s.inputs.toList.map (·.fault)).foldr (fun c acc => c + 4 * acc) 0,
    s.fsVolt * 2 ^ 16 + s.fsCode,
    left 1 * 2 ^ 16 + left 0, left 3 * 2 ^ 16 + left 2, s.fault, (if s.param.isSome then s.sig.toNat else 0),
    s.skipped * 2 ^ 16 + s.testDone, s.ignored * 2 ^ 16 + s.accepted, s.seq, 0]
  let r := ws.map (BitVec.ofNat 32)
  r ++ [crc32 (r.flatMap (fun x => leBytes 4 x.toNat))]

/-- EVALUATION_CYCLE: the evaluation of what stood at its start, its results at its end, then the samples taken meanwhile. -/
def Island.evaluate (s : Island) (w : Wires) (e : EvalIn) (bellTicks : Nat) : Island :=
  if !s.powered then s
  else
    let s := (s.supply (sfsCode e.sfs)).watch w
    let s := s.fail e.failed.val
    let s := if e.cycles.any (fun c => clockBad c bellTicks) then s.fail 5 else s
    let s := s.lowTick.testTick
    let s := if s.param.isSome ∧ s.serves then (List.range 4).foldl (fun s n => if s.used n then s.readback n else s) s else s
    let s := [0, 2, 4, 6].foldl (fun s k => s.pairCheck k) s
    let edge := s.press == some 0
    let s := s.takePress
    let was := s.demand
    let s := (List.range 8).foldl (fun s f => s.function edge f) s
    let s := (List.range 4).foldl (fun s n => s.output w was n) s
    let s := { s with
      seq := (s.seq + 1) % 2 ^ 32, wdOut := s.wdOut + 1, earlySeen := w.early
      sfltLow := s.param.isNone || s.fault != 0 || s.outs.toList.any (·.lock != 0) }
    let s := { s with record := s.makeRecord w }
    e.samples.toList.foldl (fun s p => s.sample p) s

/-- KEEPALIVE_DROP: without a refresh the stage of output `n` drives its ball low (R364). -/
def Island.drop (s : Island) (n : Nat) : Island := s.setOut n (fun o => { o with ball := false })

end Sys2Proof.Machine
end

