-- ==== Sys2Proof/Machine/State.lean ====
section
/-! DEFINITION. The whole machine as plain data: the head, the safety island with the wires between them, the stores that outlive a
reset, the test port, and the queue of commands that wait. Its value right after power-on. -/

namespace Sys2Proof.Machine

/-- Why the machine stops with a fault. No command of this block does: every command of the table has an effect, or none in the
state it meets, and ordinary data never ends a run. The one name stands for a machine that no step reaches. -/
inductive Fault where
  /-- Raised by nothing. Safe: a step that answers it would be a stop of the model, never of the hardware. -/
  | unreachable
  deriving DecidableEq, Repr

/-- Why a command is refused by the model. -/
inductive Refusal where
  /-- A command whose meaning is not modelled, by its mnemonic. Raised by an arm of `exec` alone. Safe: the model stops where the
  hardware goes on. -/
  | notModelled (mnemonic : String)
  deriving DecidableEq, Repr

/-- The machine. `inReset` stands from a reset's start until RESET_SEQUENCE has run, `stopped` after a failed Supervisor ROM check
(R54), `cause` is what SYS_RESET_CAUSE will show: bit 0 POR, bit 1 PIN, bit 2 SW. `pending` holds the commands that wait, first in
first out. -/
structure State where
  head : Head
  store : Store
  island : Island
  wires : Wires
  tap : TestPort
  inReset : Bool
  stopped : Bool
  cause : Nat
  pending : List Instr
  deriving DecidableEq, Repr

/-- The stores of a new part: an erased flash, a blank key store (R64), the factory's trim store with magic, version 1, the unique ID
0 and no further value (notes/assumptions/13.md). Word 511 is its CRC. -/
def Store.initial : Store :=
  { flash := [], key := ⟨List.replicate 8 0, 0, false, false⟩
    trim := [(0, 0x4D495254), (1, 1), (511, 0xABBADFB9)], uid := 0 }

def Wires.initial : Wires := { wdChanges := 0, wdAlive := false, wdDropped := false, early := 0, ack := 0, askOff := false }

def TestPort.initial : TestPort := { instr := .idcode, boundary := 0, data := 0x112803D5, maintenance := false }

/-- RSTOUT_N is low in reset, and for good after a failed Supervisor ROM check (R54, R55). -/
def State.rstoutLow (s : State) : Bool := s.inReset || s.stopped

/-- Right after power-on: the head in reset, the island without VDD_SAFE, nothing waiting. -/
def State.reset : State :=
  { head := .initial, store := .initial, island := .off, wires := .initial, tap := .initial, inReset := true, stopped := false
    cause := 1, pending := [] }

end Sys2Proof.Machine
end

