-- ==== Sys2Proof/Machine/Balls.lean ====
section
/-! DEFINITION. The levels of the digital output balls (Table 02-4): in reset, in operation, under the test port (R28, R34, R51). -/

namespace Sys2Proof.Machine

/-- What a ball shows: driven low or high, or not driven, with the internal pull that it then has (Table 02-4). -/
inductive Level where
  | low
  | high
  | floating
  | pulledUp
  | pulledDown
  deriving DecidableEq, Repr

def pinLevel (b : Bool) : Level := if b then .high else .low

/-- The digital VDD_IO balls that the head can drive. -/
inductive Ball where
  | hio (k : Fin 4)
  | hrdy
  | evtN
  | fcsN
  | fsck
  | fio (k : Fin 4)
  | hbtOut
  | trg (k : Fin 4)
  | ppsOut
  | rstoutN
  | tdo
  deriving DecidableEq, Repr

/-- All of them. -/
def Ball.outputs : List Ball :=
  (List.finRange 4).flatMap (fun k => [.hio k, .fio k, .trg k]) ++ [.hrdy, .evtN, .fcsN, .fsck, .hbtOut, .ppsOut, .rstoutN, .tdo]

/-- The ball when nothing drives it. -/
def Ball.undriven : Ball → Level
  | .fio _ => .pulledUp
  | .trg _ => .pulledDown
  | .hio _ | .hrdy | .evtN | .fcsN | .fsck | .hbtOut | .ppsOut | .rstoutN | .tdo => .floating

/-- A bit put on the ball: the open-drain EVT_N only pulls low. -/
def Ball.driven (b : Ball) (high : Bool) : Level := if b = .evtN ∧ high then b.undriven else pinLevel high

/-- The island's output balls, of which no test-port instruction drives or observes any (R51). -/
inductive IslandBall where
  | spt (k : Fin 2)
  | sout (k : Fin 4)
  | sfltN
  deriving DecidableEq, Repr

/-- The reset state of Table 02-4. -/
def Ball.resetLevel : Ball → Level
  | .hio k => Ball.undriven (.hio k)
  | .fio k => Ball.undriven (.fio k)
  | .trg k => Ball.undriven (.trg k)
  | .tdo => Ball.undriven .tdo
  | .evtN => Ball.undriven .evtN
  | .fcsN => .high
  | .hrdy | .fsck | .hbtOut | .ppsOut | .rstoutN => .low

/-- A flash command is under way. -/
def Head.flashBusy (h : Head) : Bool := h.boot.flop.isSome || h.boot.dirOp.isSome

/-- TRGk: an input in MODE 0 and before a recipe is in force, else the pulse at the level that POL says (R68, R171). -/
def Head.trgLevel (h : Head) (k : Nat) : Level :=
  if h.boot.recipe.isNone ∨ h.fld (TIME_TRG_CTL_MODE k) = 0 then Ball.undriven (.trg 0)
  else pinLevel ((h.trg k).pulseEnd.isSome != h.on (TIME_TRG_CTL_POL k))

/-- What the head itself puts on a ball in operation. Data balls are driven only within a transfer. -/
def Head.ballLevel (h : Head) : Ball → Level
  | .hio k => Ball.undriven (.hio k)
  | .fio k => Ball.undriven (.fio k)
  | .tdo => Ball.undriven .tdo
  | .hrdy => pinLevel h.hrdy
  | .evtN => Ball.driven .evtN (!h.evtLow)
  | .fcsN => pinLevel (!h.flashBusy)
  | .fsck => .low
  | .hbtOut => pinLevel h.pins.hbtOut
  | .trg k => h.trgLevel k.val
  | .ppsOut => pinLevel h.time.ppsHigh.isSome
  | .rstoutN => .high

/-- The cell of a ball in the boundary register: the digital VDD_IO balls in the order of Table 02-4, the test port's own left out
(notes/assumptions/68.md). -/
def Ball.cell : Ball → Option Nat
  | .hio k => some (2 + k.val)
  | .hrdy => some 6
  | .evtN => some 7
  | .fcsN => some 8
  | .fsck => some 9
  | .fio k => some (10 + k.val)
  | .hbtOut => some 15
  | .trg k => some (36 + k.val)
  | .ppsOut => some 41
  | .rstoutN => some 47
  | .tdo => none

/-- The level of a ball: what EXTEST, CLAMP or HIGHZ make of it, the reset state in reset, else the head's. -/
def State.ball (s : State) (b : Ball) : Level :=
  let own : Level := if s.inReset then b.resetLevel
    else if s.stopped ∧ b = .rstoutN then .low
    else s.head.ballLevel b
  match b.cell with
  | none => own
  | some k =>
    if s.tap.floats then b.undriven
    else if s.tap.drives then b.driven (s.tap.boundary.toNat.testBit k)
    else own

/-- The cell of SVC_EN, an input. -/
def svcEnCell : Nat := 45

/-- What the chain captures (R51): the level of each ball that is driven, and for every other cell the level that `balls` says the board
or a pull gives. -/
def State.captured (s : State) (balls : Nat) : Nat :=
  Ball.outputs.foldl (fun v b =>
    match b.cell, s.ball b with
    | some k, .low => clearBit v k
    | some k, .high => setBit v k
    | _, _ => v) (balls % 2 ^ 48)

/-- The level of an island ball: SPTn supplies its contacts while the island serves, and is low without VDD_SAFE and with SERVE 0
(R28, R370, R389). -/
def Island.ball (s : Island) : IslandBall → Level
  | .spt _ => pinLevel (s.powered && s.serves)
  | .sout k => pinLevel (s.out k.val).ball
  | .sfltN => if s.sfltLow then .low else .floating

end Sys2Proof.Machine
end

