-- ==== Sys2Proof/Machine/Acquire.lean ====
section
/-! DEFINITION. The trigger and acquisition engine (chapter 18): probes, samples, storage, triggers, closing and arming. -/

namespace Sys2Proof.Machine

def Head.setAcq (h : Head) (f : Acq → Acq) : Head := { h with acq := f h.acq }

def Head.acqState (h : Head) : Nat := h.fld ACQ_STAT_STATE
def Head.setAcqState (h : Head) (s : Nat) : Head := h.put ACQ_STAT_STATE s

/-- Segments, words of a segment, words of its data area. -/
def Head.acqSegs (h : Head) : Nat := 2 ^ min 6 (h.fld ACQ_CFG_NSEG_LOG2)
def Head.acqSegWords (h : Head) : Nat := 65536 / h.acqSegs
def Head.acqArea (h : Head) : Nat := h.acqSegWords - 8
/-- The first word of the segment in use. -/
def Head.acqBase (h : Head) : Nat := h.fld ACQ_STAT_SEG * h.acqSegWords
def Head.acqFull (h : Head) : Bool := h.fld ACQ_CFG_MODE == 0

/-! ## Probes (R415 to R417) -/

/-- The enabled probes, in ascending index. -/
def Head.probes (h : Head) : List Nat :=
  (List.range 8).filter (fun k => h.on (ACQ_PRB_CTL_EN k) && h.fld (ACQ_PRB_CTL_KIND k) != 0)

/-- The value of probe `k`, masked; `pins` is the word of Table 18-1's KIND 3. -/
def Head.probeValue (h : Head) (pins k : Nat) : Nat :=
  let src := h.fld (ACQ_PRB_CTL_SRC k)
  let v :=
    match h.fld (ACQ_PRB_CTL_KIND k) with
    | 1 => let a := src - src % 4; viewOf a (h.peek a) false
    | 2 =>
      let r := (h.node (bits src 15 8)).report
      if r.valid ∧ r.bell = h.bellNo then wordAt r.payload (bits src 5 0) else 0
    | 3 => pins % 2 ^ 26
    | _ => 0
  band v (h.rd (ACQ_PRB_MASK k))

/-- A KIND 1 address the head takes (R417). -/
def probeAddrOk (a : Nat) : Bool :=
  match regRow? a with
  | some r => a % 4 == 0 && !privAddr a && r.mask (fun f => f.acc == .rc || f.acc == .wo || f.priv) == 0 &&
      !(decide (0x100000 ≤ a ∧ a < 0x110000)) && decide (a < 0x200000)
  | none => false

/-- The SRC of a probe as its KIND takes it: an aligned address, a station with a word, or 0. -/
def probeSrcOk (kind src : Nat) : Bool :=
  match kind with
  | 1 => src % 4 == 0
  | 2 => bits src 23 16 == 0 && bits src 7 6 == 0
  | 3 => src == 0
  | _ => true

/-! ## Storage (R418 to R422) -/

/-- The engine writes words of its memory from `i` on; a word that was uncorrectable is written again (R449). -/
def Head.acqWrite (h : Head) (i : Nat) (ws : List Word) : Head :=
  let hit (a : Nat) : Bool := decide (0x400000 + 4 * i ≤ a ∧ a < 0x400000 + 4 * (i + ws.length))
  { h.setAcq (fun q => { q with mem := q.mem.setList zeroWord i ws }) with ecc := h.ecc.filter (fun a => !hit a) }

/-- Store a word: circular, the oldest retained word gives way. -/
def Head.acqPut (h : Head) (w : Nat) : Head :=
  let n := max 1 h.acqArea
  let b := h.acqBase + 8
  (h.acqWrite (b + h.acq.wr) [BitVec.ofNat 32 w]).setAcq (fun q => { q with
    wr := (q.wr + 1) % n, snapWord := q.snapWord + 1
    stored := if q.stored < n then q.stored + 1 else n, start := if q.stored < n then q.start else (q.start + 1) % n })

/-- A CHANGE or SNAP record of a probe: the header with the DT since the last record, and the value. -/
def Head.acqRecord (h : Head) (k typ v : Nat) : Head :=
  ((h.acqPut (k * 2 ^ 29 + typ * 2 ^ 27 + (h.now - h.acq.dtBase))).acqPut v).setAcq (fun q => { q with
    dtBase := h.now, last := q.last.set k (some (BitVec.ofNat 32 v)) })

/-- A snapshot: one SNAP for each enabled probe. -/
def Head.acqSnap (h : Head) (vals : List (Nat × Nat)) : Head := vals.foldl (fun (h : Head) x => h.acqRecord x.1 1 x.2) h

/-- The record's last stored sample has come: CLOSE. -/
def Head.acqEnd (h : Head) : Head := (h.setAcqState 3).setAcq (fun q => { q with deadFrom := some h.now })

/-- Store `n` words; in POST a part that reaches the trigger snapshot closes the record at once with FULL (R422). -/
def Head.acqWithin (h : Head) (n : Nat) (f : Head → Head) : Head :=
  let room (h : Head) : Nat := (h.acq.trigPos + h.acqArea - h.acq.wr) % max 1 h.acqArea
  let full (h : Head) : Head := (h.setAcq (fun q => { q with full := true })).acqEnd
  if h.acqState = 1 then f h
  else if h.acqState ≠ 2 then h
  else if room h < n then full h
  else if room (f h) = 0 then full (f h)
  else f h

/-- A MARK for every 2²⁷ − 1 ticks without a record. -/
def Head.acqMarks (h : Head) : Nat → Head
  | 0 => h
  | fuel + 1 =>
    if h.now - h.acq.dtBase < 2 ^ 27 - 1 then h
    else
      (h.acqWithin 1 (fun h => (h.acqPut (2 * 2 ^ 27 + 2 ^ 27 - 1)).setAcq (fun q => { q with
        dtBase := q.dtBase + 2 ^ 27 - 1 }))).acqMarks fuel

/-- The change-only records of a sample. -/
def Head.acqChanges (h : Head) (vals : List (Nat × Nat)) : Head :=
  vals.foldl (fun (h : Head) x =>
    if (h.acq.last.getD x.1 none) = some (BitVec.ofNat 32 x.2) then h else h.acqWithin 2 (fun h => h.acqRecord x.1 0 x.2)) h

/-- How often `n` words from the start of a pre-trigger area of `pre` words have passed its start or its middle. -/
def acqTurns (pre n : Nat) : Nat := 2 * (n / pre) + b2n (decide (n % pre ≥ pre / 2))

/-- A snapshot when the pre-trigger write pointer has passed the start or the middle of the pre-trigger area since the last one (R420): with
the words of this sample, of its MARKs, or of that snapshot itself. -/
def Head.acqHalf (h : Head) (vals : List (Nat × Nat)) : Head :=
  let pre := h.rd ACQ_PRE
  let turns := acqTurns pre h.acq.snapWord
  if pre ≠ 0 ∧ h.acq.turned < turns then (h.setAcq (fun q => { q with turned := turns })).acqSnap vals else h

/-! ## Closing (R421, R424) -/

/-- Write the header of the segment in use; the record counts. -/
def Head.acqClose (h : Head) : Head :=
  let q := h.acq
  let w0 := 0x4143 * 65536 + b2n q.noTrig * 2 ^ 11 + b2n q.full * 2 ^ 10 + b2n q.trunc * 2 ^ 9 + 2 ^ 8 + q.cause % 256
  let ws : List Nat := [w0, q.start, q.stored, q.trigPos, q.trigStamp % 2 ^ 32, q.trigStamp / 2 ^ 32, q.dead,
    q.seq % 65536 * 65536 + (h.probes.map (2 ^ ·)).foldl (· + ·) 0]
  let b := h.acqBase
  let h := (h.acqWrite b (ws.map (BitVec.ofNat 32))).setAcq (fun q => { q with seq := q.seq + 1 })
  h.wrapFld ACQ_STAT_RECORDS

/-- Start a segment in state PRE. -/
def Head.acqSegment (h : Head) (seg dead : Nat) : Head :=
  let h := (h.put ACQ_STAT_SEG seg).setAcqState 1
  let b := h.acqBase
  (h.acqWrite b [0]).setAcq (fun q => { q with
    wr := 0, stored := 0, samples := 0, postLeft := 0, start := 0, trigPos := 0, trigStamp := 3
    cause := 0, noTrig := true, trunc := false, full := false, last := List.replicate 8 none, prev := none
    dtBase := h.now, snapWord := 0, turned := 0, dead := dead })

/-- RECORD_CLOSE at tick `t`: the header, then the next segment or DONE. -/
def Head.recordClose (h : Head) (t : Nat) : Head :=
  if h.acqState ≠ 3 then h
  else
    let h := (h.forward t).acqClose
    let seg := h.fld ACQ_STAT_SEG + 1
    if !h.acq.thenDone ∧ h.on ACQ_CFG_AUTO ∧ (seg < h.acqSegs ∨ h.on ACQ_CFG_RING) then
      let dead := min (2 ^ 32 - 1) ((h.now - h.acq.deadFrom.getD h.now) * 5)
      let h := (h.wr ACQ_DEAD dead).wr ACQ_DEAD_MAX (max dead (h.rd ACQ_DEAD_MAX))
      h.acqSegment (seg % h.acqSegs) dead
    else (h.setAcqState 4).setAcq (fun q => { q with thenDone := false })

/-! ## Triggers (R423) -/

/-- The condition of Table 18-5 at this sample. -/
def Head.acqCondition (h : Head) (vals : List (Nat × Nat)) : Bool :=
  let v : Option Nat := (vals.find? (fun x => x.1 == h.fld ACQ_TRIG_PROBE)).map (·.2)
  let level := h.rd ACQ_TRIG_LEVEL
  let s (x : Nat) : Int := sext 32 x
  match h.fld ACQ_TRIG_KIND, v with
  | 1, some x => decide (s x > s level)
  | 2, some x => decide (s x < s level)
  | 3, some x => h.acq.prev.any (fun p => decide (s p.toNat ≤ s level)) && decide (s x > s level)
  | 4, some x => h.acq.prev.any (fun p => decide (s p.toNat ≥ s level)) && decide (s x < s level)
  | 5, some x => band (bxor x level) (h.rd ACQ_TRIG_MASK) == 0
  | 6, _ => h.acq.events.any (fun e => e / 256 == level % 65536 / 256 && (level % 256 == 255 || e % 256 == level % 256))
  | 7, _ =>
    let ns := h.rd ACQ_TRIG_NS
    decide (nsOf ns (h.rd ACQ_TRIG_SEC) * 2 ^ 32 ≤ (match ns % 4 with | 0 => h.time.mt.at h.now | 1 => h.time.lt.at h.now | 2 => 5 * h.now * 2 ^ 32 | _ => 0)) &&
      ns % 4 != 3
  | _, _ => false

/-- The trigger sample: START, TRIG_POS, the stamp, POST samples from it on. `before` are the samples stored before it. -/
def Head.acqTrigger (h : Head) (cond : Bool) (n : Nat) : Head :=
  let pre := h.rd ACQ_PRE
  let area := max 1 h.acqArea
  let keep := if h.acqFull then (if h.acq.samples ≥ pre then pre * n else h.acq.stored) else min pre h.acq.stored
  let start := if h.acqFull ∧ h.acq.samples < pre then 0 else (h.acq.wr + area - keep % area) % area
  let st := h.stamp
  (h.setAcqState 2).setAcq (fun q => { q with
    stored := keep, start := start, trigPos := q.wr, trigStamp := st, noTrig := false, force := false
    cause := if cond then h.fld ACQ_TRIG_KIND else 0xFF, postLeft := max 1 (h.rd ACQ_POST) })

/-- Store one sample. -/
def Head.acqStore (h : Head) (vals : List (Nat × Nat)) (first trig : Bool) : Head :=
  let h : Head :=
    if h.acqFull then vals.foldl (fun (h : Head) x => h.acqPut x.2) h
    else if first ∨ trig then h.acqSnap vals
    else
      let h := h.acqChanges vals
      if h.acqState = 1 then h.acqHalf vals else h
  h.setAcq (fun q => { q with samples := q.samples + 1 })

/-- What every sample leaves for the next: the previous value of the trigger probe, no events. -/
def Head.acqAfter (h : Head) (vals : List (Nat × Nat)) : Head :=
  let v := (vals.find? (fun x => x.1 == h.fld ACQ_TRIG_PROBE)).map (fun x => BitVec.ofNat 32 x.2)
  h.setAcq (fun q => { q with prev := v, events := [] })

/-- A sample in PRE or POST. -/
def Head.acqTake (h : Head) (vals : List (Nat × Nat)) : Head :=
  let cond := h.acqCondition vals
  let pre := h.acqState == 1
  let trig := pre && (cond || h.acq.force)
  let first := h.acq.samples == 0
  let h := if h.acqFull then h else h.acqMarks 64
  let h := if trig then h.acqTrigger cond vals.length else h
  let h := h.acqStore vals first trig
  if h.acqState ≠ 2 then h
  else
    let left := h.acq.postLeft - 1
    let h := h.setAcq (fun q => { q with postLeft := left })
    if left = 0 then h.acqEnd else h

/-- ACQ_SAMPLE: the sample instant of this Bell (R415); `pins` are the levels of KIND 3. -/
def Head.acqSample (h : Head) (pins : Nat) : Head :=
  let div := max 1 (h.fld ACQ_RATE_DIV)
  if !h.bell.running ∨ (h.acqState = 0 ∨ h.acqState = 4) ∧ !h.acq.armPending then h
  else if !h.acq.armPending ∧ (h.bellNo + 2 ^ 32 - h.acq.armBell) % 2 ^ 32 % div ≠ 0 then h
  else
    let h := h.forward (h.instantTick (h.fld ACQ_RATE_OFS))
    let h : Head := if h.acq.armPending then
        (h.setAcq (fun q => { q with armPending := false, armBell := h.bellNo, seq := 0, deadFrom := none, thenDone := false })).acqSegment 0 0
      else h
    let vals := h.probes.map (fun k => (k, h.probeValue pins k))
    let h : Head :=
      if h.acqState = 3 then (if h.acqCondition vals then h.bump ACQ_MISSED else h)
      else h.acqTake vals
    h.acqAfter vals

/-! ## Commands (R423, R424) -/

/-- Why ARM is refused: 0 accepted, 1 wrong state, 2 a limit of Table 18-2, 3 no probe enabled. -/
def Head.armRefuse (h : Head) : Nat :=
  let n := h.probes.length
  let area := h.acqArea
  if h.acqState ≠ 0 ∧ h.acqState ≠ 4 then 1
  else if n = 0 then 3
  else if h.acqFull then (if n * (h.rd ACQ_PRE + h.rd ACQ_POST) > area then 2 else 0)
  else if h.rd ACQ_PRE > area / 2 then 2 else 0

/-- ARM. -/
def Head.acqArm (h : Head) : Head × Nat :=
  let r := h.armRefuse
  let h := h.put ACQ_CTL_REFUSE r
  if r ≠ 0 then (h, 6) else (h.setAcq (fun q => { q with armPending := true, force := false, events := [] }), 0)

/-- FORCE: the next sample triggers. In CLOSE it counts as missed. -/
def Head.acqForce (h : Head) : Head :=
  match h.acqState with
  | 1 => h.setAcq (fun q => { q with force := true })
  | 3 => h.bump ACQ_MISSED
  | _ => if h.acq.armPending then h.setAcq (fun q => { q with force := true }) else h

/-- STOP: the record closes with TRUNC, or with NO_TRIG before any trigger, and the engine enters DONE. -/
def Head.acqStop (h : Head) : Head :=
  match h.acqState with
  | 1 => (h.setAcq (fun q => { q with noTrig := true, trigStamp := 3, force := false })).acqClose.setAcqState 4
  | 2 => (h.setAcq (fun q => { q with trunc := true })).acqClose.setAcqState 4
  | 3 => h.setAcq (fun q => { q with thenDone := true })
  | _ => h.setAcq (fun q => { q with armPending := false, force := false })

/-- The engine stops for a reload or a yield: a running record closes with TRUNC, a CLOSE completes, no re-arm (R76, R426). -/
def Head.acqHalt (h : Head) : Head :=
  match h.acqState with
  | 1 => (h.setAcq (fun q => { q with trunc := true, trigStamp := 3 })).acqClose.setAcqState 4
  | 3 => (h.acqClose.setAcqState 4).setAcq (fun q => { q with thenDone := false })
  | _ => h.acqStop

/-- A write of ACQ_CTL: ARM, STOP, FORCE. -/
def Head.writeAcqCtl (h : Head) (v : Nat) : Head × Nat :=
  let r : Head × Nat := if bit v 0 then h.acqArm else (h, 0)
  if r.2 ≠ 0 then r
  else
    let h := if bit v 1 then r.1.acqStop else r.1
    (if bit v 2 then h.acqForce else h, 0)

/-- A write of a setup or probe register: only in IDLE or DONE, within its range (R417, Table 18-6). -/
def Head.writeAcqCfg (h : Head) (a v : Nat) : Head × Nat :=
  let idle := h.acqState == 0 || h.acqState == 4
  let probe := 0x100100 ≤ a ∧ a % 16 = 0
  if !idle then (h, 6)
  else if probe ∧ v % 4 = 1 ∧ !probeAddrOk (v / 1024 * 4) then (h, 6)
  else if probe ∧ !probeSrcOk (v % 4) (v / 256) then (h, 7)
  else if a = ACQ_CFG ∧ (v % 4 > 1 ∨ bits v 6 4 > 6) then (h, 7)
  else if a = ACQ_RATE ∧ (v % 65536 = 0 ∨ v / 65536 ≥ h.bellTicks) then (h, 7)
  else if a = ACQ_POST ∧ (v = 0 ∨ v > 65535) then (h, 7)
  else if a = ACQ_TRIG ∧ v % 16 > 7 then (h, 7)
  else
    let keep := if a = ACQ_CFG then h.rd a - h.rd a % 128 + v % 128
      else if a = ACQ_TRIG then v % 128
      else if probe then v / 256 * 256 + v % 8
      else v
    (h.wr a keep, 0)

/-- A write of the trigger time (R10, R11). -/
def Head.writeAcqTime (h : Head) (ns sec : Nat) : Head × Nat :=
  if h.acqState ≠ 0 ∧ h.acqState ≠ 4 then (h, 6)
  else if bits ns 31 2 ≥ 10 ^ 9 ∨ ns % 4 = 3 then (h, 7)
  else ((h.wr ACQ_TRIG_NS ns).wr ACQ_TRIG_SEC sec, 0)

end Sys2Proof.Machine
end

