-- ==== Sys2Proof/Machine/Moves.lean ====
section
/-! DEFINITION. The move queue from outside (R267, R270, R271) and AX_POS_SET (R273). -/

namespace Sys2Proof.Machine

/-- The entry that the staging registers spell (AX_MV_TGT to AX_MV_MODE). -/
def Head.stagedMove (h : Head) (n : Nat) : MoveEntry :=
  let mode := h.pendingRd (AX_MV_MODE n)
  let typ := bits mode 3 0
  let vel := h.pendingRd (AX_MV_VEL n)
  { id := bits mode 31 16, typ := typ, dirm := bits mode 5 4, blend := bit mode 8
    target := sext 48 (pairOf (h.pendingRd (AX_MV_TGT_LO n)) (h.pendingRd (AX_MV_TGT_HI n)))
    vel := (if typ = 2 then sext 32 vel else (vel : Int)) * 256
    acc := h.pendingRd (AX_MV_ACC n), dec := h.pendingRd (AX_MV_DEC n), ready := none }

/-- Where the axis stands once every entry queued so far has ended, for the target of a relative move. -/
def Head.queueEnd (h : Head) (n : Nat) : Int :=
  let m := h.mot n
  let modulo := h.rd (AX_MODULO n)
  let start := match m.run with | some r => if r.entry.typ = 2 then m.pRef else r.target | none => m.pRef
  m.queue.foldl (fun (p : Int) (x : MoveEntry) => if x.typ = 2 then p else wrapPos modulo (p + entryLeft modulo p x)) start

/-- Why a push is refused, in the order of R267's list: AX_MV_CTL.REFUSE, 0 accepted. -/
def Head.pushRefuse (h : Head) (n : Nat) : Nat :=
  let x := h.stagedMove n
  let m := h.mot n
  let to_ := if x.typ = 1 then h.queueEnd n + x.target else x.target
  if h.fld (AX_CTL_CTRL n) ≠ 2 then 4
  else if m.queue.length ≥ 8 then 1
  else if x.typ > 2 ∨ x.dirm = 3 then 2
  else if x.acc = 0 ∨ x.dec = 0 ∨ x.vel = 0 then 2
  else if x.typ < 2 ∧ h.rd (AX_MODULO n) = 0 ∧ (to_ < h.rdInt (AX_POS_MIN n) * 65536 ∨ to_ > h.rdInt (AX_POS_MAX n) * 65536) then 3
  else if h.mstate n = 4 then 5
  else 0

/-- Why RESUME is refused (R271). In CTRL 1 it needs no remainder. -/
def Head.resumeRefuse (h : Head) (n : Nat) : Nat :=
  let ms := h.mstate n
  let c := h.fld (AX_CTL_CTRL n)
  if !h.enabled n then 7
  else if h.stopStands n then 5
  else if c ≠ 1 ∧ c ≠ 2 then 4
  else if ms ≠ 3 ∧ ms ≠ 0 then 6
  else if c = 2 ∧ (h.mot n).remain.isNone then 6
  else 0

/-- FLUSH is accepted in STOPPED and IDLE only (Table 11-4). -/
def Head.flushRefuse (h : Head) (n : Nat) : Nat := if h.mstate n = 3 ∨ h.mstate n = 0 then 0 else 6

/-- A write of AX_MV_CTL: refused whole with REFUSE, or accepted for the next Bell edge. A push takes its entry now,
and of two writes before one edge the last counts (Table 19-8). -/
def Head.writeMvCtl (h : Head) (n v : Nat) : Head × Nat :=
  let p := if bit v 0 then h.pushRefuse n else 0
  let r := if bit v 3 then h.resumeRefuse n else 0
  let f := if bit v 4 then h.flushRefuse n else 0
  let why := if p ≠ 0 then p else if r ≠ 0 then r else f
  let h := h.put (AX_MV_CTL_REFUSE n) why
  if why ≠ 0 then (h, if why = 2 ∨ why = 3 then 7 else 6)
  else
    let h := h.setMot n (fun m => { m with pushed := if bit v 0 then [h.stagedMove n] else [] })
    (h.shadow (AX_MV_CTL n) (bits v 4 0), 0)

/-- RESUME at its edge: the interrupted entry runs again from the present p_ref to its original target. -/
def Head.resumeMove (h : Head) (n : Nat) : Head :=
  if h.stopStands n ∨ !h.enabled n then h
  else
    h.setMot n (fun m =>
      let modulo := h.rd (AX_MODULO n)
      let run := m.remain.map (fun r =>
        MoveRun.moved modulo m.pRef m.pRef r)
      { m with halted := 0, remain := none, run := if run.isSome then run else m.run })

/-- AX_MV_CTL at its Bell edge. -/
def Head.edgeMvCtl (h : Head) (n v : Nat) : Head :=
  let h := if bit v 0 then h.setMot n (fun m => { m with queue := m.queue ++ m.pushed, pushed := [] }) else h
  let h := if bit v 1 then h.stopMove n (h.fld (AX_CTL_CTRL n)) (h.rd (AX_STOP_DEC n)) 1 else h
  let h := if bit v 2 then h.stopMove n (h.fld (AX_CTL_CTRL n)) (h.rd (AX_QSTOP_DEC n)) 1 else h
  let h := if bit v 3 then h.resumeMove n else h
  let h := if bit v 4 then h.setMot n (fun m => { m with queue := [], remain := none, halted := 0 }) else h
  h.motionShow n

/-- MOVE_PLANNED: the planning task of the axis finishes the oldest entry in PLANNING. -/
def Head.movePlanned (h : Head) (n : Nat) : Head :=
  let b := h.bellNo
  h.setMot n (fun m => { m with queue := (m.queue.foldl (fun (a : List MoveEntry × Bool) x =>
      if a.2 ∨ x.ready.isSome then (a.1 ++ [x], a.2) else (a.1 ++ [{ x with ready := some b }], true)) ([], false)).1 })

/-- A write of AX_POS_SET_HI with the held lower half (R273); a value outside the limits of a linear axis is refused, as p_ref stays within
them (R266). -/
def Head.writePosSet (h : Head) (n v : Nat) : Head × Nat :=
  let x := sext 64 v
  if h.mstate n = 1 ∨ h.mstate n = 2 ∨ h.fld (AX_CTL_CTRL n) = 3 then (h, 6)
  else if x ≠ sext 48 v then (h, 7)
  else if h.rd (AX_MODULO n) = 0 ∧ (x < h.rdInt (AX_POS_MIN n) * 65536 ∨ x > h.rdInt (AX_POS_MAX n) * 65536) then (h, 7)
  else ((h.setMot n (fun m => { m with posSet := some x })).shadow (AX_POS_SET_HI n) (v / 2 ^ 32), 0)

/-- AX_POS_SET at its Bell edge: p, p_ref and p_m take the value, and later changes of POS add to it. -/
def Head.edgePosSet (h : Head) (n : Nat) : Head :=
  match (h.mot n).posSet with
  | none => h
  | some x =>
    let x := wrapPos (h.rd (AX_MODULO n)) x
    let h := h.setMot n (fun m => { m.refTo (h.rd (AX_MODULO n)) x with
      posOffset := m.posOffset + (x - m.p), p := x, pm := x, posSet := none })
    let h := h.setMailLong n 0x10 x
    (if h.isStepper n then h.put (AX_MSTAT_REFD n) 1 else h).motionShow n

end Sys2Proof.Machine
end

