-- ==== Sys2Proof/Machine/LineLink.lean ====
section
/-! DEFINITION. The line link (R89, R95, R397): what arrives on LL0 and LL1, what is forwarded, the publications of masters
(R284 to R286), and the one reception of a frame on any lane. -/

namespace Sys2Proof.Machine

/-! ## Publications (R284 to R286) -/

/-- MASTER_PUB of VM `v`; `busy` says that LL1 found no gap before the next publication instant (R285). -/
def Head.masterPub (h : Head) (v : Nat) (busy : Bool) : Head :=
  let x := h.vm v
  let h := h.forward h.bell.edge
  if !h.on (VM_CFG_PUB v) ∨ h.substitute ∨ !h.bell.running ∨ h.bellNo % max 1 (h.fld (VM_PUB_PUB_DIV v)) ≠ 0 then h
  else
    let h := if x.unsent then h.bump (VM_PUB_SKIP v) else h
    if busy then h.setVm v (fun x => { x with unsent := true })
    else
      let st := stampOf h.bell.instant 0
      let ps := min 3 (h.fld (VM_STAT_STATE v))
      let m := toBits 64 x.m
      let q := (x.pubSeq + 1) % 65536
      let words : List Nat := [h.headNo * 2 ^ 24 + ps * 65536 + h.bellTicks % 65536, st % 2 ^ 32, st / 2 ^ 32, m % 2 ^ 32, m / 2 ^ 32,
        toBits 32 x.v, toBits 32 x.a, h.rd (VM_MCYC v)]
      (h.setVm v (fun x => { x with unsent := false, pubSeq := q })).sendLine 0xD false (mirrorWord 0x40 v q :: words.map (BitVec.ofNat 32))

/-- The publication of a frame of TYPE 0x40. -/
def pubOf (ws : List Word) : MasterPub :=
  { seq := wordAt ws 0 % 65536
    pstate := bits (wordAt ws 1) 17 16
    bt := wordAt ws 1 % 65536
    t0 := nsOf (wordAt ws 2) (wordAt ws 3)
    m0 := sext 64 (pairOf (wordAt ws 4) (wordAt ws 5))
    v0 := sext 32 (wordAt ws 6)
    a0 := sext 32 (wordAt ws 7) }

/-- VM `v` reads a publication as it passes (R286): the newest by SEQ; another MCYC counts as a mismatch. One whose T0 is no domain-0
time is not acted on (R11, R287). -/
def Head.vmPub (h : Head) (ws : List Word) (v : Nat) : Head :=
  if h.fld (VM_CFG_SRC v) ≠ 3 ∨ h.fld (VM_CFG_SRC_HEAD v) ≠ bits (wordAt ws 1) 31 24 ∨ h.fld (VM_CFG_SRC_IDX v) ≠ bits (wordAt ws 0) 23 16 then h
  else if wordAt ws 8 ≠ h.rd (VM_MCYC v) then h.bump (VM_LINE_MISMATCH v)
  else if wordAt ws 2 % 4 ≠ 0 then h
  else
    let p := pubOf ws
    if (h.vm v).pub.any (fun o => !epochNewer p.seq o.seq) then h else h.setVm v (fun x => { x with pub := some p })

/-! ## Frames on LL0 and LL1 -/

/-- Forward a frame from LL0 to LL1 (R95): unchanged, or with /V/ in place of its invalid code groups (R86). -/
def Head.forwardLine (h : Head) (broken : Bool) (f : Frame) : Head := h.sendAs 9 broken f

/-- The frame is pair traffic for this head, or its own come round again (R397). -/
def Head.mineOnLine (h : Head) (f : Frame) : Bool := fStation f == h.ring * 256 || fSlot f == h.ring

/-- Pair traffic: heartbeats and mirror frames of TYPE 0x01 to 0x3F and 0x50. -/
def pairTraffic (f : Frame) : Bool :=
  let t := bits (wordAt f.payload 0) 31 24
  fKind f == 0xC || (fKind f == 0xD && ((decide (1 ≤ t) && decide (t ≤ 0x3F)) || t == 0x50))

/-- The frame goes on to LL1: it is not for this head alone, nor its own come round again, nor one of the time types that each head
consumes (R95, R166, R285, R397). -/
def Head.lineOnward (h : Head) (f : Frame) : Bool :=
  let t := bits (wordAt f.payload 0) 31 24
  if pairTraffic f then !h.mineOnLine f
  else if t = 0x40 then !(bits (wordAt f.payload 1) 31 24 == h.headNo && !h.substitute)
  else t != 0x51 && t != 0x52 && t != 0x53

/-- What the head does with a frame on LL0 that passed checks 1 to 5 and is stored (R166, R285, R397); `done` is the tick of its
completion. -/
def Head.lineFrame (h : Head) (r : RxFrame) (done : Nat) : Head :=
  let f := r.frame
  let t := bits (wordAt f.payload 0) 31 24
  let h := if fStation f = h.ring * 256 then h.seeEpoch (fEpoch f) else h
  if pairTraffic f then
    if fStation f ≠ h.ring * 256 then h
    else if fKind f = 0xC then h.heartbeatTake f done
    else h.mirrorTake f
  else if t = 0x40 then (List.range 8).foldl (fun (h : Head) v => h.vmPub f.payload v) h
  else if t = 0x51 then h.takeSync r.stamp
  else if t = 0x52 then h.takeFollow (f.payload.drop 1)
  else h

/-- A LINK_ECHO request of the neighbour at LL1, answered there with the stamps of its arrival and of the answer (R166). -/
def Head.answerEcho (h : Head) (r : RxFrame) (done : Nat) : Head :=
  let f := r.frame
  if fKind f = 0xD ∧ bits (wordAt f.payload 0) 31 24 = 0x53 then
    h.send 9 (mkFrame (headWord0 (h.ring * 256 + 255) 0xD 3 false false false) (headWord1 h.ownEpoch h.bellNo h.ring)
      [f.payload.headD 0, BitVec.ofNat 32 r.stamp, BitVec.ofNat 32 (done * 25 / 4 + h.txDelay 9)])
  else h

/-- A frame on the line link (R102, R103): a damaged one is counted, and LL0's still goes on to LL1, with /V/ for a bad code group (R86);
so does a good one that finds no free bank, of which only the stored copy is lost (R14). -/
def Head.lineReceive (h : Head) (r : RxFrame) (done : Nat) : Head :=
  let lane := r.lane.val
  match frameFault r with
  | some k =>
    let h := h.countFault lane k
    if lane = 8 then h.forwardLine (k == 1 && r.broken) r.frame else h
  | none =>
    let h := if lane = 8 ∧ h.lineOnward r.frame then h.forwardLine false r.frame else h
    if h.banksFull lane then h.overrunLane lane
    else
      let h := h.bank lane r.frame
      if lane = 8 then h.lineFrame r done else h.answerEcho r done

/-- What every frame on a lane that is UP brings first: the tick of its completion, the invalid code groups (R81), the banks that the
reader has freed meanwhile (R14). -/
def Head.arrive (h : Head) (r : RxFrame) : Head :=
  ((h.forward (rxDone r)).bumpBy (LANE_CV r.lane.val) r.invalid).freeBanks r.lane.val r.freed

/-- A frame received on any lane that is UP; its stamp is taken at the medium boundary (R169). -/
def Head.receive (h : Head) (r : RxFrame) : Head :=
  if !h.laneUp r.lane.val then h
  else if r.lane.val < 8 then (h.arrive r).fieldReceive (h.atBoundary r) else (h.arrive r).lineReceive (h.atBoundary r) (rxDone r)

/-- IDLE_INSERT_DELETE on LL0 or LL1 (R89). -/
def Head.elastic (h : Head) (lane : Nat) : Head :=
  if (lane = 8 ∨ lane = 9) ∧ h.laneUp lane then h.bump (LANE_ELASTIC lane) else h

end Sys2Proof.Machine
end

