-- ==== Sys2Proof/Machine/Background.lean ====
section
/-! DEFINITION. Background services (chapter 20): the ECC scrub, telemetry, recalibration, checkpoints of the event log. What the
log writes into the flash stands with the flash. -/

namespace Sys2Proof.Machine

def Head.setLog (h : Head) (f : Log → Log) : Head := { h with log := f h.log }

/-! ## ECC scrub (R449) -/

/-- Tasks whose code or windows cover a word of engine memory: descriptor words 5 to 7 give the X, Y and C windows, and they stand on the
engine that ran the task last (R215). -/
def Head.tasksOver (h : Head) (f : ScrubFind) : List Nat :=
  h.recipeTasks.filter (fun t => ((h.task t).ranOn).getD (h.taskHome t) == f.engine &&
    (if f.mem = 0 then f.code.contains t
     else
      let w := h.desc t (4 + f.mem)
      decide (bits w 31 16 ≤ f.offset ∧ f.offset < bits w 31 16 + bits w 15 0)))

/-- The word of engine memory that the scrub found, as the error lists of an engine number it. -/
def findWord (f : ScrubFind) : Nat × Nat := (f.mem, f.offset)

/-- An uncorrectable error by its region. Until a store replaces it, a word of engine memory faults every instruction that reads it (R202). -/
def Head.eccBad (h : Head) (f : ScrubFind) : Head :=
  let h := if f.region = 0 then h.setEngine f.engine (fun g => { g with bad := findWord f :: g.bad.erase (findWord f) }) else h
  let h := (h.bump BKG_ECC_UNC).wr BKG_ECC_ADDR (f.region % 16 * 2 ^ 28 + f.addr % 2 ^ 24)
  let h := h.raise 9 1 f.region
  let ts := h.tasksOver f
  if f.region = 0 ∧ !ts.isEmpty then
    ts.foldl (fun (h : Head) t =>
      match (List.range 16).find? (fun e => (h.engine e).mode != .idle && !(h.engine e).bench && (h.engine e).tid == t) with
      | some e => h.engineFault e 5
      | none => (((h.wr (LE_FAULT f.engine) (5 * 2 ^ 24 + t % 1024 * 2 ^ 14 + (h.engine f.engine).pc % 0x2000)).failTask t 1 5).raise 0 5 0)) h
  else if f.region = 5 then { h with boot := { h.boot with want := setBit h.boot.want 0 } }
  else match f.host with
    | some a => if h.ecc.contains a then h else { h with ecc := h.ecc ++ [a] }
    | none => h

/-- Single-bit errors that struck words of engine memory since the last step. -/
def Head.upset (h : Head) (x : Nat × Nat × Nat) : Head :=
  h.setEngine x.1 (fun g => { g with flawed := x.2 :: g.flawed.erase x.2 })

/-- SCRUB_STEP. A single-bit error that the scrub corrects in engine memory counts in LE_ECC too (notes/assumptions/67.md). -/
def Head.scrubStep (h : Head) (f : ScrubFind) : Head :=
  let h := f.upsets.foldl Head.upset h
  let h := if f.corrected ∧ f.region = 0 then (h.setEngine f.engine (fun g => { g with flawed := g.flawed.erase (findWord f) })).bump (LE_ECC f.engine) else h
  let h := if f.corrected then (h.bump BKG_ECC_CORR).setLog (fun l => { l with scrubCorr := l.scrubCorr + 1 }) else h
  let h := if f.bad then h.eccBad f else h
  if !f.wrap then h
  else
    let d := h.now - h.log.scrubStart
    let h := (h.wrapFld BKG_SCRUB_PASSES).put BKG_SCRUB_PASS_MS (min 65535 (d / 200000))
    let h := if d > 2600000000 then h.raise 9 4 0 else h
    let h := if h.log.scrubCorr > 16 then h.raise 9 0 (h.fld BKG_ECC_ADDR_REGION) else h
    h.setLog (fun l => { l with scrubStart := h.now, scrubCorr := 0 })

/-! ## Telemetry (R451, R53) -/

/-- The ranges of Table 02-8 in µV for rails CORE, SDS, VDDA_SD, VDD_18, VDD_IO. -/
def railRange : List (Nat × Nat) := [(824500, 875500), (873000, 927000), (1710000, 1890000), (1710000, 1890000), (3135000, 3465000)]

/-- The rail lies outside its range by more than 2 %. -/
def railOut (uv : Nat) (r : Nat × Nat) : Bool := decide (uv * 100 < r.1 * 98 ∨ uv * 100 > r.2 * 102)

/-- One rail of a sweep: three readings outside in a row raise SUPPLY. -/
def Head.railSweep (h : Head) (r uv : Nat) : Head :=
  let n := if railOut uv (railRange.getD r (0, 0)) then nth h.log.railRuns r + 1 else 0
  let h := (h.wr (BKG_SUP r) (min 65535 (uv / 1000))).setLog (fun l => { l with railRuns := l.railRuns.set r (min 4 n) })
  if n = 3 then h.raise 9 2 r else h

/-- The temperature in 0.1 °C against the thresholds of R53, with their 5 °C of hysteresis. -/
def Head.tempSweep (h : Head) (t : Int) : Head :=
  let h := h.put BKG_TEMP_NOW (toBits 16 (satInt 16 t))
  let h := if t > sext 16 (h.fld BKG_TEMP_MAX_MAX) then h.put BKG_TEMP_MAX_MAX (toBits 16 (satInt 16 t)) else h
  let h := if t ≥ 1150 ∧ !h.log.warm then h.raise 0 0 0 else h
  let h := if t ≥ 1250 ∧ !h.log.hot then h.raise 0 1 0 else h
  h.setLog (fun l => { l with
    warm := decide (t ≥ 1150) || (l.warm && decide (t > 1100)), hot := decide (t ≥ 1250) || (l.hot && decide (t > 1200)) })

/-- The hour counters: 10 ms of operation, and of heat at 105 °C or more. -/
def Head.hourSweep (h : Head) (t : Int) : Head :=
  let m := h.log.minuteMs + 10
  let x := h.log.hotMs + (if t ≥ 1050 then 10 else 0)
  let h := h.setLog (fun l => { l with minuteMs := m % 60000, hotMs := x % 60000 })
  let h := if m ≥ 60000 then h.bump BKG_HOURS else h
  if x ≥ 60000 then
    let h := h.bump BKG_HOT
    if h.rd BKG_HRS_LIM ≠ 0 ∧ h.rd BKG_HOT = h.rd BKG_HRS_LIM then h.raise 9 7 0 else h
  else h

/-- TELEMETRY: the sweep at the next 10 ms of Machine Time. `temp` is in 0.1 °C, the rails in µV. -/
def Head.telemetry (h : Head) (temp : Int) (rails : List Nat) : Head :=
  let k := h.mtNs / 10000000 + 1
  let h := h.forward (h.time.mt.tickOf (k * 10000000 * 2 ^ 32))
  let h := (rails.take 5).zipIdx.foldl (fun (h : Head) r => h.railSweep r.2 r.1) h
  (h.tempSweep temp).hourSweep temp

/-! ## Recalibration (R450) -/

/-- A correction outside its plausible range: the last value stays, the bit is set, CAL_FAULT raised. -/
def Head.calFault (h : Head) (k : Nat) : Head := (h.orReg BKG_CAL (2 ^ k)).raise 9 3 k

/-- The trim words in use behind correction `k`: those of a lane, or from 10 on those of an ADC input (Table 03-10). -/
def Head.calTrim (h : Head) (k : Nat) : List Word :=
  (if k < 10 then (List.range 4).map (8 + 4 * k + ·) else [48 + 2 * (k - 10), 49 + 2 * (k - 10)]).map (fun i => BitVec.ofNat 32 (h.trimUsed i))

/-- Correction `k` stays in its plausible range about the trim value. -/
def Head.calHolds (h : Head) (k : Nat) (v : Int × Int) : Bool := Config.calPlausible (h.calTrim k) k v.1 v.2

/-- At most one step either way. -/
def oneStep (x : Int) : Int := max (-1) (min 1 x)

/-- What a calibration round finds on lane `n`: a step of at most one for the next Bell edge, or a failed reference. -/
def Head.calLane (c : CalRound) (h : Head) (n : Nat) : Head :=
  match c.lanes.getD n (some (0, 0)) with
  | none => h.calFault (n + 1)
  | some d =>
    let v := h.log.laneCorr.getD n (0, 0)
    let next := (v.1 + oneStep d.1, v.2 + oneStep d.2)
    if h.calHolds n next then h.setLog (fun l => { l with laneNext := l.laneNext.set n next }) else h.calFault (n + 1)

/-- RECALIBRATION. A lane's correction waits for the Bell edge. -/
def Head.recalibrate (h : Head) (c : CalRound) : Head :=
  let adc := (c.adc.take 8).zipIdx.map (fun x => x.1.filter (h.calHolds (10 + x.2)))
  let h := if adc.any (·.isNone) then h.calFault 0 else h
  let h := h.setLog (fun l => { l with adcCorr := l.adcCorr.zipIdx.map (fun x => ((adc.getD x.2 none).getD x.1)) })
  h.lanesUsed.foldl (Head.calLane c) h

/-- The lanes' corrections at a Bell edge. -/
def Head.calEdge (h : Head) : Head := h.setLog (fun l => { l with laneCorr := l.laneNext })

/-! ## The log's counters (R452, R454) -/

/-- A checkpoint of the counters, as a record that waits. -/
def Head.checkpointRec (h : Head) : LogRec := ⟨3, h.stamp, h.log.epoch, 0, h.rd BKG_HOURS, h.rd BKG_HOT, h.now⟩

/-- LOG_CHECKPOINT: every 10 minutes. -/
def Head.logCheckpoint (h : Head) : Head :=
  let h := h.forward (h.log.lastCheckpoint + 120000000000)
  let h := h.setLog (fun l => { l with lastCheckpoint := h.now })
  h.logAdd 3 h.log.epoch (h.rd BKG_HOURS) (h.rd BKG_HOT)

end Sys2Proof.Machine
end

