-- ==== Sys2Proof/Machine/Boot.lean ====
section
/-! DEFINITION. Start-up and changeover as the host commands them (chapter 03): the directory, reload requests, host loads, flash
operations, key programming, what follows a failed load. The loads themselves stand with the flash. -/

namespace Sys2Proof.Machine

def Head.setBoot (h : Head) (f : Boot → Boot) : Head := { h with boot := f h.boot }

/-- The state of the head: SYS_STATUS.STATE. -/
def Head.sysState (h : Head) : Nat := h.fld SYS_STATUS_STATE

/-- Maintenance mode or NO_RECIPE. -/
def Head.serviceState (h : Head) : Bool := h.sysState == 6 || h.sysState == 7

/-! ## The directory (R57 to R59) -/

/-- The 256 bytes of a directory copy (Table 03-3). -/
def Directory.bytes (d : Directory) : List Nat :=
  let body := leBytes 4 0x52494453 ++ leBytes 4 d.seq ++ [d.selSlot % 256, d.fallback % 256, d.slotCount % 256, 0] ++
    leBytes 4 d.slotBase ++ leBytes 4 d.slotSize ++ leBytes 4 d.logBase ++ leBytes 4 d.logSize ++ leBytes 4 d.read ++
    leBytes 4 d.sizeLog2
  let body := body ++ List.replicate (252 - body.length) 0
  body ++ leBytes 4 (crc32 body).toNat

/-- A number is a power of two within bounds given as exponents. -/
def powerWithin (n lo hi : Nat) : Bool := (List.range (hi + 1)).any (fun k => lo ≤ k && n == 2 ^ k)

/-- Two ranges of bytes, each as base and length, do not overlap. -/
def apart (a la b lb : Nat) : Bool := decide (a + la ≤ b ∨ b + lb ≤ a)

/-- Every field of a directory copy is in range, and the regions do not overlap (R58). -/
def Directory.ok (d : Directory) : Bool :=
  let slots := d.slotCount * d.slotSize
  d.selSlot < 16 && (d.fallback < 16 || d.fallback == 255) && 1 ≤ d.slotCount && d.slotCount ≤ 16 &&
    d.slotBase % 65536 == 0 && 65536 ≤ d.slotBase && powerWithin d.slotSize 16 23 && powerWithin d.logSize 16 22 &&
    d.logBase % d.logSize == 0 && 65536 ≤ d.logBase && bits d.read 14 13 != 3 && 2 ≤ bits d.read 19 16 && bits d.read 15 15 == 0 &&
    21 ≤ d.sizeLog2 && d.sizeLog2 ≤ 26 && d.slotBase + slots ≤ 2 ^ d.sizeLog2 && d.logBase + d.logSize ≤ 2 ^ d.sizeLog2 &&
    apart d.slotBase slots d.logBase d.logSize && apart 0 8192 d.slotBase slots && apart 0 8192 d.logBase d.logSize

/-- A directory copy read from its 256 bytes; none when it is not valid (R58). -/
def parseDirectory (copyB : Bool) (b : List Nat) : Option Directory :=
  let w (o : Nat) : Nat := leWord ((b.drop o).take 4)
  let reserved := nth b 11 + (w 0x1C) / 2 ^ 20 + w 0x20 / 256 + ((b.take 252).drop 0x24).foldl (· + ·) 0
  let d : Directory := { copyB := copyB, seq := w 4, selSlot := nth b 8, fallback := nth b 9, slotCount := nth b 10
                         slotBase := w 0x0C, slotSize := w 0x10, logBase := w 0x14, logSize := w 0x18, read := w 0x1C % 2 ^ 20
                         sizeLog2 := nth b 0x20 }
  if w 0 = 0x52494453 ∧ w 252 = (crc32 (b.take 252)).toNat ∧ reserved = 0 ∧ d.ok then some d else none

/-- The copy in force of two (R58). -/
def chooseDirectory : Option Directory → Option Directory → Option Directory
  | some a, some b =>
    let d := toBits 32 ((a.seq : Int) - b.seq)
    if 1 ≤ d ∧ d ≤ 2 ^ 31 - 1 then some a else some b
  | some a, none => some a
  | none, b => b

/-- The directory in force shows in BOOT_SLOT and BOOT_FLASH. -/
def Head.showDirectory (h : Head) : Head :=
  match h.boot.dir with
  | some d => ((h.put BOOT_SLOT_SEL d.selSlot).put BOOT_SLOT_FALLBACK d.fallback).put BOOT_FLASH_READ d.read
  | none => h

/-- A write of BOOT_SLOT; UPDATE begins to rewrite the copy not in use, with SEQ one higher (R59). -/
def Head.writeSlot (h : Head) (v : Nat) : Head × Nat :=
  let sel := bits v 7 0
  let fb := bits v 15 8
  if bit v 16 ∧ (h.boot.dir.isNone ∨ h.boot.dirOp.isSome) then (h, 6)
  else if sel > 15 ∨ (fb > 15 ∧ fb ≠ 255) then (h, 7)
  else
    let h := (h.put BOOT_SLOT_SEL sel).put BOOT_SLOT_FALLBACK fb
    match h.boot.dir, bit v 16 with
    | some d, true =>
      let n : Directory := { d with copyB := !d.copyB, seq := (d.seq + 1) % 2 ^ 32, selSlot := sel, fallback := fb }
      ((h.setBoot (fun b => { b with dirOp := some (.directory n.copyB n.bytes) })).put BOOT_SLOT_UPDATE 1, 0)
    | _, _ => (h, 0)

/-! ## The network starts (R56, R74) -/

/-- A head alone starts Roll Call; one of a pair listens first (R402), with the transmitters of its lanes enabled, without which no lane
reaches UP and nothing is heard (notes/assumptions/95.md). -/
def Head.startNetwork (h : Head) : Head :=
  let h := h.setBoot (fun b => { b with held := false })
  if h.paired then (h.lanesUsed.foldl (fun (h : Head) n => h.enableLane n) h).listen else h.rollCallStart

/-- BOOT_RELEASE.GO: it acts in state HELD only. -/
def Head.writeRelease (h : Head) (v : Nat) : Head × Nat :=
  (if bit v 0 ∧ h.sysState = 2 then h.startNetwork else h, 0)

/-! ## A load fails (R68, R69, R73, R74) -/

/-- Blocks whose registers no recipe fills: SYS, BOOT, LANE, TIME, SAFE, HOST, BKG. -/
def ownBlock (a : Nat) : Bool := [0, 1, 2, 3, 0x0E, 0x12, 0x13].contains (a / 65536)

/-- Registers of those blocks that a recipe's TIME and SAFETY sections fill: the steering, F_LT, PPS, triggers, the axis map. -/
def recipeOwn (a : Nat) : Bool :=
  [TIME_LT_ADDEND, TIME_MT_CTL, TIME_PPS_CTL, SAFE_RECIPE_SIG].contains a || decide (0x30100 ≤ a ∧ a < 0x30180) ||
    decide (SAFE_AXMAP 0 ≤ a ∧ a < SAFE_AXMAP 260)

/-- The TIME unit without a recipe: both scales run on, Line Time with F_LT 0; nothing steers, no trigger or PPS pulse is due. -/
def Head.timeCleared (h : Head) : TimeUnit :=
  { TimeUnit.initial with
    mt := h.time.mt, lt := h.time.lt.setF h.now 0, wdLevel := h.time.wdLevel
    steer := { Steering.initial with started := h.time.steer.started, keptAt := h.time.steer.keptAt, syncEven := h.time.steer.syncEven } }

/-- No recipe is in force any more: lanes idle, no Bell, every target cleared (R68). Node requests that were taken end as at any end of
the Recess (R434). -/
def Head.enterNoRecipe (h : Head) : Head :=
  let h := h.recessAbort
  let z := Head.initial
  let kept := { z with
    now := h.now, regs := h.regs.filter (fun e => ownBlock e.1 && !recipeOwn e.1), latches := h.latches, holds := h.holds, draws := h.draws
    pins := h.pins, boot := { h.boot with recipe := none, reload := .none, held := false }
    bell := { Bell.initial with first := h.bell.first }, time := h.timeCleared, core := h.core, host := h.host, log := h.log, ecc := h.ecc
    mst := { Mst.initial with events := h.mst.events }
    red := { Red.initial with newest := h.red.newest } }.put RED_STAT_EPOCH (h.fld RED_STAT_EPOCH) |>.put RED_CFG_SIDE (h.fld RED_CFG_SIDE)
  let k := ((kept.lanesOff.put SYS_STATUS_STATE 6).put BOOT_STATUS_LOADED 0).put BOOT_RELOAD_BUSY 0
  ((k.put LANE_TOPO_TOPO_A 0).put LANE_TOPO_TOPO_B 0).put LANE_TOPO_LL_USED 0

/-- BOOT_FAIL takes a failure. -/
def Head.noteFail (h : Head) (code sec : Nat) : Head :=
  ((h.put BOOT_FAIL_SECTION sec).put BOOT_FAIL_CODE code).put BOOT_STATUS_FAILED 1

/-- A load ended with a failure code of Table 03-6. A first failure at start-up tries the fallback slot once (R69); one of a
reload loads the slot in force before (R73); one in NO_RECIPE changes nothing else (R74). -/
def Head.loadFail (h : Head) (code sec : Nat) : Head :=
  match h.boot.reload with
  | .none =>
    let first : Bool := h.boot.attempt == 0
    let h : Head := if first then h.noteFail code sec else h
    let fb : Nat := match h.boot.dir with | some d => d.fallback | none => 255
    if first ∧ fb ≠ 255 ∧ h.fld SYS_STRAP_BOOT_MODE < 2 then
      ((h.setBoot (fun b => { b with attempt := 1 })).put BOOT_STATUS_FALLBACK 1).raise 0 3 0
    else h.enterNoRecipe
  | .accepted slot back | .loading slot back false =>
    let h := h.noteFail code sec
    if h.sysState = 6 then (h.setBoot (fun b => { b with reload := .none })).put BOOT_RELOAD_BUSY 0
    else (h.setBoot (fun b => { b with reload := .loading slot back true })).raise 0 3 0
  | .loading _ _ true => h.enterNoRecipe
  | .ready _ _ _ => h

/-! ## Reload requests (R72, R74) -/

/-- The table's state in force is changeover-safe. -/
def Head.coSafe (h : Head) : Bool := h.on MST_STAT_RUN && h.on MST_STAT_CO_SAFE

/-- A reload of a slot is accepted, or refused with BOOT_RELOAD.REFUSE. At acceptance the acquisition engine stops and no
pass of the table runs (R76, R333). -/
def Head.requestReload (h : Head) (slot : Nat) : Head × Nat :=
  let why := if h.sysState = 6 then (if h.boot.reload ≠ .none then 3 else 0) else h.changeRefuse h.coSafe
  let h := h.put BOOT_RELOAD_REFUSE why
  if why ≠ 0 then (h, 6)
  else
    let h := h.setBoot (fun b => { b with reload := .accepted slot (h.fld BOOT_STATUS_SLOT) })
    let h := if h.activePair then h.setRed (fun r => { r with reloadOut := some (slot, h.bellNo) }) else h
    let h := (h.put BOOT_RELOAD_SLOT slot).put BOOT_RELOAD_BUSY 1
    if h.sysState = 6 then (h, 0) else ((h.acqHalt.put MST_STAT_RUN 0).put SYS_STATUS_STATE 5, 0)

/-- A write of BOOT_RELOAD. -/
def Head.writeReload (h : Head) (v : Nat) : Head × Nat :=
  if bit v 8 then h.requestReload (bits v 3 0) else (h.put BOOT_RELOAD_SLOT (bits v 3 0), 0)

/-! ## Host loads (R70) -/

/-- A host load that ends without its image fails the load that waits for it; with none waiting BOOT_FAIL shows it all the same
(notes/assumptions/96.md). -/
def Head.hostLoadFail (h : Head) : Head :=
  let h := h.setBoot (fun b => { b with hl := none, hostImage := none })
  if h.sysState = 1 ∨ h.boot.reload ≠ .none then h.loadFail 0x10 0 else h.noteFail 0x10 0

/-- A write of BOOT_HL_CTL: START only in Host load mode, with a length that IMAGE_LEN can have. -/
def Head.writeHlCtl (h : Head) (v : Nat) : Head × Nat :=
  let len := bits v 23 0
  if bit v 31 then
    if h.fld SYS_STRAP_BOOT_MODE ≠ 2 then (h, 6)
    else if len % 16 ≠ 0 ∨ len < 512 ∨ len > 0x800000 then (h, 7)
    else ((h.put BOOT_HL_CTL_LEN len).setBoot (fun b => { b with hl := some ⟨len, [], h.now⟩, hostImage := none }), 0)
  else if bit v 30 then (if h.boot.hl.isSome ∨ h.boot.hostImage.isSome then h.hostLoadFail else h, 0)
  else (h.put BOOT_HL_CTL_LEN len, 0)

/-- A write of BOOT_HL_DATA: the next word of the image; refused while no host load runs. -/
def Head.writeHlData (h : Head) (v : Nat) : Head × Nat :=
  match h.boot.hl with
  | none => (h, 6)
  | some l =>
    let ws := BitVec.ofNat 32 v :: l.words
    if 4 * ws.length ≥ l.len then (h.setBoot (fun b => { b with hl := none, hostImage := some ws.reverse }), 0)
    else (h.setBoot (fun b => { b with hl := some ⟨l.len, ws, h.now⟩ }), 0)

/-- HOST_LOAD_TIMEOUT: the first tick more than 1 s after the last word, or after START while no word has come
(notes/assumptions/96.md). -/
def Head.hostLoadTimeout (h : Head) : Head :=
  match h.boot.hl with
  | none => h
  | some l => (h.forward (l.lastTick + 200000001)).hostLoadFail

/-! ## Flash operations (R80) -/

/-- An erase or program of these bytes touches a directory sector or the slot in force. -/
def Head.flashProtected (h : Head) (addr len : Nat) : Bool :=
  let slot := match h.boot.recipe, h.boot.dir with
    | some r, some d => !r.fromHost && !apart addr len (d.slotBase + r.slot * d.slotSize) d.slotSize
    | _, _ => false
  decide (addr < 8192) || slot

/-- A write of BOOT_FLOP: an operation begins, or RESULT says that it is refused; FLASH_OPERATION_DONE ends it. -/
def Head.writeFlop (h : Head) (v : Nat) : Head × Nat :=
  let op := bits v 2 0
  let addr := h.rd BOOT_FLOP_ADDR
  let len := if op = 1 then 4096 else 256
  if op = 0 then (h, 0)
  else if h.boot.flop.isSome then (h, 6)
  else if op > 3 then (h, 7)
  else if addr % len ≠ 0 ∨ (op ≠ 3 ∧ !h.serviceState ∧ h.flashProtected addr len) then (h.put BOOT_FLOP_RESULT 2, 0)
  else
    let page := (List.range 64).map (fun k => BitVec.ofNat 32 (h.rd (BOOT_FLOP_DATA k)))
    let x : FlashOp := if op = 1 then .erase addr else if op = 2 then .program addr page else .read addr
    ((h.setBoot (fun b => { b with flop := some x })).put BOOT_FLOP_RESULT 1, 0)

/-! ## Key store and trim store (R66, R78) -/

/-- A key word (0 to 7) or KEY_ID (8) to program. -/
def Head.writeKeyWord (h : Head) (k v : Nat) : Head :=
  h.setBoot (fun b => { b with keyData := b.keyData.set (fun _ => none) k (some (BitVec.ofNat 32 v)) })

/-- A write of BOOT_KEY_PROG: any other value is ignored; a second attempt, another state or a missing word is refused. -/
def Head.writeKeyProg (h : Head) (v : Nat) : Head × Nat :=
  if v ≠ 0x5A3C then (h, 0)
  else if h.sysState ≠ 7 ∨ h.boot.keyTried ∨ !h.on SYS_STATUS_KEY_BLANK ∨ h.on SYS_STATUS_KEY_FAULT ∨
    (List.range 9).any (fun k => (h.boot.keyData.get (fun _ => none) k).isNone) then (h, 6)
  else (h.setBoot (fun b => { b with keyTried := true, want := setBit b.want 1 }), 0)

/-- A value of the trim store lies in its plausible range, which the spec does not give. Word 4 is ORIGIN, which the head sets. -/
def trimPlausible (stage : Nat → Nat) : Bool :=
  (List.range 511).all (fun k => Config.trimOk k (BitVec.ofNat 32 (stage k)))

/-- A write of SYS_TRIM_CTL; COMMIT is refused outside Maintenance mode and by R78's checks, which set SYS_TRIM_STAT.REFUSE. -/
def Head.writeTrimCtl (h : Head) (v : Nat) : Head × Nat :=
  let stage (k : Nat) : Nat := (h.boot.trimStage.get zeroWord k).toNat
  let view := h.put SYS_TRIM_CTL_VIEW (bits v 0 0)
  if !bit v 1 then (view, 0)
  else if h.sysState ≠ 7 then (h.put SYS_TRIM_STAT_REFUSE 1, 6)
  else if stage 2 ≠ h.rd SYS_UID_LO ∨ stage 3 ≠ h.rd SYS_UID_HI ∨ !trimPlausible stage ∨ h.fld SYS_TRIM_STAT_COUNT ≥ 1000 then
    (h.put SYS_TRIM_STAT_REFUSE 1, 7)
  else (view.setBoot (fun b => { b with want := setBit b.want 2 }), 0)

/-- A write of SYS_SWRST. -/
def Head.writeSwrst (h : Head) (v : Nat) : Head × Nat :=
  (if v = 0xA5C3 then h.setBoot (fun b => { b with want := setBit b.want 0 }) else h, 0)

end Sys2Proof.Machine
end

