-- ==== Sys2Proof/Machine/Writes.lean ====
section
/-! DEFINITION. Register writes (chapters 00 and 19): which words a view may write, what refuses a write whole, what takes effect at
once, what waits in a shadow for the next Bell edge, and what each shadow does there (R3 to R7, R435, R439). -/

namespace Sys2Proof.Machine

/-! ## Masks -/

/-- The bits of the register at `a` that a write in a view may change. -/
def writable (a : Nat) (engineer : Bool) : Nat :=
  match regRow? a with
  | some r => r.mask (fun f => (f.acc == .rw || f.acc == .wo) && (engineer || !f.priv))
  | none => 0

/-- The W1C bits of the register at `a`. -/
def clearable1 (a : Nat) : Nat :=
  match regRow? a with
  | some r => r.mask (fun f => f.acc == .w1c)
  | none => 0

/-- The RW bits of the register at `a`. -/
def stored (a : Nat) : Nat :=
  match regRow? a with
  | some r => r.mask (fun f => f.acc == .rw)
  | none => 0

/-- The half of a wide value that stands at `a` (R7). -/
def halfOf (a : Nat) : Half :=
  match regRow? a with
  | some r => r.half
  | none => .one

/-- What a register would hold after a write in a view: bits the write does not reach keep the value that stands or waits. -/
def Head.merge (h : Head) (a v : Nat) (engineer : Bool) : Nat :=
  let m := writable a engineer
  bor (bandNot (h.pendingRd a) m) (band v m)

/-- The RW bits of a register take a word. -/
def Head.store (h : Head) (a v : Nat) : Head := h.wr a (bor (bandNot (h.rd a) (stored a)) (band v (stored a)))

/-- A write that waits for the Bell edge, refused with RANGE when `ok` is false. -/
def Head.defer (h : Head) (a v : Nat) (ok : Bool) : Head × Nat := if ok then (h.shadow a v, 0) else (h, 7)

/-- A write of a bench register, to which the service states belong: at the Bell edge where a Bell runs (R6), else at once
(notes/assumptions/89.md). -/
def Head.deferBench (h : Head) (a v : Nat) : Head × Nat := if h.bell.running then h.defer a v true else (h.wr a v, 0)

/-- The same, refused with BUSY while `busy`. -/
def Head.deferUnless (h : Head) (busy : Bool) (a v : Nat) (ok : Bool) : Head × Nat :=
  if busy then (h, 6) else h.defer a v ok

/-- A value of 2 to 2^31. -/
def cycleOk (v : Nat) : Bool := 2 ≤ v && v ≤ 2 ^ 31
/-- A value of 1 to 2^31. -/
def divisorOk (v : Nat) : Bool := 1 ≤ v && v ≤ 2 ^ 31

/-! ## Axes (chapters 10 to 12) -/

/-- A value is within the range its page states. Pairs of limits count with the shadow of the other. -/
def Head.axRange (h : Head) (n off v : Nat) : Bool :=
  if off = 0x10 then 1 ≤ v % 256 && v % 256 ≤ 64
  else if off = 0x14 then 16 ≤ v && v ≤ 2 ^ 31
  else if off = 0x48 ∨ off = 0x4C then decide (v < 2 ^ 31)
  else if off = 0x64 then v / 65536 ≤ 8192 && v % 65536 * 2 ≤ h.bellTicks
  else if off = 0x68 then v % 65536 != 0
  else if off = 0x70 then decide (v / 65536 * 5 * h.bellTicks ≤ 200000000)
  else if off = 0x78 then v % 256 != 0
  else if off = 0x80 then v % 65536 != 0
  else if 0x10C ≤ off ∧ off ≤ 0x118 then v != 0
  else if off = 0x120 then decide (v % 16 ≤ 8)
  else if off = 0x138 then v / 256 != 0 && v % 256 != 0
  else if off = 0x13C then v / 256 != 0 && v % 16 != 0
  else if off = 0x140 then decide (sext 32 v < sext 32 (h.pendingRd (AX_POS_MAX n))) && v != 2 ^ 31
  else if off = 0x144 then decide (sext 32 (h.pendingRd (AX_POS_MIN n)) < sext 32 v)
  else if off = 0x148 then v == 0 || cycleOk v
  else if off = 0x1C0 then 4 ≤ v / 65536 && v / 65536 ≤ 10000 && v % 16 ≤ 8
  else if off = 0x1C4 then decide (v % 65536 ≤ v / 65536)
  else if off = 0x1D0 then v % 65536 != 0
  else if off = 0x200 then bits v 9 8 != 3
  else if off = 0x204 then v != 0
  else if off = 0x208 then divisorOk v
  else if off = 0x240 then bits v 15 8 != 0
  else if off = 0x244 then decide ((v : Int) * 65536 < (if h.fld (AX_FOL_CFG_MODE n) = 0 then (h.pendingRd (AX_REG_PITCH n) : Int) * 65536 else h.phiCycle n))
  else if off = 0x254 then cycleOk v
  else true

/-- A state that refuses the write. -/
def Head.axBusy (h : Head) (n off : Nat) : Bool :=
  if off = 0x10 ∨ off = 0x14 ∨ off = 0x18 ∨ off = 0x148 ∨ off = 0x1C0 then h.enabled n
  else if 0x200 ≤ off ∧ off ≤ 0x208 then h.fld (AX_FOL_STAT_CLU n) != 0
  else false

/-- A write of AX_PT_CTL (R251, R253). Bit 15 of the shadow says that the Engineer view wrote it. -/
def Head.writePtCtl (h : Head) (n v : Nat) (engineer : Bool) : Head × Nat :=
  if bit v 4 ∧ h.fld (AX_PT_STAT_RESULT n) ≠ 2 then (h, 6)
  else if bit v 0 ∧ (h.axis n).pt.active then (h, 6)
  else (h.shadow (AX_PT_CTL n) (v + b2n engineer * 2 ^ 15), 0)

/-- AX_PT_CTL at its Bell edge; a test that starts on BRIDGE_SHORT sends BRIDGE_UNLOCK (R348). -/
def Head.edgePtCtl (h : Head) (n v : Nat) : Head :=
  let h := h.store (AX_PT_CTL n) v
  let h := if bit v 4 then (h.ptApply n).1 else h
  let h := if bit v 0 then
      let h := h.ptStart n (bit v 15)
      match h.stationOf n with
      | some s => if (h.axis n).pt.active ∧ (h.axis n).pt.bridge then h.queueTxn .unlock s 3 0 0x61 1 [0xB51D] else h
      | none => h
    else h
  if bit v 1 then h.setAxis n (fun x => { x with pt := { x.pt with abort := true } }) else h

/-- A write to the AX block. -/
def Head.writeAx (h : Head) (a v : Nat) (engineer : Bool) : Head × Nat :=
  let n := (a - 0x80000) / 0x400
  let off := a % 0x400
  let w := band v (writable a engineer)
  if off = 0 then h.writeAxCtl n w engineer
  else if 0x20 ≤ off ∧ off ≤ 0x30 then h.writeMotor n a v
  else if off = 0xE0 then h.writePtCtl n w engineer
  else if off = 0x198 then h.writeMvCtl n w
  else if off = 0x20C then h.writeCamSel n w
  else if off = 0x210 then h.writeClutch n w
  else h.deferUnless (h.axBusy n off) a (h.merge a v engineer) (h.axRange n off w)

/-! ## Masters (chapter 12) -/

/-- VM_CFG names a source that exists (Table 12-1). -/
def vmSourceOk (v : Nat) : Bool :=
  let idx := bits v 15 8
  match v % 4 with
  | 1 => decide (idx < 4)
  | 2 => decide (idx < 128)
  | 3 => decide (idx < 8)
  | _ => true

/-- A write to the VM block. -/
def Head.writeVm (h : Head) (a v : Nat) (engineer : Bool) : Head × Nat :=
  let k := (a - 0xA0000) / 0x80
  let off := a % 0x80
  let w := h.merge a v engineer
  if off = 0x20 then h.writeVmCtl k (band v (writable a engineer))
  else if off = 0 then h.deferUnless (h.vmBusy k) a w (vmSourceOk w)
  else if off = 4 then h.deferUnless (h.vmBusy k) a w (cycleOk v)
  else if off = 8 ∨ (0x14 ≤ off ∧ off ≤ 0x1C) then h.defer a w (v != 0)
  else if off = 0xC then h.defer a w (divisorOk v)
  else if off = 0x24 then h.defer a w (decide (v < h.pendingRd (VM_MCYC k)))
  else h.defer a w true

/-- A write to the FB block. -/
def Head.writeFb (h : Head) (a v : Nat) (engineer : Bool) : Head × Nat :=
  let w := h.merge a v engineer
  if a ≥ 0xC1000 then h.defer a w (decide (bits w 9 7 ≤ 4))
  else
    let k := (a - 0xC0000) / 0x40
    match a % 0x40 with
    | 0 => h.deferUnless (h.encFollowed k) a w (decide (bits w 10 9 ≠ 3 ∧ w % 8 ≤ 5))
    | 4 => h.defer a w (decide (bits w 7 4 ≤ 8 ∧ bits w 3 2 ≠ 3 ∧ w % 4 ≠ 3))
    | 8 => h.defer a w (divisorOk w)
    | 0x28 => h.deferUnless (bit v 1 && h.encFollowed k) a (v % 4) true
    | _ => h.defer a w true

/-- ENC_CTL at its Bell edge (R302, R303). -/
def Head.edgeEncCtl (h : Head) (k v : Nat) : Head :=
  let h := if bit v 1 then h.wr (ENC_CNT k) 0 else h
  if bit v 0 then h.put (ENC_STAT_Z_ARMED k) 1 else h

/-- A write to a cam segment, refused while the segment is in use (R291); else at once. -/
def Head.writeCam (h : Head) (a v : Nat) : Head × Nat :=
  let i := (a - 0x200000) / 4
  if h.segInUse (i / 8) then (h, 6)
  else ({ h with cams := h.cams.set zeroWord i (BitVec.ofNat 32 v), ecc := h.ecc.erase a }, 0)

/-! ## Process loops (chapter 13) -/

/-- A value is within the range its page states. -/
def plRange (off v : Nat) : Bool :=
  if off = 0x0C then decide (v % 4 ≤ 1)
  else if off = 0x18 then decide (v < 2 ^ 31)
  else if off = 0x20 then decide (v % 65536 ≤ v / 65536)
  else if off = 0x28 then v % 65536 != 0
  else if off = 0x6C then decide (bits v 6 0 ≤ 64 ∧ bits v 23 16 ≠ 0)
  else if off = 0x84 then decide (256 ≤ v ∧ v < 2 ^ 31)
  else if off = 0x88 then v / 65536 != 0
  else true

/-- A write to the PL block. -/
def Head.writePl (h : Head) (a v : Nat) (engineer : Bool) : Head × Nat :=
  let i := (a - 0xB0000) / 0x100
  let off := a % 0x100
  let w := band v (writable a engineer)
  if off = 0 then h.writePlMode i w
  else if off = 0x1C then h.writePlMan i w
  else if off = 0x2C then h.writePlCmd i w
  else h.defer a (h.merge a v engineer) (plRange off w)

/-! ## Nodes and groups (chapters 06, 15) -/

/-- A write to the NODE and DCB block. -/
def Head.writeNode (h : Head) (a v : Nat) (engineer : Bool) : Head × Nat :=
  let s := (a - 0xD0000) / 0x40
  if a ≥ 0xD5000 then
    let w := h.merge a v engineer
    match a % 0x20 with
    | 4 => h.defer a w (decide (v % 65536 < v / 65536))
    | 8 => h.defer a w (v % 65536 != 0)
    | 0xC => h.defer a w (decide (v < 2 ^ 31))
    | 0x14 => h.writeDcbCtl ((a - 0xD5000) / 0x20) (band v (writable a engineer))
    | _ => h.defer a w true
  else if a = NODE_RC_CTL then (if bit v 0 then h.requestRollCall h.coSafe else (h, 0))
  else if a = NODE_CTL s then (if bit v 0 then h.nodeRelease s else h, 0)
  else if a = NODE_RAWSW s then h.writeRawsw s v
  else h.defer a (h.merge a v engineer) true

/-! ## Scheduler, engines, time (chapters 07 to 09) -/

/-- Whether a task may be enabled (R221): 7 for no task of the recipe, 6 while its node or an enabled axis forbids it, 0 else. -/
def Head.enableCheck (h : Head) (t : Nat) : Nat :=
  if t ≥ 960 ∨ !h.recipeTasks.contains t then 7
  else if h.taskEnabled t then 0
  else if (h.taskNode t).any (fun s => [2, 3, 4, 5].contains (h.fld (NODE_STAT_STATE s))) then 6
  else if (h.axesOfTask t).any (fun n => h.enabled n) then 6
  else 0

/-- TASK_EN, and SCHED_EN_SET at its Bell edge: the task is enabled where the checks let it, and is left alone where it is enabled. -/
def Head.enableRequest (h : Head) (t : Nat) : Head × Nat :=
  let st := h.enableCheck t
  (if st = 0 ∧ !h.taskEnabled t then h.enableTask t else h, st)

/-- SCHED_FLAG_SET and SOFT (R207): the SOFT flags of a task in the tick of the commit. -/
def Head.softRequest (h : Head) (t soft : Nat) : Head × Nat :=
  if t ≥ 960 then (h, 7) else ((bitsSet 8 soft).foldl (fun h k => h.setFlag t (8 + k)) h, 0)

/-- A write to the SCHED block. -/
def Head.writeSched (h : Head) (a v : Nat) : Head × Nat :=
  if a = SCHED_EN_SET then
    let st := h.enableCheck (v % 1024)
    (if st = 0 then h.shadow a (v % 1024) else h, st)
  else if a = SCHED_FLAG_SET then h.softRequest (v % 1024) (bits v 23 16)
  else if h.serviceState then h.deferBench a (band v (definedBits a)) else (h, 6)

/-- A write to the LE block or the engine memory window (R204). -/
def Head.writeLe (h : Head) (a v : Nat) : Head × Nat :=
  if a ≥ 0x60000 then (if h.benchOpen then ({ (h.writeLeMem a v) with ecc := h.ecc.erase a }, 0) else (h, 6))
  else if a = LE_SEL then h.deferBench a (band v (stored a))
  else
    let e := (a - 0x50100) / 0x20
    if a = LE_CTL e then h.writeLeCtl e v
    else if v % 8192 ≥ 0x1000 then (h, 7) else h.deferBench a (band v (stored a))

/-- A write to the TIME block, pairs apart. -/
def Head.writeTime (h : Head) (a v : Nat) (engineer : Bool) : Head × Nat :=
  let w := h.merge a v engineer
  if a = TIME_MT_ADDEND then h.writeMtAddend v
  else if a = TIME_LT_ADDEND then h.writeLtAddend v
  else if a = TIME_MT_CTL then h.defer a w (decide (2 ≤ bits w 15 12 ∧ 1 ≤ bits w 11 8 ∧ bits w 11 8 ≤ 8))
  else if a = TIME_PPS_CTL then h.defer a w (decide (1 ≤ bits w 24 16 ∧ bits w 24 16 ≤ 500))
  else
    let k := (a - 0x30100) / 0x20
    if a = TIME_TRG_CTL k then h.writeTrgCtl k v
    else if a = TIME_TRG_PER k then (if v < 1000 then (h, 7) else (h.wr a v, 0))
    else h.defer a w true

/-- A write of LANE_CTL: LOOP changes only in Maintenance mode or on a lane that the recipe does not use. -/
def Head.writeLane (h : Head) (a v : Nat) (engineer : Bool) : Head × Nat :=
  let n := (a - 0x20100) / 0x40
  let w := h.merge a v engineer
  if bit w 8 ≠ bit (h.rd a) 8 ∧ h.sysState ≠ 7 ∧ h.lanesUsed.contains n then (h, 6)
  else h.deferBench a (band w 0x107)

/-! ## SYS and BOOT (chapter 03) -/

/-- A write to the SYS block and the trim window, at once. -/
def Head.writeSys (h : Head) (a v : Nat) : Head × Nat :=
  if a = SYS_SWRST then h.writeSwrst v
  else if a = SYS_TRIM_CTL then h.writeTrimCtl v
  else if a ≥ 0x800 then
    if h.on SYS_TRIM_CTL_VIEW then
      (h.setBoot (fun b => { b with trimStage := b.trimStage.set zeroWord ((a - 0x800) / 4) (BitVec.ofNat 32 v) }), 0)
    else (h, 0)
  else (h, 0)

/-- A write to the BOOT block, at once. -/
def Head.writeBoot (h : Head) (a v : Nat) : Head × Nat :=
  if a = BOOT_SLOT then h.writeSlot v
  else if a = BOOT_RELEASE then h.writeRelease v
  else if a = BOOT_RELOAD then h.writeReload v
  else if a = BOOT_HL_CTL then h.writeHlCtl v
  else if a = BOOT_HL_DATA then h.writeHlData v
  else if a = BOOT_FLOP then h.writeFlop v
  else if a = BOOT_KEY_PROG then h.writeKeyProg v
  else if 0x10040 ≤ a ∧ a ≤ 0x10060 then (h.writeKeyWord ((a - 0x10040) / 4) v, 0)
  else (h.store a v, 0)

/-! ## The table and the host block (chapters 14, 19) -/

/-- MST_FORCE (R335). -/
def Head.writeForce (h : Head) (v : Nat) : Head × Nat :=
  let s := v % 64
  if !bit (h.rd (MST_STATES (2 * s))) 31 then (h, 7)
  else (if bit v 6 then { h with mst := { h.mst with force := some s } } else h, 0)

/-- A write to the MST block. -/
def Head.writeMst (h : Head) (a v : Nat) : Head × Nat :=
  if a = MST_REQ then (h.wr a v, 0) else if a = MST_FORCE then h.writeForce v else (h, 0)

/-- HOST_CTL.FLUSH: every host ticket in DONE or READ is released (R434). -/
def Head.flushTickets (h : Head) : Head :=
  (h.heldTickets.filter (fun t => 3 ≤ (h.ticket t).state)).foldl (fun h t => h.freeTicket t) h

/-- The challenge becomes void. -/
def Head.voidChallenge (h : Head) : Head :=
  { ((h.wr HOST_ENG_CHAL 0).put HOST_ENG_STAT_CHAL_OPEN 0) with host := { h.host with chalTick := none } }

/-- The Engineer view closes; by any means but CLOSE it raises ENG_CLOSED (R443). -/
def Head.closeView (h : Head) (event : Bool) : Head :=
  if !h.on SYS_STATUS_ENG_OPEN then h
  else
    let h := (h.put SYS_STATUS_ENG_OPEN 0).put SYS_TRIM_CTL_VIEW 0
    if event then h.put HOST_EVT_ENG_CLOSED 1 else h

/-- REQ: a new challenge, which voids an earlier one (R441). -/
def Head.newChallenge (h : Head) : Head :=
  let c := (Config.freeChallenge h.draws).toNat
  { ((h.draw.wr HOST_ENG_CHAL c).put HOST_ENG_STAT_CHAL_OPEN 1) with host := { h.host with chalTick := some h.now } }

/-- A write of HOST_ENG_CTL. -/
def Head.writeEngCtl (h : Head) (v : Nat) : Head × Nat :=
  if bit v 0 ∧ (!h.pins.svcEn ∨ h.reqLocked) then (h, 6)
  else
    let h := if bit v 1 then h.closeView false else h
    (if bit v 0 then h.newChallenge else h, 0)

/-- The response that a challenge asks for (R441): `key` is the device key, or zeros while the store is blank. -/
def engResponse (key : List Nat) (chal uid : Nat) : Nat :=
  leWord ((hmacSha256 key (leBytes 4 chal ++ leBytes 4 uid)).take 4)

/-- A write of HOST_ENG_RESP (R442). -/
def Head.writeEngResp (h : Head) (key : List Nat) (v : Nat) : Head :=
  let inTime := h.host.chalTick.any (fun t => decide (h.now ≤ t + 200000000))
  let right := inTime && h.pins.svcEn && v == engResponse key (h.rd HOST_ENG_CHAL) (h.rd SYS_UID_LO)
  let h := h.voidChallenge
  if right then
    let h := (h.put SYS_STATUS_ENG_OPEN 1).put HOST_ENG_STAT_FAILS 0
    { h with host := { h.host with idleFrom := h.now } }
  else
    let n := min 3 (h.fld HOST_ENG_STAT_FAILS + 1)
    let h := h.put HOST_ENG_STAT_FAILS n
    if n = 3 then { h with host := { h.host with lockFrom := some h.now } } else h

/-- A write to the HOST block, at once. -/
def Head.writeHost (h : Head) (key : List Nat) (a v : Nat) : Head × Nat :=
  if a = HOST_CTL then (if bit v 0 then h.flushTickets else h, 0)
  else if a = HOST_ENG_CTL then h.writeEngCtl v
  else if a = HOST_ENG_RESP then (h.writeEngResp key v, 0)
  else (h.store a v, 0)

/-! ## Pairs (R7) -/

/-- The write of the upper word commits both halves, checked as one value. `a` is the lower word's address. -/
def Head.writePair (h : Head) (a lo hi : Nat) : Head × Nat :=
  let n := (a - 0x80000) / 0x400
  let k := (a - 0x30100) / 0x20
  let v := (a - 0xA0000) / 0x80
  if a = TIME_LT_NS then h.writeLineTime lo hi
  else if a = ACQ_TRIG_NS then h.writeAcqTime lo hi
  else if 0x30100 ≤ a ∧ a < 0x30180 then h.writeTrg k lo hi
  else if 0x80000 ≤ a ∧ a < 0xA0000 ∧ a = AX_POS_SET_LO n then
    let r := h.writePosSet n (pairOf lo hi)
    if r.2 = 0 then (r.1.shadow (AX_POS_SET_LO n) lo, 0) else r
  else if a = VM_SET_LO v then
    let x := sext 64 (pairOf lo hi)
    if x < 0 ∨ x ≥ (h.pendingRd (VM_MCYC v) : Int) * 65536 then (h, 7) else ((h.shadow a lo).shadow (a + 4) hi, 0)
  else ((h.shadow a lo).shadow (a + 4) hi, 0)

/-- The word a lower half waits as, or the one in force. -/
def Head.lowerHalf (h : Head) (a : Nat) : Nat :=
  match h.holds.get (fun _ => none) a with
  | some w => w.toNat
  | none => h.peek a

/-! ## One word -/

/-- A block that a reload closes for writes (Table 03-8). -/
def reloadBlock (a : Nat) : Bool :=
  [3, 4, 5, 6, 7, 8, 9, 0xA, 0xB, 0xC, 0xD, 0xF, 0x10, 0x11].contains (a / 65536) || 0x200000 ≤ a

/-- A reload, or the role of Substitute, refuses every write there (R76, Table 17-6). -/
def Head.blockBusy (h : Head) (a : Nat) : Bool :=
  (h.boot.reload != .none && reloadBlock a) || (h.substitute && !([0, 1, 0xF].contains (a / 65536)))

/-- The block's own rule for a word. -/
def Head.writeBlock (h : Head) (key : List Nat) (a v : Nat) (engineer : Bool) : Head × Nat :=
  if 0x200000 ≤ a then h.writeCam a v
  else
    match a / 65536 with
    | 0 => h.writeSys a v
    | 1 => h.writeBoot a v
    | 2 => h.writeLane a v engineer
    | 3 => h.writeTime a v engineer
    | 4 => h.writeSched a v
    | 5 | 6 | 7 => h.writeLe a v
    | 8 | 9 => h.writeAx a v engineer
    | 0xA => h.writeVm a v engineer
    | 0xB => h.writePl a v engineer
    | 0xC => h.writeFb a v engineer
    | 0xD => h.writeNode a v engineer
    | 0xF => h.writeRedCtl v
    | 0x10 => if a = ACQ_CTL then h.writeAcqCtl v else h.writeAcqCfg a v
    | 0x11 => h.writeMst a v
    | 0x12 => h.writeHost key a v
    | _ => h.defer a (h.merge a v engineer) true

/-- One word written in a view, past the checks of address and access: the head after it and its status (Table 19-4). -/
def Head.writeWord (h : Head) (key : List Nat) (a v : Nat) (engineer : Bool) : Head × Nat :=
  let once := clearable1 a
  let descriptor := 0x48000 ≤ a ∧ a < 0x50000
  if a < 0x200000 ∧ (a < 0x60000 ∨ 0x80000 ≤ a) ∧ ¬descriptor ∧ a ≠ TIME_MT_ADDEND ∧ once = 0 ∧ writable a true = 0 then
    (h, if h.blockBusy a then 6 else 0)
  else
    let r : Head × Nat :=
      if once ≠ 0 then (h.wr a (bandNot (h.rd a) (band v once)), 0)
      else
        match halfOf a with
        | .lower => ({ h with holds := h.holds.set (fun _ => none) a (some (BitVec.ofNat 32 v)) }, 0)
        | .upper =>
          let r := h.writePair (a - 4) (h.lowerHalf (a - 4)) v
          if r.2 = 0 then ({ r.1 with holds := r.1.holds.set (fun _ => none) (a - 4) none }, 0) else r
        | .one => h.writeBlock key a v engineer
    if r.2 = 5 then r
    else if h.blockBusy a then
      -- a Roll Call request that a reload turns away says so (R153, Table 06-7)
      (if a / 4 = NODE_RC_CTL / 4 ∧ r.2 = 6 then h.put NODE_RC_CTL_REFUSE (r.1.fld NODE_RC_CTL_REFUSE) else h, 6)
    else r

/-! ## A request's words -/

/-- The block or window an address stands in (Table 19-7). -/
def regionOf (a : Nat) : Nat :=
  if 0x400000 ≤ a then 0x40
  else if 0x200000 ≤ a then 0x20
  else if 0x60000 ≤ a ∧ a < 0x80000 then 6
  else if 0x800 ≤ a ∧ a < 0x1000 then 0x101
  else if 0x10100 ≤ a ∧ a < 0x10200 then 0x102
  else if 0xA1800 ≤ a ∧ a < 0xA2000 then 0x103
  else if 0x111000 ≤ a ∧ a < 0x116000 then 0x104
  else if 0x80000 ≤ a ∧ a < 0xA0000 then 8
  else a / 65536

/-- Check 2 of Table 19-3 for the words of a request: the index of the first that fails. -/
def addrFault (as : List Nat) : Option Nat :=
  let r := regionOf (as.headD 0)
  (as.zipIdx.find? (fun x => !mapped x.1 || regionOf x.1 != r)).map (·.2)

/-- Check 3 for one word read. -/
def readDenied (engineer : Bool) (a : Nat) : Bool := privAddr a && !engineer

/-- Check 3 for one word written: /P, SAFE, read-only windows, the trim window and the descriptors without the Engineer view. -/
def writeDenied (engineer : Bool) (a : Nat) : Bool :=
  (privAddr a && !engineer) || a / 65536 == 0x0E || decide (0x400000 ≤ a) || decide (0xA1800 ≤ a ∧ a < 0xA2000) ||
    decide (0x111000 ≤ a ∧ a < 0x116000) || (decide (0x800 ≤ a ∧ a < 0x1000) && !engineer) ||
    (decide (0x48000 ≤ a ∧ a < 0x50000) && (!engineer || decide (0x48000 + 960 * 32 ≤ a)))

/-- The worse of two failures: the earlier check of Table 19-3, then the earlier word. -/
def firstFault (best : Option (Nat × Nat)) (st i : Nat) : Option (Nat × Nat) :=
  match best with
  | some b => if st < b.1 then some (st, i) else some b
  | none => some (st, i)

/-- The words of a write in the order sent: the head after those accepted, and the failure that counts (status, index). -/
def Head.runWrites (h : Head) (key : List Nat) (engineer : Bool) (ws : List (Nat × Word)) : Head × Option (Nat × Nat) :=
  ws.zipIdx.foldl (fun (x : Head × Option (Nat × Nat)) w =>
    let r := x.1.writeWord key w.1.1 w.1.2.toNat engineer
    if r.2 = 0 then (r.1, x.2) else (x.1, firstFault x.2 r.2 w.2)) (h, none)

/-- A write whose effect its page defers to a Bell edge without a shadow: motor data, cam selection, group commands, a full Roll Call,
HANDOFF (R437). -/
def deferredWrite (a v : Nat) : Bool :=
  ((a == NODE_RC_CTL || a == RED_CTL) && bit v 0) || (decide (0x80000 ≤ a ∧ a < 0xA0000) && (decide (0x20 ≤ a % 0x400 ∧ a % 0x400 ≤ 0x30) || a % 0x400 == 0x20C)) ||
    (decide (0xD5000 ≤ a ∧ a < 0xE0000) && a % 0x20 == 0x14)

/-- The words that an active head sends to its partner as WRITE records (Table 17-4). -/
def Head.mirrorWrites (h : Head) (ws : List (Nat × Word)) : Head :=
  if !h.activePair then h
  else h.setRed (fun r => { r with writesOut := r.writesOut ++
    (ws.filter (fun w => !ownBlock w.1 || w.1 / 65536 == 3)).map (fun w => (w.1, w.2, bellAfter h.bellNo 1)) })

/-- A write of words in a view, checked as a whole (R435): the head after it, STATUS, SHADOW and IDX. A refused write leaves the
REFUSE field of its register and nothing else. -/
def Head.commitWrite (h : Head) (key : List Nat) (engineer : Bool) (ws : List (Nat × Word)) : Head × Nat × Bool × Nat :=
  match addrFault (ws.map (·.1)) with
  | some i => (h, 3, false, i)
  | none =>
    match ws.zipIdx.find? (fun w => writeDenied engineer w.1.1) with
    | some w => (h, 4, false, w.2)
    | none =>
      let r := h.runWrites key engineer ws
      match r.2 with
      | some (st, i) =>
        let w := ws.getD i (0, 0)
        let x := h.writeWord key w.1 w.2.toNat engineer
        (if x.2 = 0 then h else x.1, st, false, i)
      | none =>
        let waits (a : Nat) : Bool := r.1.shadows.any (fun e => e.1 == a)
        let late := ws.any (fun w => waits w.1 || (halfOf w.1 == .upper && waits (w.1 - 4)) || deferredWrite w.1 w.2.toNat)
        (r.1.mirrorWrites ws, 0, late, 0)

/-! ## Shadows at a Bell edge -/

/-- A shadow of the AX block. -/
def Head.edgeAx (h : Head) (a v : Nat) : Head :=
  let n := (a - 0x80000) / 0x400
  match a % 0x400 with
  | 0 => h.edgeAxCtl n v
  | 0xE0 => h.edgePtCtl n v
  | 0x160 => h.wr a v
  | 0x164 => h.edgePosSet n
  | 0x198 => h.edgeMvCtl n v
  | 0x210 => h.edgeClutch n v
  | 0x200 => (h.edgeFolCfg n v).store a v
  | _ => h.store a v

/-- A shadow of the PL block. -/
def Head.edgePl (h : Head) (a v : Nat) : Head :=
  let i := (a - 0xB0000) / 0x100
  let off := a % 0x100
  if off = 0 then h.edgePlMode i v
  else if off = 0x2C then h.edgePlCmd i v
  else
    let h := h.store a v
    if 0x60 ≤ off ∧ off ≤ 0x6C then h.setLoop i (fun x => { x with modelNew := true }) else h

/-- One shadow takes effect at the Bell edge in tick `t` (R6). -/
def Head.edgeWord (h : Head) (t a v : Nat) : Head :=
  if 0x200000 ≤ a then { h with cams := h.cams.set zeroWord ((a - 0x200000) / 4) (BitVec.ofNat 32 v) }
  else if a = SCHED_EN_SET then (h.enableRequest v).1
  else if a = TIME_LT_NS then h.wr a v
  else if a = TIME_LT_SEC then (h.wr a v).setLine t (h.rd TIME_LT_NS) v
  else if a = TIME_MT_ADDEND then h.edgeMtAddend t v
  else if a = TIME_LT_ADDEND then h.edgeLtAddend t v
  else
    match a / 65536 with
    | 2 => h.wr a v
    | 4 | 5 => h.wr a v
    | 8 | 9 => h.edgeAx a v
    | 0xA =>
      let k := (a - 0xA0000) / 0x80
      if a % 0x80 = 0x20 then h.edgeVmCtl k v
      else if a % 0x80 = 0 then (h.store a v).vmRebase k
      else h.store a v
    | 0xB => h.edgePl a v
    | 0xC => if a < 0xC1000 ∧ a % 0x40 = 0x28 then h.edgeEncCtl ((a - 0xC0000) / 0x40) v else h.store a v
    | _ => h.store a v

/-- Every shadow takes effect, oldest first. -/
def Head.edgeShadows (h : Head) (t : Nat) : Head :=
  h.shadows.foldl (fun (h : Head) w => h.edgeWord t w.1 w.2.toNat) { h with shadows := [] }

end Sys2Proof.Machine
end

