-- ==== Sys2Proof/Machine/HostSide.lean ====
section
/-! DEFINITION. The host port (chapter 19): requests and their tickets, commits, fetches, and the clocks of the Engineer view. The words
that the head drives last stand in `host.driven`. -/

namespace Sys2Proof.Machine

def Head.setHost (h : Head) (f : HostPort → HostPort) : Head := { h with host := f h.host }

/-- The Engineer view is open. -/
def Head.engineer (h : Head) : Bool := h.on SYS_STATUS_ENG_OPEN

/-- The head drives ACK and TICKET. -/
def Head.answer (h : Head) (ack ticket : Nat) : Head :=
  h.setHost (fun p => { p with driven := [BitVec.ofNat 32 (ack * 256 + ticket % 256)] })

/-- A request passed its checks: the idle time of the Engineer view starts again (R443). -/
def Head.accepted (h : Head) : Head := h.setHost (fun p => { p with idleFrom := h.now })

/-- A request is refused under Table 19-3 and counted. -/
def Head.refuseTicket (h : Head) (t status idx : Nat) : Head :=
  (h.bump HOST_CNT_REFUSED).finishTicket t status [] false idx

/-! ## Node requests (R440) -/

/-- Some word of a node request lies in a range. -/
def HostReq.touches (r : HostReq) (lo hi : Nat) : Option Nat :=
  (List.range r.count).find? (fun k => decide (lo ≤ (r.addr + k) % 2 ^ 32 ∧ (r.addr + k) % 2 ^ 32 ≤ hi))

/-- Why a node request is refused: STATUS and IDX. OP 3 NRD, 4 NWR, 5 NEX. -/
def Head.nodeRefuse (h : Head) (r : HostReq) : Option (Nat × Nat) :=
  let st := h.fld (NODE_STAT_STATE r.station)
  let busy := (h.axesOf r.station).any (fun n => h.enabled n)
  if r.count < 1 ∨ r.count > 46 then some (2, 0)
  else if r.station < 1 ∨ r.station > 254 then some (3, 0)
  else if r.op ≠ 3 ∧ !h.engineer then some (4, 0)
  else if r.op ≠ 3 ∧ (r.touches 0x60 0x6F).isSome then some (5, (r.touches 0x60 0x6F).getD 0)
  else if (st ≠ 1 ∧ st ≠ 7) ∨ h.substitute then some (6, 0)
  else if r.op = 4 ∧ busy then
    match r.touches 0x40 0x5F, r.touches 0x80 0xA7 with
    | some k, _ => some (6, k)
    | none, some k => some (6, k)
    | none, none => none
  else none

/-- A node request is checked at its commit, and goes to the Recess queue (R435, R440, R443). -/
def Head.nodeRequest (h : Head) (t : Nat) (r : HostReq) : Head :=
  match h.nodeRefuse r with
  | some (st, i) => h.refuseTicket t st i
  | none => h.accepted.queueTxn (.host t) r.station (r.op - 2) 0 r.addr r.count r.words

/-! ## Taking a request (R428 to R433) -/

/-- A write or an execute with a valid COUNT: data words follow its header. -/
def HostReq.takesData (r : HostReq) : Bool :=
  ((r.op == 0x02 || r.op == 0x12) && 1 ≤ r.count && r.count ≤ 64) || ((r.op == 0x04 || r.op == 0x05) && 1 ≤ r.count && r.count ≤ 46)

/-- All the words that follow the header have come: COUNT of them, or more (R430). -/
def HostReq.complete (r : HostReq) : Bool := if r.takesData then decide (r.count ≤ r.words.length) else true

/-- The data words that the head keeps: the COUNT of a write or an execute whose COUNT is valid; it ignores any other byte (R430, R435). -/
def HostReq.carried (r : HostReq) : List Word := if r.takesData then r.words.take r.count else []

/-- A transaction cut short before its last cycle (R430): nothing happens, and it is counted. -/
def Head.cutShort (h : Head) : Head := (h.bump HOST_CNT_ABORT).setHost (fun p => { p with driven := [] })

/-- RD, RDF, WR, WRF, NRD, NWR, NEX: taken with the reserved ticket while HRDY is high. -/
def Head.hostRequest (h : Head) (r : HostReq) : Head :=
  if !r.complete then h.cutShort
  else
    match h.hrdy, h.host.reserved with
    | true, some t =>
      let h := h.setTicket t (fun _ => { Ticket.initial t with state := 2, op := r.op, count := r.count, req := some { r with words := r.carried } })
      let h := (h.setHost (fun p => { p with reserved := none })).answer 0xA5 t
      (h.setHost (fun p => { p with fifo := p.fifo ++ [t] })).reserveTicket
    | _, _ => (h.bump HOST_CNT_NRDY).answer 0 0

/-! ## Commits of register requests (R435 to R439) -/

/-- The byte addresses of a register request. -/
def HostReq.addrs (r : HostReq) : List Nat :=
  let fixed := r.op == 0x11 || r.op == 0x12
  (List.range r.count).map (fun k => if fixed then r.addr else r.addr + 4 * k)

/-- A read of words in a view: the head after it, STATUS, IDX and the words. -/
def Head.commitRead (h : Head) (engineer : Bool) (as : List Nat) : Head × Nat × Nat × List Word :=
  match addrFault as with
  | some i => (h, 3, i, [])
  | none =>
    match as.zipIdx.find? (fun a => readDenied engineer a.1) with
    | some a => (h, 4, a.2, [])
    | none =>
      if as.any (fun a => h.ecc.contains a) then (h, 0xA, 0, [])
      else
        let r := as.foldl (fun (x : Head × List Word) a =>
          let y := x.1.readWord a engineer
          (y.1, BitVec.ofNat 32 y.2 :: x.2)) (h, [])
        (r.1, 0, 0, r.2.reverse)

/-- A register request at its commit: checked, and its ticket becomes DONE. -/
def Head.registerCommit (h : Head) (key : List Nat) (t : Nat) (r : HostReq) : Head :=
  if r.count < 1 ∨ r.count > 64 then h.refuseTicket t 2 0
  else if r.op = 0x02 ∨ r.op = 0x12 then
    let w := h.commitWrite key h.engineer (r.addrs.zip r.words)
    let h : Head := w.1.setHost (fun p => { p with last := w.2.1 })
    if w.2.1 = 0 then h.accepted.finishTicket t 0 [] w.2.2.1 0 else h.refuseTicket t w.2.1 w.2.2.2
  else
    let x := h.commitRead h.engineer r.addrs
    if x.2.1 = 0 then x.1.accepted.finishTicket t 0 x.2.2.2 false 0
    else if x.2.1 = 0xA then x.1.accepted.finishTicket t 0xA [] false 0
    else x.1.refuseTicket t x.2.1 x.2.2.1

/-- REQUEST_COMMIT: the oldest taken request is checked and committed (R435, R439); a node request waits on for its answer. -/
def Head.requestCommit (h : Head) (key : List Nat) : Head :=
  match h.host.fifo with
  | [] => h
  | t :: rest =>
    let h := h.setHost (fun p => { p with fifo := rest })
    match (h.ticket t).req with
    | none => h.reserveTicket
    | some r => (if 3 ≤ r.op ∧ r.op ≤ 5 then h.nodeRequest t r else h.registerCommit key t r).reserveTicket

/-- The commands that the table names as one register write: it commits at once in the view in force; `host.last` takes its status. -/
def Head.directWrite (h : Head) (key : List Nat) (ws : List (Nat × Word)) : Head :=
  let w := h.commitWrite key h.engineer ws
  let h := if w.2.1 = 0 then w.1.accepted else w.1.bump HOST_CNT_REFUSED
  h.setHost (fun p => { p with last := w.2.1 })

/-- The commands that the table names as one register read. -/
def Head.directRead (h : Head) (as : List Nat) : Head :=
  let x := h.commitRead h.engineer as
  let h := if x.2.1 = 0 ∨ x.2.1 = 0xA then x.1.accepted else x.1.bump HOST_CNT_REFUSED
  h.setHost (fun p => { p with driven := x.2.2.2, last := x.2.1 })

/-! ## Fetching and releasing (R434, R437, R438) -/

/-- The status word of a fetch. -/
def statusWord (status t count : Nat) (rpt shadow : Bool) (idx : Nat) : Word :=
  BitVec.ofNat 32 (status % 256 * 2 ^ 24 + t % 256 * 2 ^ 16 + count % 256 * 256 + b2n rpt * 128 + b2n shadow * 64 + idx % 64)

/-- What a fetch of ticket `t` drives; the first fetch of a DONE ticket moves it to READ. -/
def Head.fetchTicket (h : Head) (t : Nat) : Head :=
  let x := h.ticket t
  let drive (h : Head) (l : List Word) : Head := h.setHost (fun p => { p with driven := l })
  if x.head ∨ x.state = 0 then drive h [statusWord 0xB t 0 false false 0]
  else if x.state < 3 then drive h [statusWord 1 t 0 false false 0]
  else
    drive (h.setTicket t (fun y => { y with state := 4 }))
      (statusWord x.status t x.data.length (x.state == 4) x.shadow x.idx :: x.data)

/-- The host may release ticket `t`: it holds it, and it is DONE or READ. -/
def Head.releasable (h : Head) (t : Nat) : Bool := !(h.ticket t).head && 3 ≤ (h.ticket t).state

/-- FETCHR: as FETCH, then the ticket is released. -/
def Head.fetchRelease (h : Head) (t : Nat) : Head :=
  let ok := h.releasable t
  let h := h.fetchTicket t
  if ok then h.freeTicket t else h

/-- REL. -/
def Head.releaseHost (h : Head) (t : Nat) : Head :=
  if h.releasable t then (h.freeTicket t).answer 0xA5 0 else h.answer 0 0

/-- MAP: eight words, bit k of word i for a host ticket in DONE or READ. -/
def Head.doneMap (h : Head) : Head :=
  let word (i : Nat) : Nat := ((List.range 32).map (fun k => b2n (h.releasable (32 * i + k)) * 2 ^ k)).foldl (· + ·) 0
  h.setHost (fun p => { p with driven := (List.range 8).map (fun i => BitVec.ofNat 32 (word i)) })

/-- An OP outside Table 19-1. -/
def Head.badOp (h : Head) : Head := (h.bump HOST_CNT_BADOP).setHost (fun p => { p with driven := [] })

/-- TRANSACTION_ABORT: a fetch cut after its status word counts as a fetch, and releases nothing. -/
def Head.transactionAbort (h : Head) (fetched : Option Nat) : Head :=
  match fetched with
  | some t => (h.fetchTicket t).bump HOST_CNT_ABORT
  | none => h.cutShort

/-! ## A transaction on its wires (R428, R430, Table 19-1) -/

/-- The bytes of a transaction: two HSCK cycles each, the high nibble first; a cycle is HIO3 to HIO0. -/
def hostBytes : List (BitVec 4) → List Nat
  | a :: b :: t => (a.toNat * 16 + b.toNat) :: hostBytes t
  | _ => []

/-- A number of bytes, the most significant first. -/
def beNat (l : List Nat) : Nat := l.foldl (fun x b => x * 256 + b) 0

/-- Words of 4 bytes, bits [31:24] first. -/
def hostWords : List Nat → List Word
  | a :: b :: c :: d :: t => BitVec.ofNat 32 (beNat [a, b, c, d]) :: hostWords t
  | _ => []

/-- One period of HCS_N low: `cycles` is what HIO carried in each HSCK cycle of it, whoever drove it. The first byte, OP, selects the
transaction; one that ends before its last cycle is discarded, and cycles beyond the last are ignored. A write whose COUNT fails its check
needs no more than its header (R435). The commands of the host port stand for these transactions, one for each row of Table 19-1. -/
def Head.onWire (h : Head) (cycles : List (BitVec 4)) : Head :=
  let b := hostBytes cycles
  let byte (i : Nat) : Nat := b.getD i 0
  let t := byte 1
  let full (last : Nat) (h' : Head) : Head := if last ≤ cycles.length then h' else h.cutShort
  -- A request of a header of `header` bytes whose last `width` are its address; `most` is the largest COUNT of one that carries words.
  let ask (header width : Nat) (most : Option Nat) : Head :=
    let counts := most.all (fun m => decide (1 ≤ t ∧ t ≤ m))
    let n := if most.isSome ∧ counts then t else 0
    full (2 * header + 8 * n + (if counts then 6 else 0)) (h.hostRequest
      { op := byte 0, count := t, addr := beNat ((b.drop (header - width)).take width), station := if width = 4 then byte 2 else 0
        words := (hostWords (b.drop header)).take n })
  let fetched (h' : Head) : Head :=
    if cycles.length < 20 then h.cutShort
    else if cycles.length < 12 + 8 * (h.fetchTicket t).host.driven.length then h.transactionAbort (some t)
    else h'
  match b.head? with
  | none => h.cutShort
  | some op =>
    if op = 0x01 ∨ op = 0x11 then ask 5 3 none
    else if op = 0x02 ∨ op = 0x12 then ask 5 3 (some 64)
    else if op = 0x03 then ask 7 4 none
    else if op = 0x04 ∨ op = 0x05 then ask 7 4 (some 46)
    else if op = 0x08 then fetched (h.fetchTicket t)
    else if op = 0x09 then fetched (h.fetchRelease t)
    else if op = 0x0A then full 8 (h.releaseHost t)
    else if op = 0x0C then full 74 h.doneMap
    else h.badOp

/-! ## The Engineer view's clocks (R30, R442, R443) -/

/-- SVC_EN goes low: the view closes with ENG_CLOSED. -/
def Head.svcEnLow (h : Head) : Head :=
  let h : Head := { h with pins := { h.pins with svcEn := false } }
  (h.put SYS_STRAP_SVC_EN_LIVE 0).closeView true

/-- SVC_EN is high from now on: a view can be opened (R30, step 1 of R441). -/
def Head.svcEnHigh (h : Head) : Head :=
  if h.pins.svcEn then h else { h with pins := { h.pins with svcEn := true } }.put SYS_STRAP_SVC_EN_LIVE 1

/-- ENG_IDLE_CLOSE: 600 s without an accepted request. -/
def Head.engIdleClose (h : Head) : Head :=
  if h.engineer then (h.forward (h.host.idleFrom + 120000000000)).closeView true else h

/-- CHALLENGE_EXPIRY: the first tick more than 1 s after the challenge. -/
def Head.challengeExpiry (h : Head) : Head :=
  match h.host.chalTick with
  | some t => (h.forward (t + 200000001)).voidChallenge
  | none => h

/-- ENGINEER_LOCK_EXPIRY: 60 s after the third failure. -/
def Head.lockExpiry (h : Head) : Head :=
  match h.host.lockFrom with
  | some t => (h.forward (t + 12000000000)).setHost (fun p => { p with lockFrom := none })
  | none => h

end Sys2Proof.Machine
end

