-- ==== Sys2Proof/Machine/StateTable.lean ====
section
/-! DEFINITION. The Machine State Table (chapter 14): conditions, actions, passes. -/

namespace Sys2Proof.Machine

/-! ## Conditions (R326, Table 14-1) -/

/-- The unit field of a UNIT condition. -/
def Head.unitField (h : Head) (kind i : Nat) : Nat :=
  match kind with
  | 0 => if i < 128 then h.fld (AX_STAT_STATE i) else 0
  | 1 => if i < 128 then h.fld (AX_MSTAT_MSTATE i) else 0
  | 2 => if i < 128 then h.fld (AX_FOL_STAT_CLU i) else 0
  | 3 => if i < 8 then h.fld (VM_STAT_STATE i) else 0
  | 4 => if i < 32 then h.fld (PL_MODE_MODE i) else 0
  | _ => if 1 ≤ i ∧ i ≤ 254 then h.fld (NODE_STAT_STATE i) else 0

/-- A condition before NEG. `snap` is the event snapshot of the pass (R329). -/
def Head.condBase (h : Head) (snap : List Nat) (w : Nat) : Bool :=
  let op := bits w 23 0
  match bits w 31 28 with
  | 1 =>
    let e := bits op 15 0
    snap.any (fun x => x == e || (e % 256 == 255 && x / 256 == e / 256))
  | 2 =>
    let n := h.node (bits op 23 16)
    let c := bits op 7 0
    !n.stale && bit (wordAt n.inputs (c / 32)) (c % 32)
  | 3 =>
    let t := bits (h.rd (MST_STATES (2 * h.fld MST_STAT_STATE))) 15 0
    decide (t ≠ 0 ∧ t ≤ h.rd MST_TIMER)
  | 4 => bit (h.rd MST_REQ) (op % 32)
  | 5 => h.unitField (bits op 23 20) (bits op 19 12) == op % 16
  | 6 => (List.range 128).all (fun n => !h.enabled n)
  | 7 => bit (h.rd MST_FLAGS) (op % 32)
  | 8 => bit (h.rd SAFE_STATUS) (op % 32)
  | _ => true

/-- A condition word. -/
def Head.condHolds (h : Head) (snap : List Nat) (w : Nat) : Bool := h.condBase snap w != bit w 27

/-- Word `w` of transition `i`. -/
def Head.trWord (h : Head) (i w : Nat) : Nat := h.rd (MST_TRANS (4 * i + w))

/-- Transition `i` is one that the section holds: not all of its words are 0. -/
def Head.trUsed (h : Head) (i : Nat) : Bool := (List.range 4).any (fun w => h.trWord i w != 0)

/-- Transition `i` fires now (R325, R331). -/
def Head.fires (h : Head) (snap : List Nat) (i : Nat) : Bool :=
  let w0 := h.trWord i 0
  let a := h.condHolds snap (h.trWord i 1)
  let b := h.condHolds snap (h.trWord i 2)
  let c := match bits w0 17 16 with
    | 0 => a
    | 1 => a && b
    | 2 => a || b
    | _ => a && !b
  h.trUsed i && (bit w0 19 || bits w0 31 26 == h.fld MST_STAT_STATE) && c

/-! ## Actions (R327, R330, Table 14-3) -/

/-- A refused action is recorded in MST_REFUSE. -/
def Head.noteRefused (h : Head) (i status : Nat) : Head :=
  if status = 0 then h else (h.put MST_REFUSE_ACTION i).put MST_REFUSE_STATUS status

/-- AXES_OFF: EN = 0 for every axis at the next Bell edge. -/
def Head.axesOff (h : Head) : Head :=
  h.allAxes.foldl (fun (h : Head) n => h.shadow (AX_CTL n) (bits (h.pendingRd (AX_CTL n)) 3 2 * 4)) h

/-- Action `i`. -/
def Head.action (h : Head) (key : List Nat) (i : Nat) : Head :=
  let w0 := h.rd (MST_ACTS (2 * i))
  let v := h.rd (MST_ACTS (2 * i + 1))
  let op := bits w0 23 0
  match bits w0 31 24 with
  | 1 => let r := h.commitWrite key false [(op, BitVec.ofNat 32 v)]; r.1.noteRefused i r.2.1
  | 2 => let r := h.softRequest (op % 1024) (v % 256); r.1.noteRefused i r.2
  | 3 => h.wr MST_FLAGS (if bit op 0 then bandNot (h.rd MST_FLAGS) v else bor (h.rd MST_FLAGS) v)
  | 4 => h.wr MST_REQ (bandNot (h.rd MST_REQ) v)
  | 5 => let r := h.requestReload (op % 16); if r.2 = 0 then r.1 else r.1.noteRefused i (r.1.fld BOOT_RELOAD_REFUSE)
  | 6 => let r := h.requestRollCall h.coSafe; if r.2 = 0 then r.1 else r.1.noteRefused i (r.1.fld NODE_RC_CTL_REFUSE)
  | 7 => let r := h.enableRequest (op % 1024); r.1.noteRefused i r.2
  | 8 => h.axesOff
  | 9 => (h.put MST_NOTIFY_VALID 1).put MST_NOTIFY_CODE v
  | _ => h

/-- A run of actions in order. -/
def Head.actions (h : Head) (key : List Nat) (first n : Nat) : Head :=
  (List.range n).foldl (fun (h : Head) k => h.action key (first + k)) h

/-- Enter a state after the actions of a transition: requests of the pass are checked against the state entered (R332). -/
def Head.enterState (h : Head) (key : List Nat) (s first n : Nat) : Head :=
  let h := (h.put MST_STAT_STATE s).put MST_STAT_CO_SAFE (bits (h.rd (MST_STATES (2 * s))) 30 30)
  let h := (h.wr MST_TIMER 0).actions key first n
  let w1 := h.rd (MST_STATES (2 * s + 1))
  h.actions key (bits w1 25 16) (bits w1 6 0)

/-! ## Passes (R331, R333) -/

/-- A table is being evaluated: a recipe in force, no reload, not at a Substitute. -/
def Head.tableRuns (h : Head) : Bool := h.on MST_STAT_RUN && !h.serviceState && h.boot.reload == .none && !h.substitute

/-- The first pass of a table enters its initial state before any transition is scanned (R333). -/
def Head.firstState (h : Head) (key : List Nat) : Head :=
  if h.mst.firstPass then
    let s := match h.content? with | some c => c.initialState | none => 0
    { h with mst := { h.mst with firstPass := false } }.enterState key s 0 0
  else h

/-- The steps of a pass after the snapshot. The scan of a first pass follows the entry of the initial state, so that its transitions
see the events raised before it (R69, R79; notes/assumptions/78.md). -/
def Head.passSteps (h : Head) (key : List Nat) (snap : List Nat) : Head :=
  let h := h.firstState key
  match h.mst.force with
  | some s => { h with mst := { h.mst with force := none } }.enterState key s 0 0
  | none =>
    match (List.range 512).find? (fun i => h.fires snap i) with
    | some i =>
      let w0 := h.trWord i 0
      let w3 := h.trWord i 3
      ((h.put MST_STAT_LAST_TR i).bump MST_CNT_TR).enterState key (bits w0 25 20) (bits w3 25 16) (bits w3 6 0)
    | none => h

/-- The tick at which Machine Time next reaches or passes a whole millisecond: now, when it does so in this tick and that one has not been
seen. -/
def Head.passTick (h : Head) : Nat :=
  let ms := 10 ^ 6 * 2 ^ 32
  let t := h.time.mt.nextWhole ms h.now
  if t = h.mst.lastMs then h.time.mt.nextWhole ms (t + 1) else t

/-- MST_PASS: the pass of the next whole millisecond of Machine Time. A millisecond whose pass did not come counts as skipped. -/
def Head.mstPass (h : Head) (key : List Nat) : Head :=
  let h := h.forward h.passTick
  let h : Head := { h with mst := { h.mst with lastMs := h.now } }
  let missed := if h.mst.lastPass = 0 ∨ h.mst.firstPass then 0 else (h.now - h.mst.lastPass + 100000) / 200000 - 1
  if !h.tableRuns then { h with mst := { h.mst with lastPass := 0 } }
  else
    let snap := h.mst.events
    let h := { h with mst := { h.mst with events := [], lastPass := h.now } }
    let h := (h.bumpBy MST_CNT_SKIP missed).bumpBy MST_TIMER (missed + 1)
    h.passSteps key snap

end Sys2Proof.Machine
end

