-- ==== Sys2Proof/Machine/Install.lean ====
section
/-! DEFINITION. A recipe comes into force (R68, R73, R74): the targets take their sections, the tables start, what goes on across a
reload goes on. -/

namespace Sys2Proof.Machine

/-- A register with a field that a read clears: a counter. -/
def countsReg (a : Nat) : Bool := match regRow? a with | some r => r.fields.any (fun f => f.acc == .rc) | none => false

/-- AX_STAT, AX_FAULT and AX_MFAULT: latched faults outlive a reload. -/
def axLatched (a : Nat) : Bool := (a / 65536 == 8 || a / 65536 == 9) && [4, 8, 0x104].contains (a % 0x400)

/-- The registers that a new recipe leaves as they stand before its own values are written: those that no recipe fills, the
virtual masters', the encoders', the pair's, the DC bus groups', latched faults, counters and the record state of the
acquisition engine; the stations' while the network stays the same. -/
def keptReg (sameNet : Bool) (a : Nat) : Bool :=
  let b := a / 65536
  ownBlock a || b == 0xA || b == 0xC || b == 0xF || (b == 0xD && (sameNet || decide (0xD4000 ≤ a))) || axLatched a ||
    [ACQ_STAT, ACQ_DEAD, ACQ_DEAD_MAX].contains a || countsReg a

/-- Words of one memory of engine `e` from a list of (engine, address, word). -/
def dataOf {α : Type} [DecidableEq α] (d : Nat → α) (e : Nat) (l : List (Nat × Nat × α)) : Tbl α :=
  (l.filter (fun w => w.1 == e)).foldl (fun (t : Tbl α) w => t.set d w.2.1 w.2.2) []

/-- The Loop Engines: LAW_CODE in every program RAM alike, LAW_DATA in the memories that it names (R183). -/
def recipeEngines (c : Content) : Vector Engine 16 :=
  Vector.ofFn (fun e => { Engine.initial with
    prog := c.code.foldl (fun (t : Tbl Word) w => t.set zeroWord w.1 w.2) [], xRam := dataOf zero24 e.val c.xData, yRam := dataOf zero24 e.val c.yData
    cRam := dataOf zero24 e.val c.cData })

/-- The cam store with the CAM section's segments. -/
def recipeCams (c : Content) : Tbl Word :=
  c.cams.foldl (fun (t : Tbl Word) s => t.setList zeroWord (8 * s.1) (s.2.take 8)) []

/-- What an axis keeps: its count and the last report, the angle, the catches, the encoder flag. -/
def Axis.carried (x : Axis) : Axis :=
  { Axis.initial 0 with count := x.count, lastPos := x.lastPos, theta := x.theta, w := x.w, catches := x.catches,
                        encFlag := x.encFlag, fltAck := x.fltAck, pLast := x.pLast, pStill := x.pStill }

/-- What the motion law of an axis keeps: the measured position. -/
def Motion.carried (m : Motion) : Motion :=
  { Motion.initial 0 with p := m.p, w := m.w, valid := m.valid, posOffset := m.posOffset, pRef := m.p, pm := m.p, halted := 0 }

/-- The parts of the head that a new recipe begins anew. -/
def Head.freshParts (h : Head) (c : Content) (sameNet : Bool) : Head :=
  { h with
    regs := h.regs.filter (fun e => keptReg sameNet e.1)
    shadows := [], sched := { Sched.initial with routes := c.routes }
    engines := recipeEngines c, mailbox := []
    axes := h.axes.map (fun e => (e.1, e.2.carried)), motion := h.motion.map (fun e => (e.1, e.2.carried))
    follow := [], cams := recipeCams c
    mst := { Mst.initial with firstPass := true, events := if h.sysState = 1 then h.mst.events else [] } }

/-- The network: as it stands with empty slots while NET_SIG is the same, otherwise only its lanes. -/
def Head.freshNet (h : Head) (sameNet : Bool) : Head :=
  if sameNet then { h with net := { h.net with slots := [] } }
  else { h with net := { Net.initial with lanes := h.net.lanes, tx := h.net.tx, rc := .initial } }

/-- A word of the descriptors 960 to 1023, which no recipe changes (R205). -/
def privDesc (a : Nat) : Bool := decide (SCHED_DESC (8 * 960) ≤ a ∧ a < SCHED_DESC (8 * 1024))

/-- The registers of the recipe's sections, its header's figures and the states of BOOT (R61). -/
def Head.recipeRegs (h : Head) (r : Recipe) : Head :=
  let h := (r.content.regs.filter (fun e => !privDesc e.1)).foldl (fun (h : Head) e => h.wr e.1 (band e.2.toNat (definedBits e.1))) h
  let h := r.content.tasks.foldl (fun (h : Head) t =>
    (t.2.take 8).zipIdx.foldl (fun (h : Head) w => h.wr (SCHED_DESC (8 * t.1 + w.2)) w.1.toNat) h) h
  let h := ((r.safety.drop 22).take 260).zipIdx.foldl (fun (h : Head) w => h.wr (SAFE_AXMAP w.2) w.1.toNat) h
  let h := ((h.put LANE_TOPO_TOPO_A r.topoA).put LANE_TOPO_TOPO_B r.topoB).putBit LANE_TOPO_LL_USED r.llUsed
  let h := (h.put SCHED_WC_WC_LOAD r.wcLoad).wr SAFE_RECIPE_SIG r.safeSig.toNat
  let h := (((h.wr BOOT_RECIPE_ID r.id.toNat).wr BOOT_RECIPE_VER r.ver.toNat).put BOOT_LEVEL_LEVEL r.level).put BOOT_STATUS_LOADED 1
  let h := h.put RED_CFG_SIDE (h.fld SYS_STRAP_ROLE)
  ((h.put BOOT_STATUS_SLOT (if r.fromHost then 0 else r.slot)).putBit BOOT_STATUS_HOSTLOAD r.fromHost).put BOOT_RELOAD_BUSY 0

/-- A virtual master whose MCYC and SRC are unchanged keeps m and v; any other starts stopped at 0 (Table 12-6). -/
def Head.carryVm (old : Head) (h : Head) (v : Nat) : Head :=
  if old.boot.recipe.isSome ∧ old.rd (VM_MCYC v) = h.rd (VM_MCYC v) ∧ old.fld (VM_CFG_SRC v) = h.fld (VM_CFG_SRC v) then h
  else (h.setVm v (fun _ => .initial)).vmRebase v

/-- The mode that a loop returns to: that before a running tune, else the present one. -/
def Head.modeBefore (h : Head) (i : Nat) : Nat := match (h.loop i).tune with | some t => t.prevMode | none => h.plMode i

/-- A process loop whose station, channel and FORM are unchanged returns to its mode with its last output; any other starts in
the recipe's initial mode (Table 13-5). The recipe's set and model are in force; a running tune has ended ABORTED. -/
def Head.carryLoop (old : Head) (h : Head) (i : Nat) : Head :=
  let same := old.boot.recipe.isSome && old.rd (PL_MAP i) == h.rd (PL_MAP i) && old.fld (PL_CFG_FORM i) == h.fld (PL_CFG_FORM i)
  if same then
    let mode := old.modeBefore i
    let h := (h.put (PL_MODE_MODE i) mode).wr (PL_STAT i) (old.rd (PL_STAT i))
    let h := (h.put (PL_STAT_PHASE i) 0).setLoop i (fun x => { x with
      tune := none, abortTune := false, fit := none, commit := none, modelNew := true, owed := none
      coef := h.coefRegs i, form := h.fld (PL_CFG_FORM i), ks := h.fld (PL_CFG_KS i), model := h.modelRegs i
      request := if mode = 1 ∨ mode = 2 then some (mode, none) else none })
    let h := if (old.loop i).tune.isSome then (h.put (PL_STAT_RESULT i) 5).raise 4 3 i else h
    if mode = 1 then h.put (PL_MAN_MAN i) (old.loop i).out else h
  else
    let mode := h.plMode i
    let h := (h.put (PL_MODE_MODE i) 0).setLoop i (fun _ => { Loop.initial 0 with
      coef := h.coefRegs i, form := h.fld (PL_CFG_FORM i), ks := h.fld (PL_CFG_KS i), model := h.modelRegs i
      request := if mode = 1 ∨ mode = 2 then some (mode, none) else none })
    if (old.loop i).tune.isSome then h.raise 4 3 i else h

/-- The recipe is in force. `old` is the head as it was. The axes are disabled, the tasks enabled and waiting, the table due for
its first pass with an emptied event set (R333), but for the events of a start-up before any table, TRIM_BAD among them (R79); Line Time runs on
with the recipe's F_LT (R156); the partner's IDENT must match anew (R414). -/
def Head.install (old : Head) (r : Recipe) (fallback : Bool) : Head :=
  let sameNet := old.boot.recipe.any (fun o => o.netSig == r.netSig)
  let h := (old.freshParts r.content sameNet).freshNet sameNet
  let h := h.recipeRegs r
  let h := h.stations.foldl (fun (h : Head) s => h.fillShunt s) h
  let h : Head := { h with time := { h.time with lt := h.time.lt.setF h.now (sext 32 (h.rd TIME_LT_ADDEND)) } }
  let b : Boot := { h.boot with recipe := some r, reload := .none, hl := none, hostImage := none }
  let h : Head := { h with
    boot := b, bell := { h.bell with cyclicCount := 0, gatesOff := false }, red := { h.red with identOk := false } }.takeReference
  let h := (List.range 8).foldl (Head.carryVm old) h
  let h := (List.range 32).foldl (Head.carryLoop old) h
  let h := (h.recipeTasks.filter (fun t => bit (h.desc t 0) 31)).foldl (fun (h : Head) t => h.enableTask t) h
  let h := h.put MST_STAT_RUN 1
  if fallback then h.tell 0x0300 else h

/-! ## A reload at the Bell edges (R73) -/

/-- Step 1: gates-off in every command slot, every task disabled; the load begins. -/
def Head.reloadGatesOff (h : Head) : Head :=
  match h.boot.reload with
  | .accepted slot back =>
    let h := h.stations.foldl (fun (h : Head) s => h.stationGatesOff s) h
    let h := h.recipeTasks.foldl (fun (h : Head) t => h.disableTask t) h
    { h with boot := { h.boot with reload := .loading slot back false }, bell := { h.bell with gatesOff := true } }
  | _ => h

/-- Step 3: the new recipe comes into force; with another NET_SIG Roll Call runs from this edge with the lanes kept up. -/
def Head.reloadCommit (h : Head) : Head :=
  match h.boot.reload with
  | .ready _ r fallback =>
    let other := !(h.boot.recipe.any (fun o => o.netSig == r.netSig))
    let h := (if other then h.recessAbort.rcFreeTickets else h).install r fallback
    if other && h.substitute then (h.relane.setRed (fun x => { x with join := [] })).put SYS_STATUS_STATE 4
    else if other then h.rollCallStart.setRc (fun x => { x with first := false })
    else h.put SYS_STATUS_STATE (if h.net.rc.active then 3 else 4)
  | _ => h

end Sys2Proof.Machine
end

