-- ==== Sys2Proof/Machine/BellEdge.lean ====
section
/-! DEFINITION. The Bell edge as one step (R18, R19): what comes ahead of it, what takes effect at it, and what it starts. Before
it the unit mailbox words that the head composes for an axis (Table 10-7). -/

namespace Sys2Proof.Machine

/-! ## The unit mailbox (Table 10-7, R351, R378, R459) -/

/-- BRAKE (R459). -/
def Head.brake (h : Head) (n : Nat) : Bool :=
  let st := h.fld (AX_STAT_STATE n)
  (h.enabled n && (st == 2 || st == 3 || st == 4) && h.stopCode n != 2) ||
    ((h.axis n).pt.active && (h.ptStep n == 5 || h.ptStep n == 6))

/-- Mailbox word 0xE104: STATE, EN, which shows during a Placement Test too (R459), fault present, stop requested, STOP_CODE. -/
def Head.mailState (h : Head) (n : Nat) : Nat :=
  let code := h.stopCode n
  h.fld (AX_STAT_STATE n) + b2n (h.enabled n || (h.axis n).pt.active) * 16 + b2n (h.gatingFaults n != 0) * 32 + b2n (code != 0) * 64 + code * 128

/-- Words 0xE100 to 0xE105 and 0xE115 of axis `n` as they stand. -/
def Head.refreshMail (h : Head) (n : Nat) : Head :=
  let h : Head := if h.fld (AX_CTL_CTRL n) = 0 then
      (h.setMail n 0 (h.fld (AX_IREF_D_VALUE n))).setMail n 1 (bits (h.rd (AX_IREF_Q n)) 31 8)
    else h
  let h := (h.setMail n 2 (h.fld (AX_ILIM_VALUE n))).setMail n 3 (min (h.fld (AX_ILIM_REGEN_VALUE n)) (h.groupRegen n))
  let h := h.setAxis n (fun x => { x with fltAck := h.fltAckOf n })
  let h := h.setMail n 4 (h.mailState n)
  let h := h.setMail n 5 (h.fld (AX_DTC_DT n) + h.dutyOf n * 2 ^ 8 + b2n (h.brake n) * 2 ^ 16 + b2n (h.axis n).fltAck * 2 ^ 17)
  if h.stopCode n = 1 then h.setMail n 0x15 (bits (h.axisDec n) 31 8) else h

/-- TASK_DISPATCH: the mailbox and the constants of the task's axis, or the records of its process loops, are current when it starts. -/
def Head.taskDispatch (h : Head) (e : Nat) : Head :=
  match h.offer e with
  | some (t, _) =>
    let n := h.taskAxis t
    let h := if n < 128 then
        let h := (if h.isMotion t then h.payPreset n else h).refreshMail n
        if h.currentTask n = some t then h.setYWords n (h.axisConstants n) else h
      else h
    let h := (h.dispatch e).loopRecords t e
    if n < 128 ∧ h.isMotion t ∧ (h.engine e).tid = t then h.setFol n (fun f => { f with owedPhi := 0, owedAdj := 0 }) else h
  | none => h.dispatch e

/-! ## The parts of a Bell edge -/

/-- The next Bell instant and its tick (R157): the first Bell after reset keeps the instant that Roll Call set. -/
def Head.openBell (h : Head) : Head :=
  let len := if h.bell.rollcall then 25000 else h.bellTicks
  let b := h.bell
  let at_ := if b.first then b.instant else b.instant + 5 * len
  let t := max h.now (h.time.mt.tickOf (at_ * 2 ^ 32))
  let n := if b.rollcall ∨ b.first then b.cyclicCount else b.cyclicCount + 1
  let h : Head := { h with now := t, bell := { b with
    instant := at_, edge := t, first := false, cyclicCount := n, prevInstant := b.instant, prevEdge := if b.first then 0 else b.edge
    prevRollcall := b.rollcall } }
  if b.first then h else h.wr TIME_BELL_CNT ((h.bellNo + 1) % 2 ^ 32)

/-- Rank 3: the pair's events; a takeover arms the acquisition engine from IDLE, a yield stops it (R426). -/
def Head.pairRank (h : Head) : Head :=
  let was := h.substitute
  let h := h.pairEdge (h.stampAt h.now)
  if was ∧ !h.substitute then
    let h := h.setAcqState 0
    if h.on ACQ_CFG_AUTOARM then h.acqArm.1 else h
  else if !was ∧ h.substitute then h.acqHalt else h

/-- Roll Call at a Bell edge: the Bell counts, cyclic operation begins at the Bell that START names, a requested full Roll Call
begins (R137, R153). -/
def Head.rollCallBell (h : Head) : Head :=
  if h.net.rc.requested then (h.rollCallStart).setRc (fun r => { r with requested := false, byRequest := true, first := false })
  else if h.net.rc.active then
    let h := h.setRc (fun r => if r.first then { r with first := false } else { r with bells := r.bells + 1 })
    if h.bell.firstCyclic = some h.bellNo then h.rollCallDone else h
  else h

/-- Every station at the edge of Bell `b`. -/
def Head.stationBell (b : Nat) (h : Head) (s : Nat) : Head :=
  let h := h.nodeBell s
  let h := if (h.node s).detainPending then h.detain s else h
  (h.limpEdge s).resyncEdge s b

/-- The markers, and the stamp of a long one on the steering lane (R105, R160). -/
def Head.markerBell (h : Head) (phase : Nat) : Head :=
  let ns := h.bell.instant
  let h := h.sendMarkers ns
  let long := match h.net.tx.get (fun _ => []) h.steerLane with | f :: _ => !f.payload.isEmpty | [] => false
  if long && h.fieldLanes.contains h.steerLane then h.keepMarker ns phase else h

/-- One axis in the motion and cam unit's third step: the front end of CTRL 3, the master mailbox of every other axis. -/
def Head.masterAxis (h : Head) (n : Nat) : Head :=
  if h.fld (AX_CTL_CTRL n) = 3 then h.frontEnd n
  else ((h.camEdge n).setFol n (fun f => { f with dphi := 0, marks := [], owedPhi := 0, owedAdj := 0 })).frontMail n

/-- The motion and cam unit (R281, R293): the encoders, the virtual masters, the master mailboxes. -/
def Head.masterBell (h : Head) : Head :=
  let h := (List.range 4).foldl (fun (h : Head) k => h.encBell k) h
  let h := (List.range 8).foldl (fun (h : Head) v => h.vmBell v) h
  h.allAxes.foldl (fun (h : Head) n => h.masterAxis n) h

/-- One axis at the edge: its Placement Test, a derived set, how long p has stood still, its mailbox. -/
def Head.axisBell (h : Head) (n : Nat) : Head :=
  let h := (h.ptEdge n).deriveEdge n
  let p := (h.mot n).p
  let h := h.setAxis n (fun x => { x with pStill := if x.pLast = p then x.pStill + 1 else 0, pLast := p })
  h.refreshMail n

/-- Bells for which every axis of each output has been STOPPED (R378). -/
def Head.stillBell (h : Head) : Head :=
  let l := (List.range 4).map (fun k =>
    let axes := h.allAxes.filter (fun n => h.axisOut n == k)
    if !axes.isEmpty && axes.all (fun n => h.mstate n == 3) then nth h.core.still k + 1 else 0)
  { h with core := { h.core with still := l } }

/-- The BELL flags of a cyclic Bell (R207). -/
def Head.bellFlags (h : Head) : Head :=
  h.recipeTasks.foldl (fun (h : Head) t =>
    let d := max 1 (bits (h.desc t 2) 15 8)
    if h.bell.cyclicCount % d = bits (h.desc t 2) 7 0 then h.bellFlag t else h) h

/-- AUTOARM at the first cyclic Bell after a recipe came into force (R426). -/
def Head.autoArm (h : Head) : Head :=
  if h.bell.cyclicCount = 0 ∧ h.on ACQ_CFG_AUTOARM ∧ !h.substitute ∧ h.boot.reload = .none then h.acqArm.1 else h

/-- What takes effect ahead of the Bell's own work: time, the pair, the mirror, the shadows, Roll Call, a reload. -/
def Head.edgeFirst (h : Head) : Head :=
  let h := (h.openBell.closeLoad h.bell.first).pairRank
  let h := (h.applyStep h.bell.edge).applyF h.bell.edge
  let h := h.heardBell
  let h : Head := if h.paired then { h with pins := { h.pins with hbtOut := !h.pins.hbtOut } } else h
  let h := (h.mirrorEdge.edgeShadows h.bell.edge).calEdge
  h.rollCallBell.reloadGatesOff.reloadCommit

/-- The cyclic part of a Bell edge. -/
def Head.edgeCyclic (h : Head) : Head :=
  let h := h.autoArm.bellFlags
  if h.bellNo % 256 = 1 then h.steerPeriod else h

/-- BELL_EDGE: at the next Bell instant; `phase` is the wait of R20 in units of 0.8 ns. -/
def Head.bellEdge (h : Head) (phase : Nat) : Head :=
  if !h.bell.running then h
  else
    let h := h.edgeFirst
    let b := h.bellNo
    let h := h.stations.foldl (Head.stationBell b) h
    let h := h.markerBell phase
    let h := h.masterBell
    let h := (List.range 16).foldl (fun (h : Head) g => h.groupEdge g b) h
    let h := h.allAxes.foldl (fun (h : Head) n => h.axisBell n) h
    let h := h.stillBell
    let h := if h.bell.rollcall then h else h.edgeCyclic
    h.healthBell.mirrorSample

end Sys2Proof.Machine
end

