-- ==== Sys2Proof/Machine/Stores.lean ====
section
/-! DEFINITION. The stores that outlive a reset: reading and programming the flash, the checks of a recipe image (R61 to R67, R123, R206, R328),
the records of the event log in the flash (R452, R454), the key store and the trim store (R64 to R66, R77 to R79). -/

namespace Sys2Proof.Machine

/-! ## Flash bytes (R60) -/

/-- An erased byte. -/
def erased (_ : Nat) : Byte := 0xFF

/-- The `n` bytes of the flash from an address. -/
def Store.bytes (s : Store) (addr n : Nat) : List Nat := (s.flash.slice erased addr n).map (·.toNat)

/-- The flash with the `n` bytes from an address erased. -/
def Store.erase (s : Store) (addr n : Nat) : Store :=
  { s with flash := s.flash.filter (fun e => !(decide (addr ≤ e.1) && decide (e.1 < addr + n))) }

/-- The flash with bytes programmed from an address: a programmed bit goes from 1 to 0 only. -/
def Store.program (s : Store) (addr : Nat) (bs : List Nat) : Store :=
  { s with flash := bs.zipIdx.foldl (fun (f : Tbl Byte) b =>
      f.set erased (addr + b.2) (f.get erased (addr + b.2) &&& BitVec.ofNat 8 b.1)) s.flash }

/-- The little-endian word at a byte offset of a list of bytes. -/
def imgWord (b : List Nat) (o : Nat) : Nat := leWord ((b.drop o).take 4)

/-! ## The image header (R61, checks 3 to 9 of Table 03-6) -/

/-- MAGIC, FORMAT and HDR_LEN, and every reserved field 0 (check 3). -/
def headerMagic (b : List Nat) : Bool :=
  imgWord b 0 == 0x43524853 && imgWord b 4 == 0x01000001 && bits (imgWord b 0x0C) 31 16 == 0 && bits (imgWord b 0x24) 15 2 == 0 &&
    bits (imgWord b 0x2C) 7 5 == 0 && bits (imgWord b 0x34) 31 8 == 0 && ((b.drop 0x80).take 0x7C).all (· == 0)

/-- A behaviour level that SUPPORTED lists: level 1 alone (R71). -/
def levelSupported (n : Nat) : Bool := n == 1

/-- The first of checks 3 to 9 that the header fails. `limit` bounds IMAGE_LEN; `exact` is the length of a host load. -/
def headerFault (b : List Nat) (limit : Nat) (exactly : Option Nat) (k : KeyStore) : Option Nat :=
  let len := imgWord b 8
  if !headerMagic b then some 3
  else if imgWord b 0xFC ≠ (crc32 (b.take 0xFC)).toNat then some 4
  else if len % 16 ≠ 0 ∨ len < 512 ∨ len > 0x800000 ∨ len > limit ∨ exactly.any (fun n => n != len) then some 5
  else if !levelSupported (bits (imgWord b 0x0C) 7 0) then some 6
  else if bits (imgWord b 0x0C) 15 8 > 0xA1 then some 7
  else if !k.locked then some 8
  else if imgWord b 0x30 ≠ k.id.toNat then some 9
  else none

/-! ## The section table and the tag (R62 to R64, checks 10 to 14) -/

/-- A section table entry; `res` are its reserved bits. -/
structure SectionRow where
  typ : Nat
  res : Nat
  off : Nat
  len : Nat
  crc : Nat
  deriving DecidableEq, Repr

/-- The section table of an image. -/
def sectionRows (b : List Nat) : List SectionRow :=
  (List.range (min 255 (bits (imgWord b 0x34) 7 0))).map (fun k =>
    let o := 256 + 16 * k
    { typ := bits (imgWord b o) 7 0, res := bits (imgWord b o) 31 8, off := imgWord b (o + 4), len := imgWord b (o + 8)
      crc := imgWord b (o + 12) })

/-- Sections in ascending TYPE, each once, in the table and in the image (R62). -/
def typesRise : List SectionRow → Bool
  | a :: b :: t => a.typ < b.typ && a.off ≤ b.off && typesRise (b :: t)
  | _ => true

/-- No two sections overlap. -/
def sectionsApart : List SectionRow → Bool
  | [] => true
  | a :: t => t.all (fun b => apart a.off a.len b.off b.len) && sectionsApart t

/-- Check 10: the table of an image of `len` bytes is well formed, every TYPE is one of level 1, the required ones are there. -/
def sectionsOk (rows : List SectionRow) (len : Nat) : Bool :=
  let start := 256 + 16 * rows.length
  !rows.isEmpty && rows.length ≤ 32 && typesRise rows && sectionsApart rows &&
    rows.all (fun r => r.res == 0 && 1 ≤ r.typ && r.typ ≤ 0x0F && r.off % 16 == 0 && start ≤ r.off && r.off + r.len + 32 ≤ len) &&
    [1, 5, 7, 8, 0x0C, 0x0F].all (fun t => rows.any (fun r => r.typ == t))

/-- The bytes of a section. -/
def sectionBytes (b : List Nat) (r : SectionRow) : List Nat := (b.drop r.off).take r.len

/-- The index of the first section whose CRC differs (check 12). -/
def badSection (b : List Nat) (rows : List SectionRow) : Option Nat :=
  rows.findIdx? (fun r => (crc32 (sectionBytes b r)).toNat != r.crc)

/-- The tag matches over bytes 0 to IMAGE_LEN − 33 (R64). -/
def tagMatches (b : List Nat) (key : List Nat) : Bool :=
  let len := imgWord b 8
  hmacSha256 key (b.take (len - 32)) == (b.drop (len - 32)).take 32

/-- FIT, LOAD and WC_LOAD (check 13). -/
def accepted (b : List Nat) : Bool := bit (imgWord b 0x24) 0 && bit (imgWord b 0x24) 1 && bits (imgWord b 0x24) 31 16 ≤ 9000

/-! ## The MST section's own checks (R328) -/

/-- A register of a recipe's contents. -/
def contentReg (c : Content) (a : Nat) : Nat := match c.regs.find? (fun e => e.1 == a) with | some e => e.2.toNat | none => 0

/-- A condition word with a defined TYPE, kind and reserved bits 0. -/
def conditionOk (w : Nat) : Bool :=
  bits w 26 24 == 0 && bits w 31 28 ≤ 8 && (bits w 31 28 != 5 || bits w 23 20 ≤ 5)

/-- An action range [25:16], [6:0] that stays in the table. -/
def rangeOk (w : Nat) : Bool := bits w 15 7 == 0 && bits w 6 0 ≤ 64 && bits w 25 16 + bits w 6 0 ≤ 1024

/-- A state entry. -/
def stateOk (c : Content) (s : Nat) : Bool :=
  bits (contentReg c (MST_STATES (2 * s))) 29 16 == 0 && rangeOk (contentReg c (MST_STATES (2 * s + 1)))

/-- A transition entry. -/
def transOk (c : Content) (i : Nat) : Bool :=
  let w (k : Nat) : Nat := contentReg c (MST_TRANS (4 * i + k))
  let dst := bits (w 0) 25 20
  if (List.range 4).all (fun k => w k == 0) then true
  else
    bit (contentReg c (MST_STATES (2 * dst))) 31 && bits (w 0) 15 0 == 0 && !bit (w 0) 18 && conditionOk (w 1) && conditionOk (w 2) &&
      rangeOk (w 3) && bits (w 3) 6 0 + bits (contentReg c (MST_STATES (2 * dst + 1))) 6 0 ≤ 64

/-- Every action of a range that the table uses has a defined OP (Table 14-3). -/
def actsDefined (c : Content) (w : Nat) : Bool :=
  (List.range (bits w 6 0)).all (fun k => bits (contentReg c (MST_ACTS (2 * (bits w 25 16 + k)))) 31 24 != 0)

/-- The MST section passes R328. -/
def tableOk (c : Content) : Bool :=
  bit (contentReg c (MST_STATES (2 * c.initialState))) 31 && (List.range 64).any (fun s => bit (contentReg c (MST_STATES (2 * s))) 30) &&
    (List.range 64).all (stateOk c) && (List.range 512).all (transOk c) &&
    (List.range 64).all (fun s => actsDefined c (contentReg c (MST_STATES (2 * s + 1)))) &&
    (List.range 512).all (fun i => actsDefined c (contentReg c (MST_TRANS (4 * i + 3)))) &&
    (List.range 1024).all (fun i =>
      let op := bits (contentReg c (MST_ACTS (2 * i))) 31 24
      (contentReg c (MST_ACTS (2 * i)) == 0 && contentReg c (MST_ACTS (2 * i + 1)) == 0) || (1 ≤ op && op ≤ 9))

/-! ## The TASKS and TIMETABLE sections' own checks (R123, R206) -/

/-- A lane number of a slot, or 0xF for none. -/
def laneOrNone (n : Nat) : Bool := n ≤ 7 || n == 0xF

/-- A descriptor of a recipe's task keeps to Table 09-2, its TASK_INDEX to 0–959: the privileged ones, 960 to 1023, are the head's own
(R205). -/
def taskOk (t : Nat × List Word) : Bool :=
  let w (k : Nat) : Nat := wordAt t.2 k
  let cls := bits (w 0) 30 29
  let axis := bits (w 0) 15 8
  let div := bits (w 2) 15 8
  t.1 < 960 &&
    cls ≤ 1 && bits (w 0) 28 16 < 0x1000 && (axis ≤ 127 || axis == 0xFF) && (cls == 1 || !bit (w 0) 3) && bits (w 0) 1 0 == 0 &&
      w 1 != 0 && bits (w 2) 31 16 != 0 && div != 0 && bits (w 2) 7 0 < div && (cls == 0 || bits (w 3) 31 16 == 0) &&
      laneOrNone (bits (w 3) 15 12) && bits (w 3) 3 0 == 0 && laneOrNone (bits (w 4) 31 28) && bits (w 4) 9 0 == 0

/-- Every lane that carries a station has 1 to 8 pairs. -/
def pairsOk (c : Content) : Bool :=
  c.positions.all (fun p => c.laneTables.any (fun t => t.lane == p.lane && !t.pairs.isEmpty)) && c.laneTables.all (fun t => t.pairs.length ≤ 8)

/-- The section that the contents of a TYPE break, as an index of the section table. -/
def ownFault (rows : List SectionRow) (c : Content) : Option Nat :=
  let bad : List Nat := (if pairsOk c then [] else [7]) ++ (if c.tasks.all taskOk then [] else [8]) ++ (if tableOk c then [] else [0x0C])
  rows.findIdx? (fun r => bad.contains r.typ)

/-- Check 14: `refuse` is the index of a section that its target refuses on other grounds. -/
def targetFault (rows : List SectionRow) (c : Content) (refuse : Option Nat) : Option Nat :=
  match refuse, ownFault rows c with
  | some a, some b => some (min a b)
  | some a, none => some a
  | none, x => x

/-! ## An image as a whole (R67) -/

/-- The first failure of checks 3 to 14: its code and section index. -/
def imageFault (b : List Nat) (limit : Nat) (exactly : Option Nat) (k : KeyStore) (key : List Nat) (c : Content)
    (refuse : Option Nat) : Option (Nat × Nat) :=
  let rows := sectionRows b
  match headerFault b limit exactly k with
  | some code => some (code, 0)
  | none =>
    if !sectionsOk rows (imgWord b 8) then some (0x0B, 0)
    else if !tagMatches b key then some (0x0A, 0)
    else match badSection b rows with
      | some i => some (0x0C, i)
      | none =>
        if !accepted b then some (0x0D, 0)
        else match targetFault rows c refuse with
          | some i => some (0x0E, i)
          | none => none

/-- A descriptor of one of the 64 privileged tasks: 960 to 1023, of CLASS 2 (R205). -/
def privTask (t : Nat × List Word) : Bool := decide (960 ≤ t.1 ∧ t.1 < 1024) && bits (wordAt t.2 0) 30 29 == 2

/-- The recipe of an image that passed every check, with the privileged tasks that the head fills in itself (R205). -/
def recipeOf (b : List Nat) (c : Content) (fromHost : Bool) (slot : Nat) : Recipe :=
  let w (o : Nat) : Nat := imgWord b o
  let safety := match (sectionRows b).find? (fun r => r.typ == 1) with | some r => sectionBytes b r | none => []
  { level := bits (w 0x0C) 7 0, id := BitVec.ofNat 32 (w 0x10), ver := BitVec.ofNat 32 (w 0x14), wcLoad := bits (w 0x24) 31 16
    bellTicks := bits (w 0x28) 15 0, recessTicks := bits (w 0x28) 31 16, topoA := bits (w 0x2C) 1 0, topoB := bits (w 0x2C) 3 2
    llUsed := bit (w 0x2C) 4, netSig := BitVec.ofNat 32 (w 0x38), safeSig := BitVec.ofNat 32 (w 0x3C)
    safety := (List.range (safety.length / 4)).map (fun k => BitVec.ofNat 32 (imgWord safety (4 * k)))
    content := { c with tasks := c.tasks ++ c.privTasks.filter privTask }, fromHost := fromHost, slot := slot }

/-! ## Key and trim stores (R64 to R66, R77 to R79) -/

/-- The 32 bytes of the device key, byte 0 in bits [7:0] of word 0; zeros while the store is not keyed. -/
def KeyStore.bytes (k : KeyStore) : List Nat :=
  if k.locked then k.words.flatMap (fun w => leBytes 4 w.toNat) else List.replicate 32 0

/-- The check value of R65 as the store stands: 0 when blank. -/
def KeyStore.check (k : KeyStore) : Nat :=
  if k.locked ∨ k.fault then leWord ((hmacSha256 (k.words.flatMap (fun w => leBytes 4 w.toNat)) (List.replicate 32 0)).take 4) else 0

/-- A word of the trim store. -/
def Store.trimWord (s : Store) (k : Nat) : Nat := (s.trim.get zeroWord k).toNat

/-- The CRC-32 over bytes 0x000 to 0x7FB of trim words. -/
def trimCrc (w : Nat → Nat) : Nat := (crc32 ((List.range 511).flatMap (fun k => leBytes 4 (w k)))).toNat

/-- TRIM_MAGIC, the CRC and the unique ID match (R79). -/
def Store.trimGood (s : Store) : Bool :=
  s.trimWord 0 == 0x4D495254 && s.trimWord 2 == s.uid.toNat % 2 ^ 32 && s.trimWord 3 == s.uid.toNat / 2 ^ 32 &&
    trimCrc s.trimWord == s.trimWord 511

/-! ## Log records in the flash (R452, R454) -/

/-- The 32 bytes of a record. -/
def LogRec.bytes (r : LogRec) (seq powerUps : Nat) : List Nat :=
  let code := if r.typ = 2 ∨ r.typ = 3 then r.code % 65536 * 65536 + min 65535 powerUps else r.code % 65536 * 65536 + r.rep % 65536
  let ws := [0x4C470000 + r.typ % 256 * 256, seq, r.time % 2 ^ 32, r.time / 2 ^ 32, code, r.data0, r.data1]
  let b := ws.flatMap (leBytes 4)
  b ++ leBytes 4 (crc32 b).toNat

/-- The words of the record at an address, when its MAGIC and CRC match. -/
def Store.recordAt (s : Store) (addr : Nat) : Option (List Nat) :=
  let b := s.bytes addr 32
  if bits (imgWord b 0) 31 16 = 0x4C47 ∧ imgWord b 28 = (crc32 (b.take 28)).toNat then
    some ((List.range 8).map (fun k => imgWord b (4 * k)))
  else none

/-- The place of a record is not erased. -/
def Store.usedAt (s : Store) (addr : Nat) : Bool := (s.bytes addr 32).any (· != 0xFF)

/-- The sector whose first record has the highest valid SEQ, with that SEQ. -/
def Store.newestSector (s : Store) (d : Directory) : Option (Nat × Nat) :=
  (List.range (d.logSize / 4096)).foldl (fun (best : Option (Nat × Nat)) k =>
    match s.recordAt (d.logBase + 4096 * k), best with
    | some r, some b => let x := toBits 32 ((nth r 1 : Int) - b.2); if 1 ≤ x ∧ x < 2 ^ 31 then some (k, nth r 1) else best
    | some r, none => some (k, nth r 1)
    | none, b => b) none

/-- What the records of a sector say, in order: the epoch of the last claim or checkpoint, the power-ups, the minutes, the hot minutes. -/
def logCounters (rs : List (List Nat)) : Option Nat × Nat × Nat × Nat :=
  rs.foldl (fun (c : Option Nat × Nat × Nat × Nat) r =>
    match bits (nth r 0) 15 8 with
    | 1 => (c.1, c.2.1 + nth r 5 % 2, c.2.2)
    | 2 => (some (bits (nth r 4) 31 16), bits (nth r 4) 15 0, c.2.2)
    | 3 => (some (bits (nth r 4) 31 16), bits (nth r 4) 15 0, nth r 5, nth r 6)
    | _ => c) (none, 0, 0, 0)

end Sys2Proof.Machine
end

