-- ==== Sys2Proof/Machine/Ops.lean ====
section
/-! DEFINITION. The operations of the whole machine that many commands share: a command for the head, a register write or read as a
command, a step of the island, the requests that reach beyond the head (software reset, key programming, trim commit). -/

namespace Sys2Proof.Machine

/-- The device key as the authentication and the Engineer view use it. -/
def State.key (s : State) : List Nat := s.store.key.bytes

def State.setHead (s : State) (h : Head) : State := { s with head := h }

/-! ## Falling into reset (R34, R54, R55, R382) -/

/-- Bytes of the flash that an interrupted erase or program leaves open. -/
def State.tear (s : State) (addr n : Nat) : State :=
  let k := s.head.draws
  let bytes := (List.range n).map (fun i => BitVec.ofNat 8 (Config.freeWord (k + i)).toNat)
  { s with
    store := { s.store with flash := s.store.flash.setList erased addr bytes }
    head := { s.head with draws := k + n } }

/-- The flash operation under way is cut: what it was writing is left open, a directory rewrite leaves the older copy (R59). -/
def State.cutFlash (s : State) : State :=
  let s : State := match s.head.boot.flop with
    | some (.erase addr) => s.tear addr 4096
    | some (.program addr _) => s.tear addr 256
    | _ => s
  match s.head.boot.dirOp with
  | some (.directory copyB _) => { s with store := s.store.erase (if copyB then 0x1000 else 0) 4096 }
  | _ => s

/-- The head falls into reset, the core watchdog line drops its alive level; `cause` is a bit of SYS_RESET_CAUSE. The island keeps
its state. -/
def State.enterReset (s : State) (cause : Nat) : State :=
  let s := s.cutFlash
  { s with
    head := { Head.initial with draws := s.head.draws }
    wires := { s.wires with wdAlive := false, wdDropped := true, early := 0, ack := 0, askOff := false }
    inReset := true, stopped := false, cause := cause }

/-! ## Key and trim stores (R65, R66, R77, R78) -/

/-- The key store shows in SYS_STATUS, BOOT_KEY_STAT and BOOT_KEY_CHECK. -/
def Head.showKey (h : Head) (k : KeyStore) : Head :=
  let h := (h.putBit SYS_STATUS_KEY_BLANK (!k.locked && !k.fault)).putBit SYS_STATUS_KEY_FAULT k.fault
  (h.wr BOOT_KEY_STAT (if k.locked ∨ k.fault then k.id.toNat else 0)).wr BOOT_KEY_CHECK k.check

/-- The trim store shows in its window and in SYS_TRIM_STAT. -/
def Head.showTrim (h : Head) (w : Nat → Nat) : Head :=
  let h := (List.range 512).foldl (fun (h : Head) k => h.wr (SYS_TRIM k) (w k)) h
  (h.put SYS_TRIM_STAT_COUNT (bits (w 1) 31 16)).put SYS_TRIM_STAT_ORIGIN (bits (w 4) 0 0)

/-- The key words and KEY_ID are programmed, once in the part's life; `readBack` are the nine words read back where they differ from
those programmed. -/
def State.programKey (s : State) (readBack : Option (List Word)) : State :=
  if s.store.key.locked ∨ s.store.key.fault then s else
  let ws : List Word := (List.range 9).map (fun k => (s.head.boot.keyData.get (fun _ => none) k).getD 0)
  let got := readBack.getD ws
  let k : KeyStore := { words := got.take 8, id := got.getD 8 0, locked := got == ws, fault := got != ws }
  { s with store := { s.store with key := k }, head := (s.head.showKey k).logAdd 5 0 0 0 }

/-- Word `k` of the trim store as a commit writes it: the staged word, with the write count, ORIGIN and the CRC set by the head. -/
def Head.trimBody (h : Head) (k : Nat) : Nat :=
  let stage (k : Nat) : Nat := (h.boot.trimStage.get zeroWord k).toNat
  if k = 1 then (h.fld SYS_TRIM_STAT_COUNT + 1) * 65536 + stage 1 % 65536 else if k = 4 then setBit (stage 4) 0 else stage k
def Head.trimOut (h : Head) (k : Nat) : Nat := if k = 511 then trimCrc h.trimBody else h.trimBody k

/-- The words of the whole trim store as a commit writes them. -/
def Head.trimWords (h : Head) : List Word := (List.range 512).map (fun k => BitVec.ofNat 32 (h.trimOut k))

/-- The machine with another trim store and head. -/
def State.retrim (s : State) (trim : Tbl Word) (h : Head) : State := { s with store := { s.store with trim := trim }, head := h }

/-- The staged words are written. -/
def State.commitTrim (s : State) : State :=
  s.retrim (Tbl.setList zeroWord [] 0 s.head.trimWords) ((s.head.showTrim s.head.trimOut).logAdd 5 0 1 0)

/-- What the head asks for beyond itself is done: a software reset, key programming, a trim commit. -/
def State.settle (s : State) (readBack : Option (List Word)) : State :=
  let want := s.head.boot.want
  if want = 0 then s
  else
    let s := s.setHead (s.head.setBoot (fun b => { b with want := 0 }))
    if bit want 0 then s.enterReset 4
    else
      let s := if bit want 1 then s.programKey readBack else s
      if bit want 2 then s.commitTrim else s

/-! ## A command for the head -/

/-- A command acts on the head, unless the head is in reset. -/
def State.onHeadThen (s : State) (readBack : Option (List Word)) (f : Head → Head) : State :=
  if s.inReset then s else (s.setHead (f s.head)).settle readBack

def State.onHead (s : State) (f : Head → Head) : State := s.onHeadThen none f

/-- A register write that the table names as a command of its own: words at byte addresses, in the view in force. -/
def State.write (s : State) (ws : List (Nat × Nat)) : State :=
  s.onHead (fun h => h.directWrite s.key (ws.map (fun w => (w.1, BitVec.ofNat 32 w.2))))

/-- The word that writes `v` into a field and leaves the register's other RW fields as they stand or wait. -/
def Head.fieldWord (h : Head) (f : Fld) (v : Nat) : Nat := putBits (band (h.pendingRd f.addr) (stored f.addr)) f.hi f.lo v

/-- A write of one field. -/
def State.writeField (s : State) (f : Fld) (v : Nat) : State :=
  s.onHead (fun h => h.directWrite s.key [(f.addr, BitVec.ofNat 32 (h.fieldWord f v))])

/-- A register read that the table names as a command of its own. -/
def State.read (s : State) (as : List Nat) : State := s.onHead (fun h => h.directRead as)

/-- Engine `e` issues a Loop Engine instruction. -/
def State.issue (s : State) (e : Fin 16) (i : LInstr) : State := s.onHead (fun h => h.issue e.val i)

/-- A step of the island, which no reset of the head holds back (R12, R35). -/
def State.onIsland (s : State) (f : Island → Island) : State := { s with island := f s.island }

/-- INPUT_DISC on the pair at `k`: its filtered levels disagree longer than DISC. -/
def Island.discNow (s : Island) (k : Nat) : Island :=
  if s.pairAt k ∧ (s.inp k).level ≠ (s.inp (k + 1)).level then s.pairFault k else s

/-- FS_STOP: FS_SAG has lasted longer than SAG_TOL; every output goes off with code 2. -/
def Island.sagStop (s : Island) : Island :=
  if s.fsSag then (List.range 4).foldl (fun (s : Island) n => s.offNow n) s.stopSupply else s

/-- A tick in which no command comes: the clock of the head runs on. -/
def State.idle (s : State) : State := if s.inReset then s else s.setHead { s.head with now := s.head.now + 1 }

/-! ## Parts of commands that only the table names apart -/

/-- PRIV_ENQUEUE: a ready privileged task whose request is pending in its flag (R212). -/
def Head.privEnqueue (h : Head) (t : Nat) : Head := if h.taskState t = 2 ∧ h.taskClass t = 2 then h.enqueue t else h

/-- MOTION_DEADLINE: a run released by this Bell that has not ended by the tick of its DEADLINE is an overrun (R258). -/
def Head.motionDeadline (h : Head) (t : Nat) : Head :=
  let d := max 1 (bits (h.desc t 2) 15 8)
  if !h.bell.running ∨ h.bell.rollcall ∨ h.bell.gatesOff ∨ !h.isMotion t ∨ !h.taskEnabled t ∨
    h.bell.cyclicCount % d ≠ bits (h.desc t 2) 7 0 then h
  else
    let h := h.forward (h.instantTick (h.taskDeadline t))
    if 2 ≤ h.taskState t then
      (h.setMot (h.taskAxis t) (fun m => { m with owed := m.owed.map (fun o => (o.1, true)) })).overrun t
    else h.put (SCHED_TSTAT_CONSEC t) 0

/-- ROLLCALL_START: in state ROLLCALL with a recipe and no Roll Call running yet (R56, R131). -/
def Head.rollCallBegin (h : Head) : Head :=
  if h.boot.recipe.isSome ∧ h.sysState = 3 ∧ !h.net.rc.active ∧ !h.paired then h.rollCallStart else h

end Sys2Proof.Machine
end

