-- ==== Sys2Proof/Machine/CmdAcq.lean ====
section
/-! DEFINITION. Meanings of the commands of acquisition (chapter 18): one definition for each row of the table, over the
shared operations. -/

namespace Sys2Proof.Machine

/-- ACQ_SAMPLE (R415): at a sample instant the engine takes all probes, tests the trigger and stores the sample. -/
def execAcqSample (pins : Word) (s : State) : Host.Outcome State Fault Refusal :=
  .next (s.onHead (fun h => h.acqSample pins.toNat))

/-- RECORD_CLOSE (R424): after the last POST sample the engine writes the header and re-arms or enters DONE. -/
def execRecordClose (tick : Nat) (s : State) : Host.Outcome State Fault Refusal := .next (s.onHead (fun h => h.recordClose tick))

/-- ARM (R423): arms segment 0 from IDLE or DONE. -/
def execArm (s : State) : Host.Outcome State Fault Refusal := .next (s.writeField ACQ_CTL_ARM 1)

/-- FORCE (R423): forces a trigger at the next sample. -/
def execForce (s : State) : Host.Outcome State Fault Refusal := .next (s.writeField ACQ_CTL_FORCE 1)

/-- ACQ_STOP (R424): closes the record with TRUNC or NO_TRIG and enters DONE. -/
def execAcqStop (s : State) : Host.Outcome State Fault Refusal := .next (s.writeField ACQ_CTL_STOP 1)

end Sys2Proof.Machine
end

