-- ==== Sys2Proof/Machine/CmdAxis.lean ====
section
/-! DEFINITION. Meanings of the commands of servo axes (chapter 10): one definition for each row of the table, over the
shared operations. -/

namespace Sys2Proof.Machine

/-- AX_ENABLE (R249): AX_CTL.EN = 1 is accepted without faults and starts OFFSET or RUN at the next Bell edge. -/
def execAxEnable (n : Fin 128) (s : State) : Host.Outcome State Fault Refusal := .next (s.writeField (AX_CTL_EN n.val) 1)

/-- AX_CLR (R250): AX_CTL.CLR clears fault bits whose conditions hold at the next Bell edge while EN = 0. -/
def execAxClr (n : Fin 128) (s : State) : Host.Outcome State Fault Refusal := .next (s.writeField (AX_CTL_CLR n.val) 1)

/-- CLR_BRIDGE (R253): clears BRIDGE_SHORT after an OK Placement Test with step 1, Engineer view only. -/
def execClrBridge (n : Fin 128) (s : State) : Host.Outcome State Fault Refusal := .next (s.writeField (AX_CTL_CLR_BRIDGE n.val) 1)

/-- CTRL_WRITE (R272): a change of CTRL transfers at the next Bell edge with bumpless presets. -/
def execCtrlWrite (n : Fin 128) (ctrl : Fin 4) (s : State) : Host.Outcome State Fault Refusal :=
  .next (s.writeField (AX_CTL_CTRL n.val) ctrl.val)

/-- MOTOR_DATA_DERIVE (R239): a write of motor data or bandwidth starts a derivation task whose set takes effect at the next
Bell edge after it ends. -/
def execMotorDataDerive (n : Fin 128) (reg : Fin 5) (w : Word) (s : State) : Host.Outcome State Fault Refusal :=
  .next (s.write [(AX_RS n.val + 4 * reg.val, w.toNat)])

/-- PT_START (R251): AX_PT_CTL.START starts a Placement Test under four conditions. -/
def execPtStart (n : Fin 128) (move : Bool) (spin : Bool) (cur : BitVec 16) (s : State) : Host.Outcome State Fault Refusal :=
  .next (s.write [(AX_PT_CTL n.val, 1 + b2n move * 4 + b2n spin * 8 + cur.toNat * 65536)])

/-- PT_ABORT (R251): AX_PT_CTL.ABORT ends the test at the next Bell edge with ABORTED. -/
def execPtAbort (n : Fin 128) (s : State) : Host.Outcome State Fault Refusal := .next (s.writeField (AX_PT_CTL_ABORT n.val) 1)

/-- PT_APPLY (R253): APPLY after OK copies the measured motor data and starts a derivation. -/
def execPtApply (n : Fin 128) (s : State) : Host.Outcome State Fault Refusal := .next (s.writeField (AX_PT_CTL_APPLY n.val) 1)

end Sys2Proof.Machine
end

