-- ==== Sys2Proof/Machine/Reset.lean ====
section
/-! DEFINITION. Reset and start-up of the whole machine (chapters 02 and 03): the resets, the reset sequence, recipe loads, flash
operations, the event log in the flash, the test port. -/

namespace Sys2Proof.Machine

/-! ## The event log in the flash (R452 to R455) -/

/-- The log may program now: it has resumed, and neither a load nor a host flash operation runs. -/
def Head.logFree (h : Head) : Bool :=
  h.log.resumed && h.boot.flop.isNone && h.boot.dirOp.isNone && h.sysState != 1 &&
    (match h.boot.reload with | .none => true | .ready _ _ _ => true | _ => false)

/-- The record due: a checkpoint at the start of a sector, else the oldest that waits. -/
def Head.logNext (h : Head) : Option LogRec :=
  match h.log.buf with
  | [] => none
  | r :: _ => some (if h.log.used = 0 then h.checkpointRec else r)

/-- Where the next record goes. -/
def Head.logAddr (h : Head) (d : Directory) : Nat := d.logBase + 4096 * h.log.sector + 32 * h.log.used

/-- The next sector of the ring, past those whose erase failed. -/
def Head.logAfter (h : Head) (d : Directory) : Nat := (h.log.sector + 1 + h.log.skip) % max 1 (d.logSize / 4096)

/-- Erase a sector of the log. -/
def State.eraseLog (s : State) (d : Directory) (sector : Nat) : State :=
  { s with store := s.store.erase (d.logBase + 4096 * sector) 4096, head := (s.head.bump BKG_LOG_ERASES).setLog (fun l => { l with ready := true }) }

/-- The first `n` bytes of the due record are programmed. -/
def State.programLog (s : State) (d : Directory) (r : LogRec) (n : Nat) : State :=
  { s with store := s.store.program (s.head.logAddr d) ((r.bytes s.head.log.seq (s.head.rd BKG_POWERUPS)).take n) }

/-- A record has been written: it leaves the buffer unless it was the sector's checkpoint. -/
def Head.logWritten (h : Head) (d : Directory) : Head :=
  let first := h.log.used == 0
  let next := h.logAfter d
  let h := (h.wr BKG_LOG_SEQ h.log.seq).put BKG_LOG_STAT_FAULT 0
  let h := h.setLog (fun l => { l with
    buf := if first then l.buf else l.buf.drop 1, ready := if first then false else l.ready, seq := (l.seq + 1) % 2 ^ 32
    used := if l.used + 1 = 128 then 0 else l.used + 1, sector := if l.used + 1 = 128 then next else l.sector
    skip := if l.used + 1 = 128 then 0 else l.skip })
  h.put BKG_LOG_STAT_QUEUED h.log.buf.length

/-- A program or erase failed: the head goes on to the next sector, which may stand erased ahead (R453). -/
def Head.logFailed (h : Head) (d : Directory) : Head :=
  let next := h.logAfter d
  ((h.raise 9 6 0).put BKG_LOG_STAT_FAULT 1).setLog (fun l => { l with
    sector := next, used := 0, skip := 0, ready := l.ready && decide (l.used ≠ 0) })

/-- The erase ahead failed: the head goes on to the sector after that one. -/
def Head.aheadFailed (h : Head) : Head := ((h.raise 9 6 0).put BKG_LOG_STAT_FAULT 1).setLog (fun l => { l with skip := l.skip + 1 })

/-- The first record of a sector that is not erased yet erases it first. -/
def State.logPrepare (s : State) (d : Directory) : State :=
  if s.head.log.used = 0 ∧ !s.head.log.ready then s.eraseLog d s.head.log.sector else s

/-- The due record is programmed whole. -/
def State.logProgram (s : State) (d : Directory) (r : LogRec) : State :=
  (s.programLog d r 32).setHead ((s.programLog d r 32).head.logWritten d)

/-- With 8 or fewer records left the next sector is erased ahead. -/
def State.logAhead (s : State) (d : Directory) (fails : Bool) : State :=
  if 120 ≤ s.head.log.used ∧ !s.head.log.ready then (if fails then s.setHead s.head.aheadFailed else s.eraseLog d (s.head.logAfter d)) else s

/-- LOG_RECORD_WRITE. -/
def State.logRecordWrite (s : State) (fails : LogEnd) : State :=
  if s.inReset ∨ !s.head.logFree then s
  else
    match s.head.boot.dir, s.head.logNext with
    | some d, some r =>
      if fails = .erase ∧ s.head.log.used = 0 ∧ !s.head.log.ready then s.setHead (s.head.logFailed d)
      else if fails = .program then (s.logPrepare d).setHead ((s.logPrepare d).head.logFailed d)
      else ((s.logPrepare d).logProgram d r).logAhead d (fails == .erase)
    | _, _ => s

/-- The log goes on after sector `k`, the newest that holds a record (R454, R455). -/
def Head.resumeAt (h : Head) (st : Store) (d : Directory) (por k : Nat) : Head :=
  let base := d.logBase + 4096 * k
  let rs := (List.range 128).filterMap (fun i => st.recordAt (base + 32 * i))
  let used := match (List.range 128).reverse.find? (fun i => st.usedAt (base + 32 * i)) with | some i => i + 1 | none => 0
  let next := (k + 1) % max 1 (d.logSize / 4096)
  let clear := !st.usedAt (d.logBase + 4096 * next)
  let c := logCounters rs
  let seq := match rs.getLast? with | some r => (nth r 1 + 1) % 2 ^ 32 | none => 0
  let h := (h.bumpBy BKG_HOURS c.2.2.1).bumpBy BKG_HOT c.2.2.2
  let h := (h.wr BKG_POWERUPS (min 65535 (c.2.1 + por))).wr BKG_LOG_SEQ ((seq + 2 ^ 32 - 1) % 2 ^ 32)
  let h := match c.1 with | some e => h.seeEpoch e | none => h
  h.setLog (fun l => { l with
    resumed := true, epoch := c.1.getD 0, seq := seq, ready := clear && decide (120 ≤ used)
    sector := if used = 128 then next else k, used := if used = 128 then 0 else used })

/-- The log is read once after a reset (R454). `por` is 1 after a power-on reset. -/
def Head.takeLog (h : Head) (st : Store) (por : Nat) : Head :=
  if h.log.resumed then h
  else
    match h.boot.dir with
    | none => h
    | some d =>
      match st.newestSector d with
      | none => (h.setLog (fun l => { l with resumed := true })).wr BKG_POWERUPS por
      | some (k, _) => h.resumeAt st d por k

/-- LOG_RESUME: after the recipe load. A load that passed has read the log ahead of the claim of its Roll Call (R398). -/
def Head.logResume (h : Head) (st : Store) (por : Nat) : Head := if h.sysState = 1 then h else h.takeLog st por

def State.logResume (s : State) : State := s.onHead (fun h => h.logResume s.store (s.cause % 2))

/-! ## Resets (R32 to R36, R54, R55) -/

/-- PORST_N goes low, or the main rails go. `torn` bytes of a log record that was being programmed reach the flash (R34). No strap is
sampled any more, so no ball follows the boundary register; the test port's instruction and registers stay (the spec is silent:
notes/assumptions/68.md). -/
def State.dropOut (s : State) (torn : Option Nat) (cause : Nat) : State :=
  let s := match torn, s.head.boot.dir, s.head.logNext with
    | some n, some d, some r => if s.inReset ∨ !s.head.logFree then s else (s.logPrepare d).programLog d r (min 31 n)
    | _, _, _ => s
  let s := s.enterReset cause
  { s with tap := { s.tap with maintenance := false } }

/-- The straps as sampled (R29). -/
def Head.straps (h : Head) (mode : Nat) (role svcEn : Bool) : Head :=
  { h with pins := ⟨svcEn, false⟩ }.wr SYS_STRAP (mode % 4 + b2n role * 4 + b2n svcEn * 8 + b2n svcEn * 16) |>.putBit RED_CFG_SIDE role

/-- The stores as the sequence reads them: unique ID, trim, key (R54, R79). -/
def Head.readStores (h : Head) (s : Store) : Head :=
  let h := (h.wr SYS_UID_LO (s.uid.toNat % 2 ^ 32)).wr SYS_UID_HI (s.uid.toNat / 2 ^ 32)
  let h := (h.showTrim s.trimWord).showKey s.key
  if s.trimGood then h else (h.put SYS_STATUS_TRIM_BAD 1).raise 0 2 0

/-- Both directory copies are read (R58). -/
def Store.directory (s : Store) : Option Directory :=
  chooseDirectory (parseDirectory false (s.bytes 0 256)) (parseDirectory true (s.bytes 0x1000 256))

/-- RESET_SEQUENCE: Table 03-1 from PORST_N rising to tick 75,328. The straps are sampled first, and the test port follows BOOT_MODE
(R51). A failed Supervisor ROM check leaves RSTOUT_N low and the head stopped. -/
def State.sequence (s : State) (mode : Nat) (role svcEn romOk : Bool) : State :=
  if !s.inReset ∨ s.stopped then s
  else if !romOk then { s with stopped := true, tap := { s.tap with maintenance := mode == 3 } }
  else
    let h : Head := { Head.initial with now := 75328, draws := s.head.draws }
    let h := (h.straps mode role svcEn).wr SYS_RESET_CAUSE s.cause
    let h := (h.readStores s.store).setBoot (fun b => { b with dir := s.store.directory })
    let h := h.showDirectory.put SYS_STATUS_STATE (if mode = 3 then 7 else 1)
    let h := (h.setHost (fun p => { p with up := true })).reserveTicket
    { s with head := h.logAdd 1 0 s.cause 0, wires := { s.wires with wdAlive := true }, inReset := false
             tap := { s.tap with maintenance := mode == 3 } }

/-! ## Recipe loads (R56, R67 to R74) -/

/-- Where a load takes its image. -/
inductive LoadFrom where
  | slot (n : Nat)
  | image (ws : List Word)
  deriving DecidableEq, Repr

/-- The load that is due: the one at start-up (R56, R69), that of a reload (R73, R74), at once while no Bell runs; none while it waits for
the host's image. -/
def Head.loadDue (h : Head) : Option LoadFrom :=
  let hostMode := h.fld SYS_STRAP_BOOT_MODE == 2
  let host : Option LoadFrom := h.boot.hostImage.map LoadFrom.image
  match h.boot.reload with
  | .none =>
    if h.sysState ≠ 1 then none
    else if hostMode then host
    else match h.boot.dir with
      | some d => some (.slot (if h.boot.attempt = 0 then d.selSlot else d.fallback))
      | none => some (.slot 0)
  | .accepted slot _ => if h.bell.running then none else if hostMode then host else some (.slot slot)
  | .loading slot _ false => if hostMode then host else some (.slot slot)
  | .loading _ back true => some (.slot (if h.boot.recipe.any (fun r => r.fromHost) then 255 else back))
  | .ready _ _ _ => none

/-- The image read and checked (R67): its recipe, or the first failure. `readFault` is a flash read fault. -/
def State.checkImage (s : State) (src : LoadFrom) (c : Content) (refuse : Option Nat) (readFault : Bool) : Except (Nat × Nat) Recipe :=
  match src with
  | .image ws =>
    let b := ws.flatMap (fun w => leBytes 4 w.toNat)
    match s.head.boot.dir with
    | none => .error (1, 0)
    | some d =>
      match imageFault b d.slotSize (some b.length) s.store.key s.key c refuse with
      | some f => .error f
      | none => .ok (recipeOf b c true 0)
  | .slot n =>
    match s.head.boot.dir with
    | none => .error (1, 0)
    | some d =>
      let base := d.slotBase + n * d.slotSize
      let head := s.store.bytes base 256
      if n ≥ d.slotCount then .error (2, 0)
      else if readFault ∨ s.head.boot.flop.isSome ∨ s.head.boot.dirOp.isSome then .error (0x0F, 0)
      else if head.all (· == 0xFF) then .error (2, 0)
      else
        let b := s.store.bytes base (max 256 (min d.slotSize (imgWord head 8)))
        match imageFault b d.slotSize none s.store.key s.key c refuse with
        | some f => .error f
        | none => .ok (recipeOf b c false n)

/-- A reload of a head whose Bells do not run comes into force at once; the head goes on waiting, in HELD or for its claim. -/
def Head.reloadIdle (h : Head) (r : Recipe) (fallback : Bool) : Head :=
  let h := h.install r fallback
  if h.boot.held then h.put SYS_STATUS_STATE 2 else h.relane.put SYS_STATUS_STATE 3

/-- A load that passed every check: at start-up the recipe comes into force and the network starts or waits in HELD; in NO_RECIPE
it starts at once; a reload waits for its Bell edge while Bells run. `log` reads the event log, which comes before any claim (R398, R454). -/
def Head.loadDone (h : Head) (r : Recipe) (us : Nat) (log : Head → Head) : Head :=
  let h := h.wr BOOT_LOAD_TIME us
  match h.boot.reload with
  | .none =>
    let h := log (h.install r (h.boot.attempt == 1))
    if h.fld SYS_STRAP_BOOT_MODE = 1 then (h.put SYS_STATUS_STATE 2).setBoot (fun b => { b with held := true }) else h.startNetwork
  | .accepted _ _ => if h.sysState = 6 then (log (h.install r false)).startNetwork else h.reloadIdle r false
  | .loading slot _ fb => if h.bell.running then h.setBoot (fun b => { b with reload := .ready slot r fb }) else h.reloadIdle r fb
  | .ready _ _ _ => h

/-- The load that was due ends: with a recipe, or with the check that failed and its index (R67, R68). -/
def Head.loadEnd (h : Head) (x : Except (Nat × Nat) Recipe) (us : Nat) (log : Head → Head) : Head :=
  let h := h.setBoot (fun b => { b with hostImage := none })
  match x with
  | .error f =>
    let h := h.loadFail f.1 f.2
    h.logAdd 4 0 (h.rd BOOT_FAIL) (h.rd BOOT_RECIPE_ID)
  | .ok r =>
    let h := h.loadDone r us log
    h.logAdd 4 0 (h.rd BOOT_FAIL) r.id.toNat

/-- RECIPE_LOAD: the load that is due ends. `us` is its duration (BOOT_LOAD_TIME). -/
def State.recipeLoad (s : State) (c : Content) (refuse : Option Nat) (readFault : Bool) (us : Nat) : State :=
  s.onHead (fun h =>
    match h.loadDue with
    | none => h
    | some src => h.loadEnd (s.checkImage src c refuse readFault) us (fun h => h.takeLog s.store (s.cause % 2)))

/-! ## Flash operations of the host (R59, R80) -/

/-- What a completed operation does to the flash. -/
def Store.perform (s : Store) : FlashOp → Store
  | .erase addr => s.erase addr 4096
  | .program addr data => s.program addr (data.flatMap (fun w => leBytes 4 w.toNat))
  | .read _ => s
  | .directory copyB bytes => (s.erase (if copyB then 0x1000 else 0) 4096).program (if copyB then 0x1000 else 0) bytes

/-- The page buffer takes 256 bytes that were read. -/
def Head.takePage (h : Head) (b : List Nat) : Head :=
  (List.range 64).foldl (fun (h : Head) k => h.wr (BOOT_FLOP_DATA k) (imgWord b (4 * k))) h

/-- FLASH_OPERATION_DONE: the operation of BOOT_FLOP ends, or else the rewrite of the directory. -/
def State.flashDone (s : State) (good : Bool) : State :=
  if s.inReset then s
  else
    match s.head.boot.flop, s.head.boot.dirOp with
    | some x, _ =>
      let h := (s.head.setBoot (fun b => { b with flop := none })).put BOOT_FLOP_RESULT (if good then 0 else 3)
      let h := match x, good with
        | .read addr, true => h.takePage (s.store.bytes addr 256)
        | _, _ => h
      { s with head := h, store := if good then s.store.perform x else s.store }
    | none, some x =>
      let h := (s.head.setBoot (fun b => { b with dirOp := none })).put BOOT_SLOT_UPDATE 0
      let h := match x, good with
        | .directory copyB bytes, true => (h.setBoot (fun b => { b with dir := parseDirectory copyB bytes })).showDirectory
        | _, _ => h
      { s with head := h, store := if good then s.store.perform x else s.store }
    | none, none => s

/-! ## The test port (R51) -/

/-- The level at the SVC_EN ball that a capture shows; it is read live (R30). -/
def State.svcEnSeen (s : State) (high : Bool) : State :=
  if high then s.onHead Head.svcEnHigh else if s.head.pins.svcEn then s.onHead Head.svcEnLow else s

/-- TEST_PORT_INSTRUCTION: `balls` are the levels at the balls of the chain, `scan` the bits shifted into the boundary register. EXTEST,
CLAMP and HIGHZ are BYPASS unless BOOT_MODE was sampled as 0b11 (`TestPort.drives`, `TestPort.floats`). -/
def State.testPort (s : State) (op : TapOp) (balls scan : Nat) : State :=
  let captures : Bool := op == .sample || op == .extest && s.tap.maintenance
  let t : TestPort := { s.tap with instr := op }
  if captures then
    { s with tap := { t with data := s.captured balls, boundary := BitVec.ofNat 48 scan } }.svcEnSeen (balls.testBit svcEnCell)
  else { s with tap := { t with data := if op = .idcode then 0x112803D5 else 0 } }

end Sys2Proof.Machine
end

