-- ==== Sys2Proof/Machine/CmdBackground.lean ====
section
/-! DEFINITION. Meanings of the commands of background services, the event log and the test port (chapters 02, 20): one definition for each row of the table, over the
shared operations. -/

namespace Sys2Proof.Machine

/-- SCRUB_STEP (R449): the ECC scrub corrects single-bit errors and reacts to uncorrectable ones by region. -/
def execScrubStep (find : ScrubFind) (s : State) : Host.Outcome State Fault Refusal :=
  .next (s.onHead (fun h => h.scrubStep find))

/-- TELEMETRY (R451): every 10 ms the head reads temperature and rails, raises temperature and supply events and updates hour
counters. -/
def execTelemetry (temp : Int) (rails : List Nat) (s : State) : Host.Outcome State Fault Refusal :=
  .next (s.onHead (fun h => h.telemetry temp rails))

/-- RECALIBRATION (R450): once a second the head corrects ADC offset and gain and lane swing and offset. -/
def execRecalibration (round : CalRound) (s : State) : Host.Outcome State Fault Refusal :=
  .next (s.onHead (fun h => h.recalibrate round))

/-- LOG_RECORD_WRITE (R452): a buffered log record is programmed, erasing the next sector when needed. -/
def execLogRecordWrite (fails : LogEnd) (s : State) : Host.Outcome State Fault Refusal := .next (s.logRecordWrite fails)

/-- LOG_CHECKPOINT (R452): every 10 minutes and at each sector start the head logs a checkpoint of its counters. -/
def execLogCheckpoint (s : State) : Host.Outcome State Fault Refusal := .next (s.onHead (fun h => h.logCheckpoint))

/-- TEST_PORT_INSTRUCTION (R51): an IEEE 1149.1 instruction on TCK, TMS, TDI and TRST_N is executed, with EXTEST, CLAMP and
HIGHZ acting only when BOOT_MODE was sampled as 0b11 and as BYPASS otherwise. -/
def execTestPortInstruction (op : TapOp) (balls : Nat) (scan : Nat) (s : State) : Host.Outcome State Fault Refusal :=
  .next (s.testPort op balls scan)

/-- FLASH_OPERATION_DONE (R80): a flash erase, program or read, or a directory rewrite, completes some time after it was
started, and its RESULT or UPDATE bit and the page buffer are updated. -/
def execFlashOperationDone (good : Bool) (s : State) : Host.Outcome State Fault Refusal := .next (s.flashDone good)

end Sys2Proof.Machine
end

