-- ==== Sys2Proof/Machine/IslandLink.lean ====
section
/-! DEFINITION. The core's side of the safety island (R378, R382 to R387): the watchdog lines, the parameter transfer, the mirror record,
early off, the loss of the island. -/

namespace Sys2Proof.Machine

def Head.setCore (h : Head) (f : SafeCore → SafeCore) : Head := { h with core := f h.core }

/-! ## From core to island -/

/-- WATCHDOG_TOGGLE: the core watchdog line changes its level while the Supervisor has re-armed it (R382). -/
def State.watchdogToggle (s : State) (armed : Bool) : State :=
  if s.inReset then s
  else
    let h : Head := { s.head with time := { s.head.time with wdLevel := if armed then !s.head.time.wdLevel else s.head.time.wdLevel } }
    { s with head := h, wires := if armed then { s.wires with wdChanges := s.wires.wdChanges + 1 } else s.wires }

/-- PARAM_TRANSFER: the recipe's words 0 to 21 and the role word go to the island unless it holds that set already (R75, R387).
`sound` says that every word came through within its retries. -/
def State.paramTransfer (s : State) (sound : Bool) : State :=
  match s.inReset, s.head.boot.recipe with
  | false, some r =>
    if s.island.param.isSome ∧ s.island.sig = r.safeSig then s
    else
      let good := sound && crc32 (r.safety.flatMap (fun w => leBytes 4 w.toNat)) == r.safeSig
      s.onIsland (fun x => x.take r.safety r.safeSig (s.head.on SYS_STRAP_ROLE) good)
  | _, _ => s

/-- EVALUATION_CYCLE: the island's evaluation; a dropped alive level has been seen by its end. While no Bell runs it counts no clock. -/
def State.evaluationCycle (s : State) (x : EvalIn) : State :=
  let bells := !s.inReset && s.head.bell.running
  let x := if bells then x else { x with cycles := none }
  { s with
    island := s.island.evaluate s.wires x s.head.bellTicks
    wires := if s.island.powered then { s.wires with wdDropped := false } else s.wires }

/-! ## Requests that stand at the core -/

/-- SAFE flags of every axis of output `k` (R378). -/
def Head.safeFlags (h : Head) (k : Nat) : Head :=
  (h.allAxes.filter (fun n => h.axisOut n == k)).foldl (fun (h : Head) n => h.flagAxis n (16 + k)) (h.privFlag (16 + k))

/-- Code 2 gates off the axes of output `k` (R459). -/
def Head.gatesLost (h : Head) (k : Nat) : Head :=
  (h.allAxes.filter (fun n => h.axisOut n == k)).foldl (fun (h : Head) n => h.gatedOff n) h

/-- The code of output `k` is committed; a new code other than 0 sets the SAFE flags. -/
def Head.commitCode (h : Head) (k c : Nat) : Head :=
  if nth h.core.codes k = c then h
  else
    let h := h.setCore (fun x => { x with codes := x.codes.set k c })
    let h := if c = 2 then h.gatesLost k else h
    if c = 0 then h else h.safeFlags k

/-- ISLAND_LOSS: every axis holds code 2 (R386). -/
def Head.loseIsland (h : Head) : Head :=
  let h := h.setCore (fun x => { x with soundSince := none })
  if h.on SAFE_CORE_ISLAND_LOSS then h
  else
    let h := (h.put SAFE_CORE_ISLAND_LOSS 1).raise 7 9 0
    (List.range 4).foldl (fun (h : Head) k => (h.gatesLost k).safeFlags k) h

/-- Line and records have been sound for 100 ms: the loss and the clock check end. -/
def Head.soundNow (h : Head) : Head :=
  match h.core.soundSince with
  | none => h.setCore (fun x => { x with soundSince := some h.now })
  | some t => if t + 20000000 ≤ h.now then (h.put SAFE_CORE_ISLAND_LOSS 0).put SAFE_CORE_ISLAND_CLOCK 0 else h

/-! ## From island to core -/

/-- A sound record is taken: the SAFE words, the codes at rank 1, the island's events. -/
def Head.takeRecord (h : Head) (record : List Word) (events : List Nat) : Head :=
  let h := record.zipIdx.foldl (fun (h : Head) w => h.wr (SAFE_STATUS + 4 * w.2) w.1.toNat) h
  let h := (h.setCore (fun x => { x with badRec := 0 })).soundNow
  let h := ((List.range 4).foldl (fun (h : Head) k => h.commitCode k (bits (wordAt record 1) (2 * k + 1) (2 * k))) h).loopsStop
  events.foldl (fun (h : Head) e => h.raise 7 (e / 256) (e % 256)) h

/-- Outputs whose code is 1 after a record; an early-off request stands only for these. -/
def Head.ss1Outs (h : Head) : Nat := bitsOf ((List.range 4).map (fun k => nth h.core.codes k == 1))

/-- Outputs with a request that the core has taken. -/
def Head.ackOuts (h : Head) : Nat := bitsOf ((List.range 4).map (fun k => nth h.core.codes k != 0))

/-- A record whose CRC is wrong is discarded and counted; the fourth in a row is a loss (Table 16-7). -/
def Head.badRecord (h : Head) : Head :=
  let n := h.core.badRec + 1
  let h := (h.wrapFld SAFE_CORE_BADREC).setCore (fun x => { x with badRec := n, soundSince := none })
  if 4 ≤ n then h.loseIsland else h

/-- ISLAND_RECORD: the island hands over its record; `sound` says that its CRC matches. -/
def State.islandRecord (s : State) (sound : Bool) : State :=
  if s.inReset ∨ !s.island.powered ∨ s.island.record = [] then s
  else if !sound then s.setHead s.head.badRecord
  else
    let h := s.head.takeRecord s.island.record s.island.events
    { s with
      head := h, island := { s.island with events := [] }
      wires := { s.wires with
        ack := h.ackOuts, early := band s.wires.early h.ss1Outs, askOff := s.wires.askOff && h.on SAFE_CORE_ISLAND_CLOCK } }

/-- Output `n` has a function with EARLY (Table 16-9). -/
def Recipe.early (r : Recipe) (n : Nat) : Bool :=
  (List.range 8).any (fun f => let w := wordAt r.safety (10 + f); bits w 13 12 != 0 && bit w 16 && bit w (8 + n))

/-- EARLY_OFF: every axis of output `n` with EARLY has stood still for 16 Bells while its code is 1 (R378). -/
def State.earlyOff (s : State) (n : Nat) : State :=
  if !s.inReset ∧ s.head.boot.recipe.any (fun r => r.early n) ∧ nth s.head.core.codes n = 1 ∧ 16 ≤ nth s.head.core.still n then
    { s with wires := { s.wires with early := setBit s.wires.early n } }
  else s

/-- The interval between changes of the island's watchdog line at tick `t` (Table 16-7): the second in a row outside 44,000 to 50,000
ticks raises ISLAND_CLOCK. -/
def Head.wdInterval (h : Head) (t : Nat) : Head :=
  let h := h.forward t
  match h.core.lastChange with
  | none => (h.setCore (fun x => { x with lastChange := some h.now })).soundNow
  | some t0 =>
    let ivl := h.now - t0
    let bad := decide (ivl < 44000 ∨ 50000 < ivl)
    let n := if bad then h.core.badIvl + 1 else 0
    let h := (h.wr SAFE_WD_IVL (min (2 ^ 32 - 1) ivl)).setCore (fun x => { x with lastChange := some h.now, badIvl := n })
    if !bad then h.soundNow
    else
      let h := h.setCore (fun x => { x with soundSince := none })
      if 2 ≤ n ∧ !h.on SAFE_CORE_ISLAND_CLOCK then (h.put SAFE_CORE_ISLAND_CLOCK 1).raise 7 10 0 else h

/-- ISLAND_WD_CHANGE: with ISLAND_CLOCK the core asks the island to switch every output off. -/
def State.islandWdChange (s : State) (t : Nat) : State :=
  if s.inReset ∨ !s.island.powered then s
  else
    let h := s.head.wdInterval t
    { s with head := h, wires := { s.wires with askOff := h.on SAFE_CORE_ISLAND_CLOCK } }

/-- ISLAND_LOSS: no change of the island's line for 1 ms. -/
def State.islandLoss (s : State) : State :=
  s.onHead (fun h => (h.forward (h.core.lastChange.getD 0 + 200000)).loseIsland)

/-- VDD_SAFE_LOSS: the island loses everything; its demand lines read as a stop demand for every axis (R36). -/
def State.vddSafeLoss (s : State) : State :=
  let s : State := { s with island := .off, wires := { s.wires with early := 0, ack := 0, askOff := false } }
  s.onHead (fun h =>
    let h := ((List.range 4).foldl (fun (h : Head) k => h.commitCode k 2) h).loopsStop
    (h.setCore (fun x => { x with lastChange := none, badIvl := 0 })).loseIsland)

end Sys2Proof.Machine
end

