-- ==== Sys2Proof/Machine/CmdBell.lean ====
section
/-! DEFINITION. Meanings of the commands of the Bell, departures, windows and deadlines (chapters 01, 05, 09, 11): one definition for each row of the table, over the
shared operations. -/

namespace Sys2Proof.Machine

/-- BELL_EDGE (R19): when Machine Time reaches the Bell instant the head opens a Bell, sends markers, applies shadows and sets
BELL flags. -/
def execBellEdge (phase : Fin 11) (s : State) : Host.Outcome State Fault Refusal :=
  .next (s.onHead (fun h => h.bellEdge phase.val))

/-- WATCHDOG_TOGGLE (R382): the Time unit toggles the core watchdog line at each Bell edge, or every 100 µs before Bells run,
while re-armed. -/
def execWatchdogToggle (armed : Bool) (s : State) : Host.Outcome State Fault Refusal := .next (s.watchdogToggle armed)

/-- SLOT_DEPARTURE (R21): at its Timetable instant a slot leaves with the last committed payload and the current header. -/
def execSlotDeparture (lane : Fin 10) (slot : Nat) (s : State) : Host.Outcome State Fault Refusal :=
  .next (s.onHead (fun h => h.departure lane.val slot))

/-- MOTION_DEADLINE (R258): a motion task not ended by its DEADLINE counts an overrun under R220. -/
def execMotionDeadline (t : Nat) (s : State) : Host.Outcome State Fault Refusal := .next (s.onHead (fun h => h.motionDeadline t))

/-- RX_WINDOW_CLOSE (R210): with no valid report by window close the scheduler sets RX with VALID 0 and counts the missing
run. -/
def execRxWindowClose (lane : Fin 10) (slot : Nat) (s : State) : Host.Outcome State Fault Refusal :=
  .next (s.onHead (fun h => h.windowClose lane.val slot))

end Sys2Proof.Machine
end

