-- ==== Sys2Proof/Machine/CmdBench.lean ====
section
/-! DEFINITION. Meanings of the commands of bench controls of the Loop Engines (R204): one definition for each row of the table, over the
shared operations. -/

namespace Sys2Proof.Machine

/-- LE_RUN (R204): LE_CTL.RUN starts a bench run at LE_PC in Maintenance or NO_RECIPE. -/
def execLeRun (e : Fin 16) (s : State) : Host.Outcome State Fault Refusal := .next (s.writeField (LE_CTL_RUN e.val) 1)

/-- LE_STEP (R204): LE_CTL.STEP executes one instruction while halted. -/
def execLeStep (e : Fin 16) (s : State) : Host.Outcome State Fault Refusal := .next (s.writeField (LE_CTL_STEP e.val) 1)

/-- LE_HALT (R204): LE_CTL.HALT stops the engine after the current instruction. -/
def execLeHalt (e : Fin 16) (s : State) : Host.Outcome State Fault Refusal := .next (s.writeField (LE_CTL_HALT e.val) 1)

end Sys2Proof.Machine
end

