-- ==== Sys2Proof/Machine/CmdEngine.lean ====
section
/-! DEFINITION. Meanings of the commands of Loop Engine instructions (chapter 08): one definition for each row of the table, over the
shared operations. -/

namespace Sys2Proof.Machine

/-- LOAD (R186): p-class LOAD performs only its moves. -/
def execLoad (e : Fin 16) (mv : Moves) (s : State) : Host.Outcome State Fault Refusal := .next (s.issue e (.p .load 0 0 0 mv))

/-- PROD (R186): SUMd takes Ki·Kj. -/
def execProd (e : Fin 16) (d : Fin 4) (i : Fin 8) (j : Fin 8) (mv : Moves) (s : State) : Host.Outcome State Fault Refusal :=
  .next (s.issue e (.p .prod d i j mv))

/-- PACC (R186): SUMd accumulates Ki·Kj with saturation. -/
def execPacc (e : Fin 16) (d : Fin 4) (i : Fin 8) (j : Fin 8) (mv : Moves) (s : State) : Host.Outcome State Fault Refusal :=
  .next (s.issue e (.p .pacc d i j mv))

/-- PSUB (R186): SUMd subtracts Ki·Kj. -/
def execPsub (e : Fin 16) (d : Fin 4) (i : Fin 8) (j : Fin 8) (mv : Moves) (s : State) : Host.Outcome State Fault Refusal :=
  .next (s.issue e (.p .psub d i j mv))

/-- PROD2 (R186): SUMd takes Ki·Kj + Ki'·Kj'. -/
def execProd2 (e : Fin 16) (d : Fin 4) (i : Fin 8) (j : Fin 8) (mv : Moves) (s : State) : Host.Outcome State Fault Refusal :=
  .next (s.issue e (.p .prod2 d i j mv))

/-- PACC2 (R186): SUMd accumulates Ki·Kj + Ki'·Kj'. -/
def execPacc2 (e : Fin 16) (d : Fin 4) (i : Fin 8) (j : Fin 8) (mv : Moves) (s : State) : Host.Outcome State Fault Refusal :=
  .next (s.issue e (.p .pacc2 d i j mv))

/-- PDIF (R186): SUMd takes Ki·Kj − Ki'·Kj'. -/
def execPdif (e : Fin 16) (d : Fin 4) (i : Fin 8) (j : Fin 8) (mv : Moves) (s : State) : Host.Outcome State Fault Refusal :=
  .next (s.issue e (.p .pdif d i j mv))

/-- PACCD (R186): SUMd accumulates Ki·Kj − Ki'·Kj'. -/
def execPaccd (e : Fin 16) (d : Fin 4) (i : Fin 8) (j : Fin 8) (mv : Moves) (s : State) : Host.Outcome State Fault Refusal :=
  .next (s.issue e (.p .paccd d i j mv))

/-- PPAIR (R186): SUMd and SUMd' take two products. -/
def execPpair (e : Fin 16) (d : Fin 4) (i : Fin 8) (j : Fin 8) (mv : Moves) (s : State) : Host.Outcome State Fault Refusal :=
  .next (s.issue e (.p .ppair d i j mv))

/-- PPACC (R186): SUMd and SUMd' accumulate two products. -/
def execPpacc (e : Fin 16) (d : Fin 4) (i : Fin 8) (j : Fin 8) (mv : Moves) (s : State) : Host.Outcome State Fault Refusal :=
  .next (s.issue e (.p .ppacc d i j mv))

/-- PRODN (R179): PROD followed by rounding. -/
def execProdn (e : Fin 16) (d : Fin 4) (i : Fin 8) (j : Fin 8) (mv : Moves) (s : State) : Host.Outcome State Fault Refusal :=
  .next (s.issue e (.p .prodn d i j mv))

/-- PACCN (R179): PACC followed by rounding. -/
def execPaccn (e : Fin 16) (d : Fin 4) (i : Fin 8) (j : Fin 8) (mv : Moves) (s : State) : Host.Outcome State Fault Refusal :=
  .next (s.issue e (.p .paccn d i j mv))

/-- ADDK (R186): SUMd adds Ki scaled by 2^24. -/
def execAddk (e : Fin 16) (d : Fin 4) (i : Fin 8) (mv : Moves) (s : State) : Host.Outcome State Fault Refusal :=
  .next (s.issue e (.p .addk d i 0 mv))

/-- SUBK (R186): SUMd subtracts Ki scaled by 2^24. -/
def execSubk (e : Fin 16) (d : Fin 4) (i : Fin 8) (mv : Moves) (s : State) : Host.Outcome State Fault Refusal :=
  .next (s.issue e (.p .subk d i 0 mv))

/-- FMAX (R195): find-maximum update of SUMd with index into FIDX and flag F. -/
def execFmax (e : Fin 16) (d : Fin 4) (i : Fin 8) (j : Fin 8) (mv : Moves) (s : State) : Host.Outcome State Fault Refusal :=
  .next (s.issue e (.p .fmax d i j mv))

/-- FMIN (R195): find-minimum update of SUMd with index into FIDX and flag F. -/
def execFmin (e : Fin 16) (d : Fin 4) (i : Fin 8) (j : Fin 8) (mv : Moves) (s : State) : Host.Outcome State Fault Refusal :=
  .next (s.issue e (.p .fmin d i j mv))

/-- ZERO (R188): SUMd is cleared. -/
def execZero (e : Fin 16) (d : Fin 4) (s : State) : Host.Outcome State Fault Refusal := .next (s.issue e (.a .zero d 0 0))

/-- COPY (R188): SUMd takes SUMs. -/
def execCopy (e : Fin 16) (d : Fin 4) (src : Fin 4) (s : State) : Host.Outcome State Fault Refusal :=
  .next (s.issue e (.a .copy d (f8 src.val) 0))

/-- ADD (R188): SUMd adds SUMs with saturation. -/
def execAdd (e : Fin 16) (d : Fin 4) (src : Fin 4) (s : State) : Host.Outcome State Fault Refusal :=
  .next (s.issue e (.a .add d (f8 src.val) 0))

/-- SUB (R188): SUMd subtracts SUMs with saturation. -/
def execSub (e : Fin 16) (d : Fin 4) (src : Fin 4) (s : State) : Host.Outcome State Fault Refusal :=
  .next (s.issue e (.a .sub d (f8 src.val) 0))

/-- NEG (R188): SUMd is negated. -/
def execNeg (e : Fin 16) (d : Fin 4) (s : State) : Host.Outcome State Fault Refusal := .next (s.issue e (.a .neg d 0 0))

/-- ABS (R188): SUMd takes its absolute value. -/
def execAbsS (e : Fin 16) (d : Fin 4) (s : State) : Host.Outcome State Fault Refusal := .next (s.issue e (.a .abs d 0 0))

/-- CLIP (R188): a wide SUMd is clipped to the Q1.23 range with O and T set. -/
def execClip (e : Fin 16) (d : Fin 4) (s : State) : Host.Outcome State Fault Refusal := .next (s.issue e (.a .clip d 0 0))

/-- ROUND (R179): SUMd is rounded under RM and its low word cleared. -/
def execRound (e : Fin 16) (d : Fin 4) (s : State) : Host.Outcome State Fault Refusal := .next (s.issue e (.a .round d 0 0))

/-- SHL (R188): SUMd is shifted left by IMM with saturation. -/
def execShl (e : Fin 16) (d : Fin 4) (imm : Fin 56) (s : State) : Host.Outcome State Fault Refusal :=
  .next (s.issue e (.a .shl d 0 imm.val))

/-- SHR (R188): SUMd is arithmetic-shifted right by IMM. -/
def execShr (e : Fin 16) (d : Fin 4) (imm : Fin 56) (s : State) : Host.Outcome State Fault Refusal :=
  .next (s.issue e (.a .shr d 0 imm.val))

/-- SHV (R188): SUMd is shifted by the signed count in Ks. -/
def execShv (e : Fin 16) (d : Fin 4) (src : Fin 8) (s : State) : Host.Outcome State Fault Refusal :=
  .next (s.issue e (.a .shv d src 0))

/-- SCALE (R188): SUMd is normalised and the shift written to Ks. -/
def execScale (e : Fin 16) (d : Fin 4) (src : Fin 8) (s : State) : Host.Outcome State Fault Refusal :=
  .next (s.issue e (.a .scale d src 0))

/-- CMP (R188): flags are set from the exact difference SUMd − SUMs. -/
def execCmp (e : Fin 16) (d : Fin 4) (src : Fin 4) (s : State) : Host.Outcome State Fault Refusal :=
  .next (s.issue e (.a .cmp d (f8 src.val) 0))

/-- MAX (R188): SUMd takes the larger of SUMd and SUMs. -/
def execMaxS (e : Fin 16) (d : Fin 4) (src : Fin 4) (s : State) : Host.Outcome State Fault Refusal :=
  .next (s.issue e (.a .max d (f8 src.val) 0))

/-- MIN (R188): SUMd takes the smaller of SUMd and SUMs. -/
def execMinS (e : Fin 16) (d : Fin 4) (src : Fin 4) (s : State) : Host.Outcome State Fault Refusal :=
  .next (s.issue e (.a .min d (f8 src.val) 0))

/-- LIMIT (R188): SUMd is clamped to ±Ks·2^24. -/
def execLimit (e : Fin 16) (d : Fin 4) (src : Fin 8) (s : State) : Host.Outcome State Fault Refusal :=
  .next (s.issue e (.a .limit d src 0))

/-- GETG (R188): ks takes the guard byte of SUMd. -/
def execGetg (e : Fin 16) (d : Fin 4) (src : Fin 8) (s : State) : Host.Outcome State Fault Refusal :=
  .next (s.issue e (.a .getg d src 0))

/-- PUTG (R188): the guard byte of SUMd takes Ks[7:0]. -/
def execPutg (e : Fin 16) (d : Fin 4) (src : Fin 8) (s : State) : Host.Outcome State Fault Refusal :=
  .next (s.issue e (.a .putg d src 0))

/-- AND (R188): h of SUMd is ANDed with Ks. -/
def execAndK (e : Fin 16) (d : Fin 4) (src : Fin 8) (s : State) : Host.Outcome State Fault Refusal :=
  .next (s.issue e (.a .and d src 0))

/-- OR (R188): h of SUMd is ORed with Ks. -/
def execOrK (e : Fin 16) (d : Fin 4) (src : Fin 8) (s : State) : Host.Outcome State Fault Refusal :=
  .next (s.issue e (.a .or d src 0))

/-- XOR (R188): h of SUMd is XORed with Ks. -/
def execXorK (e : Fin 16) (d : Fin 4) (src : Fin 8) (s : State) : Host.Outcome State Fault Refusal :=
  .next (s.issue e (.a .xor d src 0))

/-- QUOT (R188): SUMd is divided by 2·Ks over 26 cycles with saturation. -/
def execQuot (e : Fin 16) (d : Fin 4) (src : Fin 8) (s : State) : Host.Outcome State Fault Refusal :=
  .next (s.issue e (.a .quot d src 0))

/-- M_LOAD (R189): class-M load of a register through any pointer and mode. -/
def execMLoad (e : Fin 16) (bus : Bus) (reg : Fin 16) (ap : Fin 8) (mode : Fin 8) (disp : Int) (s : State) : Host.Outcome State Fault Refusal :=
  .next (s.issue e (.m false bus reg ap mode disp))

/-- M_STORE (R189): class-M store of a register, SUMnH as a transfer. -/
def execMStore (e : Fin 16) (bus : Bus) (reg : Fin 16) (ap : Fin 8) (mode : Fin 8) (disp : Int) (s : State) : Host.Outcome State Fault Refusal :=
  .next (s.issue e (.m true bus reg ap mode disp))

/-- LDI16 (R185): a 16-bit immediate is loaded into an AP, AM, BA or LN register. -/
def execLdi16 (e : Fin 16) (ty : Fin 4) (idx : Fin 8) (imm : BitVec 16) (s : State) : Host.Outcome State Fault Refusal :=
  .next (s.issue e (.ldi16 ty idx imm))

/-- LDI24 (R185): a 24-bit immediate is loaded into a K or SUM register. -/
def execLdi24 (e : Fin 16) (reg : Fin 16) (imm : W24) (s : State) : Host.Outcome State Fault Refusal :=
  .next (s.issue e (.ldi24 reg imm))

/-- MOVE (R190): a register is copied to another by register code. -/
def execMove (e : Fin 16) (dst : Fin 64) (src : Fin 64) (s : State) : Host.Outcome State Fault Refusal :=
  .next (s.issue e (.move dst src))

/-- GOTO (R191): conditional jump within program RAM. -/
def execGoto (e : Fin 16) (cond : Fin 15) (target : Fin 4096) (s : State) : Host.Outcome State Fault Refusal :=
  .next (s.issue e (.ctl .goto cond.val target.val 0))

/-- CALL (R191): conditional call pushing the return address. -/
def execCall (e : Fin 16) (cond : Fin 15) (target : Fin 4096) (s : State) : Host.Outcome State Fault Refusal :=
  .next (s.issue e (.ctl .call cond.val target.val 0))

/-- RETURN (R191): conditional return from a call. -/
def execRet (e : Fin 16) (cond : Fin 15) (s : State) : Host.Outcome State Fault Refusal :=
  .next (s.issue e (.ctl .ret cond.val 0 0))

/-- REP (R192): a hardware loop of BODY+1 instructions runs COUNT times. -/
def execRep (e : Fin 16) (body : Fin 128) (count : Fin 8192) (s : State) : Host.Outcome State Fault Refusal :=
  .next (s.issue e (.ctl .rep 0 body.val count.val))

/-- REPN (R192): a hardware loop runs LCNT times. -/
def execRepn (e : Fin 16) (body : Fin 128) (s : State) : Host.Outcome State Fault Refusal :=
  .next (s.issue e (.ctl .repn 0 body.val 0))

/-- END (R197): the task ends, committing the staging bank if written. -/
def execEndTask (e : Fin 16) (cond : Fin 15) (s : State) : Host.Outcome State Fault Refusal :=
  .next (s.issue e (.ctl .endTask cond.val 0 0))

/-- COMMIT (R197): the staging bank is committed to the command slot. -/
def execCommit (e : Fin 16) (s : State) : Host.Outcome State Fault Refusal := .next (s.issue e (.ctl .commit 0 0 0))

/-- PARK (R197): the task waits on its engine for its release. -/
def execPark (e : Fin 16) (s : State) : Host.Outcome State Fault Refusal := .next (s.issue e (.ctl .park 0 0 0))

/-- TRAP (R191): the task faults with code 0x80 + CODE. -/
def execTrap (e : Fin 16) (cond : Fin 15) (code : Fin 128) (s : State) : Host.Outcome State Fault Refusal :=
  .next (s.issue e (.ctl .trap cond.val code.val 0))

end Sys2Proof.Machine
end

