-- ==== Sys2Proof/Machine/CmdHost.lean ====
section
/-! DEFINITION. Meanings of the commands of the host port (chapter 19): one definition for each row of the table, over the
shared operations. -/

namespace Sys2Proof.Machine

/-- RD (R428): host register read request takes a ticket. -/
def execRd (addr : Word) (count : Byte) (s : State) : Host.Outcome State Fault Refusal :=
  .next (s.onHead (fun h => h.hostRequest { op := 0x01, count := count.toNat, addr := addr.toNat, station := 0, words := [] }))

/-- RDF (R428): host read of COUNT words from one address takes a ticket. -/
def execRdf (addr : Word) (count : Byte) (s : State) : Host.Outcome State Fault Refusal :=
  .next (s.onHead (fun h => h.hostRequest { op := 0x11, count := count.toNat, addr := addr.toNat, station := 0, words := [] }))

/-- WR (R428): host register write request takes a ticket. -/
def execWr (addr : Word) (count : Byte) (words : List Word) (s : State) : Host.Outcome State Fault Refusal :=
  .next (s.onHead (fun h => h.hostRequest { op := 0x02, count := count.toNat, addr := addr.toNat, station := 0, words := words }))

/-- WRF (R428): host write of COUNT words to one address takes a ticket. -/
def execWrf (addr : Word) (count : Byte) (words : List Word) (s : State) : Host.Outcome State Fault Refusal :=
  .next (s.onHead (fun h => h.hostRequest { op := 0x12, count := count.toNat, addr := addr.toNat, station := 0, words := words }))

/-- NRD (R440): host node read request becomes a Recess READ. -/
def execNrd (station : Byte) (addr : Word) (count : Byte) (s : State) : Host.Outcome State Fault Refusal :=
  .next (s.onHead (fun h => h.hostRequest { op := 0x03, count := count.toNat, addr := addr.toNat, station := station.toNat, words := [] }))

/-- NWR (R440): host node write request becomes a Recess WRITE. -/
def execNwr (station : Byte) (addr : Word) (count : Byte) (words : List Word) (s : State) : Host.Outcome State Fault Refusal :=
  .next (s.onHead (fun h => h.hostRequest { op := 0x04, count := count.toNat, addr := addr.toNat, station := station.toNat, words := words }))

/-- NEX (R440): host node execute request becomes a Recess EXEC. -/
def execNex (station : Byte) (addr : Word) (count : Byte) (words : List Word) (s : State) : Host.Outcome State Fault Refusal :=
  .next (s.onHead (fun h => h.hostRequest { op := 0x05, count := count.toNat, addr := addr.toNat, station := station.toNat, words := words }))

/-- FETCH (R438): returns a ticket's status and data. -/
def execFetch (t : Byte) (s : State) : Host.Outcome State Fault Refusal := .next (s.onHead (fun h => h.fetchTicket t.toNat))

/-- FETCHR (R438): returns a ticket's result and releases it. -/
def execFetchr (t : Byte) (s : State) : Host.Outcome State Fault Refusal := .next (s.onHead (fun h => h.fetchRelease t.toNat))

/-- REL (R434): releases a host ticket. -/
def execRel (t : Byte) (s : State) : Host.Outcome State Fault Refusal := .next (s.onHead (fun h => h.releaseHost t.toNat))

/-- MAP (R438): returns the done map of host tickets. -/
def execMap (s : State) : Host.Outcome State Fault Refusal := .next (s.onHead (fun h => h.doneMap))

/-- BAD_OP (R430): an unknown OP keeps HIO high-impedance and is counted. -/
def execBadOp (s : State) : Host.Outcome State Fault Refusal := .next (s.onHead (fun h => h.badOp))

/-- TRANSACTION_ABORT (R430): HCS_N rising early discards the transaction and counts it. -/
def execTransactionAbort (fetched : Option Byte) (s : State) : Host.Outcome State Fault Refusal :=
  .next (s.onHead (fun h => h.transactionAbort (fetched.map (·.toNat))))

/-- REQUEST_COMMIT (R439): a taken register request is checked and committed as a rank-7 event, its result making the ticket
DONE. -/
def execRequestCommit (readBack : Option (List Word)) (s : State) : Host.Outcome State Fault Refusal :=
  .next (s.onHeadThen readBack (fun h => h.requestCommit s.key))

/-- HOST_FLUSH (R434): HOST_CTL.FLUSH releases every host ticket in DONE or READ. -/
def execHostFlush (s : State) : Host.Outcome State Fault Refusal := .next (s.writeField HOST_CTL_FLUSH 1)

/-- ENG_REQ (R441): HOST_ENG_CTL.REQ issues a new random challenge; refused BUSY while SVC_EN is low or LOCK is not 0. -/
def execEngReq (s : State) : Host.Outcome State Fault Refusal := .next (s.writeField HOST_ENG_CTL_REQ 1)

/-- ENG_RESP (R442): a response opens the Engineer view if correct, else counts a failure and may lock REQ. -/
def execEngResp (w : Word) (s : State) : Host.Outcome State Fault Refusal := .next (s.write [(HOST_ENG_RESP, w.toNat)])

/-- ENG_CLOSE (R443): HOST_ENG_CTL.CLOSE closes the Engineer view. -/
def execEngClose (s : State) : Host.Outcome State Fault Refusal := .next (s.writeField HOST_ENG_CTL_CLOSE 1)

/-- ENG_IDLE_CLOSE (R443): 600 s with no accepted request closes the Engineer view. -/
def execEngIdleClose (s : State) : Host.Outcome State Fault Refusal := .next (s.onHead (fun h => h.engIdleClose))

/-- CHALLENGE_EXPIRY (R442): a challenge not answered within 1 s becomes void. -/
def execChallengeExpiry (s : State) : Host.Outcome State Fault Refusal := .next (s.onHead (fun h => h.challengeExpiry))

/-- ENGINEER_LOCK_EXPIRY (R442): 60 s after the third consecutive failed response the lock on HOST_ENG_CTL.REQ ends, LOCK
reaches 0 and HOST_STAT.LOCKED clears. -/
def execEngineerLockExpiry (s : State) : Host.Outcome State Fault Refusal := .next (s.onHead (fun h => h.lockExpiry))

end Sys2Proof.Machine
end

