-- ==== Sys2Proof/Machine/CmdLanes.lean ====
section
/-! DEFINITION. Meanings of the commands of lanes, frames and Recess transactions (chapters 04, 05): one definition for each row of the table, over the
shared operations. -/

namespace Sys2Proof.Machine

/-- LANE_SIGNAL_QUALIFIED (R84): receive swing above the loss-of-signal threshold for 1 µs moves a lane from DETECT to LOCK.
-/
def execLaneSignalQualified (lane : Fin 10) (s : State) : Host.Outcome State Fault Refusal :=
  .next (s.onHead (fun h => h.signalQualified lane.val))

/-- CDR_LOCKED (R84): clock recovery locks and the equaliser settles, moving the lane to ALIGN. -/
def execCdrLocked (lane : Fin 10) (eq : Nat) (s : State) : Host.Outcome State Fault Refusal :=
  .next (s.onHead (fun h => h.cdrLocked lane.val eq))

/-- COMMA_ALIGNED (R84): three K28.5 at the same code-group position align the lane. -/
def execCommaAligned (lane : Fin 10) (inverted : Bool) (s : State) : Host.Outcome State Fault Refusal :=
  .next (s.onHead (fun h => h.commaAligned lane.val inverted))

/-- LANE_UP (R85): 1,024 consecutive valid code groups after alignment move the lane to UP and set LANE_EVT.UP. -/
def execLaneUp (lane : Fin 10) (s : State) : Host.Outcome State Fault Refusal :=
  .next (s.onHead (fun h => h.laneReachesUp lane.val))

/-- SYNC_LOSS (R86): 4 invalid of 16 code groups discard the frame in progress, count a loss of sync and return the lane to
ALIGN. -/
def execSyncLoss (lane : Fin 10) (invalid : Nat) (inFrame : Option Frame) (s : State) : Host.Outcome State Fault Refusal :=
  .next (s.onHead (fun h => h.syncLoss lane.val invalid inFrame))

/-- SIGNAL_LOSS (R86): signal below threshold for 16 lane cycles loses sync and returns the lane to DETECT. -/
def execSignalLoss (lane : Fin 10) (cut : SignalCut) (s : State) : Host.Outcome State Fault Refusal :=
  .next (s.onHead (fun h => h.signalLoss lane.val cut.invalid cut.inFrame))

/-- CDR_LOCK_LOSS (R86): clock recovery losing lock in ALIGN returns the lane to LOCK. -/
def execCdrLockLoss (lane : Fin 10) (s : State) : Host.Outcome State Fault Refusal :=
  .next (s.onHead (fun h => h.cdrLockLoss lane.val))

/-- IDLE_INSERT_DELETE (R89): a line-link receiver inserts or deletes one idle ordered set between frames and counts it. -/
def execIdleInsertDelete (lane : Fin 10) (s : State) : Host.Outcome State Fault Refusal :=
  .next (s.onHead (fun h => h.elastic lane.val))

/-- LL_FORWARD (R95): a head forwards a line-link frame from LL0 to LL1 with a constant delay unless it consumes it. The frame
is received as any frame is; the row names what comes of this one. -/
def execLlForward (r : RxFrame) (s : State) : Host.Outcome State Fault Refusal := .next (s.onHead (fun h => h.receive r))

/-- FRAME_REFUSED (R102): a received frame failing a check of Table 05-3 or the acceptance window is refused whole and counted.
The frame is received as any frame is; the row names what comes of this one. -/
def execFrameRefused (r : RxFrame) (s : State) : Host.Outcome State Fault Refusal := .next (s.onHead (fun h => h.receive r))

/-- REPORT_RECEIVE (R104): a cyclic report that passes every check is stamped, classified and released to its task. The frame
is received as any frame is; the row names what comes of this one. -/
def execReportReceive (r : RxFrame) (s : State) : Host.Outcome State Fault Refusal := .next (s.onHead (fun h => h.receive r))

/-- RECESS_REQUEST (R124): at a pair's request instant the head sends the oldest waiting Recess transaction for a station on
that lane. -/
def execRecessRequest (lane : Fin 10) (pair : Nat) (phase : Fin 11) (s : State) : Host.Outcome State Fault Refusal :=
  .next (s.onHead (fun h => h.recessRequest lane.val pair phase.val))

/-- RECESS_RESPONSE (R114): a Recess response with the right ticket completes its transaction and ticket. The frame is received
as any frame is; the row names what comes of this one. -/
def execRecessResponse (r : RxFrame) (s : State) : Host.Outcome State Fault Refusal := .next (s.onHead (fun h => h.receive r))

/-- RECESS_RESPONSE_MISSING (R125): at window close a missing or bad response makes the head resend with RETRY, or complete
with TIMEOUT after 3 repeats. -/
def execRecessResponseMissing (lane : Fin 10) (pair : Nat) (s : State) : Host.Outcome State Fault Refusal :=
  .next (s.onHead (fun h => h.recessMissing lane.val pair))

end Sys2Proof.Machine
end

