-- ==== Sys2Proof/Machine/CmdLaws.lean ====
section
/-! DEFINITION. Meanings of the commands of standard laws in ROM (Table 08-15): one definition for each row of the table, over the
shared operations. -/

namespace Sys2Proof.Machine

/-- SS_RECON (R235): standard law reconstructing three phase currents from the two shunt samples. -/
def execSsRecon (e : Fin 16) (s : State) : Host.Outcome State Fault Refusal := .next (s.issue e (.ctl .law 0 0x00 0))

/-- CLARKE_PARK (R226): standard law forming iα, iβ and id, iq at θs. -/
def execClarkePark (e : Fin 16) (s : State) : Host.Outcome State Fault Refusal := .next (s.issue e (.ctl .law 0 0x01 0))

/-- DQ_PI (R238): standard law running the d and q compensators with decoupling and voltage limit. -/
def execDqPi (e : Fin 16) (s : State) : Host.Outcome State Fault Refusal := .next (s.issue e (.ctl .law 0 0x02 0))

/-- IPARK (R240): standard law rotating vd, vq to vα, vβ at θmod. -/
def execIpark (e : Fin 16) (s : State) : Host.Outcome State Fault Refusal := .next (s.issue e (.ctl .law 0 0x03 0))

/-- SVM_SHIFT (R231): standard law forming duties, compare values, edge shifts and sampling instants. -/
def execSvmShift (e : Fin 16) (s : State) : Host.Outcome State Fault Refusal := .next (s.issue e (.ctl .law 0 0x04 0))

/-- DT_COMP (R242): standard law adding the dead-time correction. -/
def execDtComp (e : Fin 16) (s : State) : Host.Outcome State Fault Refusal := .next (s.issue e (.ctl .law 0 0x05 0))

/-- OBSERVER (R244): standard law estimating back-EMF, angle and speed. -/
def execObserver (e : Fin 16) (s : State) : Host.Outcome State Fault Refusal := .next (s.issue e (.ctl .law 0 0x06 0))

/-- PLAUS (R245): standard law checking synchronism and starting catches. -/
def execPlaus (e : Fin 16) (s : State) : Host.Outcome State Fault Refusal := .next (s.issue e (.ctl .law 0 0x07 0))

/-- FOC_STD (R228): standard servo current law running all parts in order. -/
def execFocStd (e : Fin 16) (s : State) : Host.Outcome State Fault Refusal := .next (s.issue e (.ctl .law 0 0x08 0))

/-- FOC_EXP_PREP (R243): express law preparing the command and gain matrix before PARK. -/
def execFocExpPrep (e : Fin 16) (s : State) : Host.Outcome State Fault Refusal := .next (s.issue e (.ctl .law 0 0x09 0))

/-- FOC_EXP_CLOSE (R243): express closing segment correcting the prepared compare values from the samples. -/
def execFocExpClose (e : Fin 16) (s : State) : Host.Outcome State Fault Refusal := .next (s.issue e (.ctl .law 0 0x0A 0))

/-- SPEED (R261): standard speed ramp and compensator. -/
def execSpeed (e : Fin 16) (s : State) : Host.Outcome State Fault Refusal := .next (s.issue e (.ctl .law 0 0x0B 0))

/-- POSITION (R262): standard position law with following-error and model checks. -/
def execPosition (e : Fin 16) (s : State) : Host.Outcome State Fault Refusal := .next (s.issue e (.ctl .law 0 0x0C 0))

/-- CAM_EVAL (R290): standard degree-5 cam segment evaluation. -/
def execCamEval (e : Fin 16) (s : State) : Host.Outcome State Fault Refusal := .next (s.issue e (.ctl .law 0 0x0D 0))

/-- PZ2 (R311): standard 2p2z compensator step. -/
def execPz2 (e : Fin 16) (s : State) : Host.Outcome State Fault Refusal := .next (s.issue e (.ctl .law 0 0x0E 0))

/-- PZ3 (R311): standard 3p3z compensator step. -/
def execPz3 (e : Fin 16) (s : State) : Host.Outcome State Fault Refusal := .next (s.issue e (.ctl .law 0 0x0F 0))

/-- FOPDT (R319): standard FOPDT model step with plausibility residual. -/
def execFopdt (e : Fin 16) (s : State) : Host.Outcome State Fault Refusal := .next (s.issue e (.ctl .law 0 0x10 0))

/-- STEPPER_V (R275): standard voltage-mode stepper law. -/
def execStepperV (e : Fin 16) (s : State) : Host.Outcome State Fault Refusal := .next (s.issue e (.ctl .law 0 0x11 0))

/-- SIN_COS (R458): helper returning cos and sin of an angle. -/
def execSinCos (e : Fin 16) (s : State) : Host.Outcome State Fault Refusal := .next (s.issue e (.ctl .law 0 0x12 0))

/-- SQRT (R458): helper returning a truncated square root. -/
def execSqrtLaw (e : Fin 16) (s : State) : Host.Outcome State Fault Refusal := .next (s.issue e (.ctl .law 0 0x13 0))

/-- RECIP (R458): helper returning a reciprocal in SUM0. -/
def execRecip (e : Fin 16) (s : State) : Host.Outcome State Fault Refusal := .next (s.issue e (.ctl .law 0 0x14 0))

/-- ATAN2 (R458): helper returning the angle of a vector. -/
def execAtan2 (e : Fin 16) (s : State) : Host.Outcome State Fault Refusal := .next (s.issue e (.ctl .law 0 0x15 0))

end Sys2Proof.Machine
end

