-- ==== Sys2Proof/Machine/CmdMasters.lean ====
section
/-! DEFINITION. Meanings of the commands of masters, cams, clutch, encoders and captures (chapter 12): one definition for each row of the table, over the
shared operations. -/

namespace Sys2Proof.Machine

/-- VM_RUN (R283): sets the internal generator target to VM_SPD_REF. -/
def execVmRun (v : Fin 8) (s : State) : Host.Outcome State Fault Refusal := .next (s.writeField (VM_CTL_RUN v.val) 1)

/-- VM_STOP (R283): ramps the generator to 0 at VM_DEC. -/
def execVmStop (v : Fin 8) (s : State) : Host.Outcome State Fault Refusal := .next (s.writeField (VM_CTL_STOP v.val) 1)

/-- VM_QSTOP (R283): ramps the generator to 0 at VM_QSTOP_DEC. -/
def execVmQstop (v : Fin 8) (s : State) : Host.Outcome State Fault Refusal := .next (s.writeField (VM_CTL_QSTOP v.val) 1)

/-- STOP_AT (R283): brings the master to rest exactly at VM_STOP_POS. -/
def execStopAt (v : Fin 8) (s : State) : Host.Outcome State Fault Refusal := .next (s.writeField (VM_CTL_STOP_AT v.val) 1)

/-- VM_SET (R283): loads m from VM_SET at rest with no engaged follower. -/
def execVmSet (v : Fin 8) (s : State) : Host.Outcome State Fault Refusal := .next (s.writeField (VM_CTL_SET v.val) 1)

/-- RESYNC (R288): couples a line-following VM again at the next Bell edge. -/
def execResync (v : Fin 8) (s : State) : Host.Outcome State Fault Refusal := .next (s.writeField (VM_CTL_RESYNC v.val) 1)

/-- MASTER_PUB (R284): a publishing VM sends its master record on LL1 every PUB_DIV Bells. -/
def execMasterPub (v : Fin 8) (busy : Bool) (s : State) : Host.Outcome State Fault Refusal :=
  .next (s.onHead (fun h => h.masterPub v.val busy))

/-- MASTER_PUB_RECEIVE (R286): a received publication is forwarded, consumed or kept as newest for followers. The frame is
received as any frame is; the row names what comes of this one. -/
def execMasterPubReceive (r : RxFrame) (s : State) : Host.Outcome State Fault Refusal := .next (s.onHead (fun h => h.receive r))

/-- VM_LINE_LOSS (R288): a publication older than TMO puts the follower in HOLDOVER. -/
def execVmLineLoss (v : Fin 8) (s : State) : Host.Outcome State Fault Refusal := .next (s.onHead (fun h => h.vmLineLoss v.val))

/-- LINE_LOST (R288): after HOLD ms of holdover the VM ramps to 0 and enters LINE_LOST. -/
def execLineLost (v : Fin 8) (s : State) : Host.Outcome State Fault Refusal := .next (s.onHead (fun h => h.vmLineLost v.val))

/-- AX_CAM_SEL (R295): selects a cam, checked under R291, now or pending for a forward wrap. -/
def execAxCamSel (n : Fin 128) (seg : BitVec 14) (atWrap : Bool) (s : State) : Host.Outcome State Fault Refusal :=
  .next (s.write [(AX_CAM_SEL n.val, seg.toNat + b2n atWrap * 65536)])

/-- ENGAGE (R296): starts clutch engagement at the chosen trigger. -/
def execEngage (n : Fin 128) (s : State) : Host.Outcome State Fault Refusal := .next (s.writeField (AX_CLU_CTL_ENGAGE n.val) 1)

/-- DISENGAGE (R296): starts clutch disengagement at the chosen trigger. -/
def execDisengage (n : Fin 128) (s : State) : Host.Outcome State Fault Refusal :=
  .next (s.writeField (AX_CLU_CTL_DISENGAGE n.val) 1)

/-- CAM_SEGMENT_WRITE (R291): a host write to a cam segment is refused BUSY while the segment is in use. -/
def execCamSegmentWrite (seg : BitVec 14) (word : Fin 8) (w : Word) (s : State) : Host.Outcome State Fault Refusal :=
  .next (s.write [(0x200000 + 32 * seg.toNat + 4 * word.val, w.toNat)])

/-- ENCODER_EDGE (R300): a filtered encoder edge is counted by mode, with wrap, direction and fault checks. -/
def execEncoderEdge (k : Fin 4) (a : Bool) (b : Bool) (tick : Nat) (stable : Nat) (s : State) : Host.Outcome State Fault Refusal :=
  .next (s.onHead (fun h => h.encEdge k.val a b tick stable))

/-- Z_EDGE (R303): a rising Z edge latches count and stamp, clearing the counter in armed mode. -/
def execZEdge (k : Fin 4) (tick : Nat) (stable : Nat) (s : State) : Host.Outcome State Fault Refusal :=
  .next (s.onHead (fun h => h.encZ k.val tick stable))

/-- Z_ARM (R303): arms the Z latch and clear. -/
def execZArm (k : Fin 4) (s : State) : Host.Outcome State Fault Refusal := .next (s.writeField (ENC_CTL_Z_ARM k.val) 1)

/-- CLR_CNT (R302): sets the encoder count to 0 at the next Bell edge. -/
def execClrCnt (k : Fin 4) (s : State) : Host.Outcome State Fault Refusal := .next (s.writeField (ENC_CTL_CLR_CNT k.val) 1)

/-- CAPTURE_EDGE (R306): a filtered capture edge is stamped with its latched count and delivered to every consumer and the
FIFO. -/
def execCaptureEdge (k : Fin 8) (rising : Bool) (tick : Nat) (stable : Nat) (s : State) : Host.Outcome State Fault Refusal :=
  .next (s.onHead (fun h => h.captureEdge k.val rising tick stable))

/-- CAP_FIFO_POP (R306): reading CAP_CNT removes the oldest capture entry. -/
def execCapFifoPop (k : Fin 8) (s : State) : Host.Outcome State Fault Refusal := .next (s.read [CAP_CNT k.val])

end Sys2Proof.Machine
end

