-- ==== Sys2Proof/Machine/CmdMotion.lean ====
section
/-! DEFINITION. Meanings of the commands of motion (chapter 11): one definition for each row of the table, over the
shared operations. -/

namespace Sys2Proof.Machine

/-- PUSH (R267): a move entry is checked and queued as PLANNING at the next Bell edge. -/
def execPush (n : Fin 128) (s : State) : Host.Outcome State Fault Refusal := .next (s.writeField (AX_MV_CTL_PUSH n.val) 1)

/-- MOVE_PLANNED (R267): the acyclic planning task finishes the profile and marks the entry READY. -/
def execMovePlanned (n : Fin 128) (s : State) : Host.Outcome State Fault Refusal :=
  .next (s.onHead (fun h => h.movePlanned n.val))

/-- MV_STOP (R270): AX_MV_CTL.STOP stops the move at STOP_DEC, keeping the remainder. -/
def execMvStop (n : Fin 128) (s : State) : Host.Outcome State Fault Refusal := .next (s.writeField (AX_MV_CTL_STOP n.val) 1)

/-- QSTOP (R270): AX_MV_CTL.QSTOP stops the move at QSTOP_DEC, keeping the remainder. -/
def execQstop (n : Fin 128) (s : State) : Host.Outcome State Fault Refusal := .next (s.writeField (AX_MV_CTL_QSTOP n.val) 1)

/-- RESUME (R271): resumes the interrupted entry to its original target. -/
def execResume (n : Fin 128) (s : State) : Host.Outcome State Fault Refusal := .next (s.writeField (AX_MV_CTL_RESUME n.val) 1)

/-- FLUSH (R270): empties the queue in STOPPED or IDLE and discards the remainder. -/
def execFlush (n : Fin 128) (s : State) : Host.Outcome State Fault Refusal := .next (s.writeField (AX_MV_CTL_FLUSH n.val) 1)

/-- AX_POS_SET (R273): sets p, p_ref and p_m at the next Bell edge. -/
def execAxPosSet (n : Fin 128) (lo : Word) (hi : Word) (s : State) : Host.Outcome State Fault Refusal :=
  .next (s.write [(AX_POS_SET_LO n.val, lo.toNat), (AX_POS_SET_HI n.val, hi.toNat)])

end Sys2Proof.Machine
end

