-- ==== Sys2Proof/Machine/CmdNetwork.lean ====
section
/-! DEFINITION. Meanings of the commands of Roll Call, Detention and network faults (chapter 06): one definition for each row of the table, over the
shared operations. -/

namespace Sys2Proof.Machine

/-- SEGMENT_LOSS (R152): missing reports of a segment for 4 Bells, or a head lane leaving UP, mark its stations LOST with
LINK_LOSS. -/
def execSegmentLoss (lane : Fin 10) (s : State) : Host.Outcome State Fault Refusal :=
  .next (s.onHead (fun h => h.segmentCheck lane.val))

/-- REJOIN_ECHO (R152): every 64 Bells the head sends an ECHO in Recess to the nearest lost station. -/
def execRejoinEcho (lane : Fin 10) (s : State) : Host.Outcome State Fault Refusal :=
  .next (s.onHead (fun h => h.rejoinEcho lane.val))

/-- RESYNC_START (R149): after the detention wait the head sends 16 ECHOs, SLOTS and START to resynchronise the node. -/
def execResyncStart (station : Nat) (s : State) : Host.Outcome State Fault Refusal :=
  .next (s.onHead (fun h => h.resyncStart station))

/-- PROBATION_END (R149): after 256 probation Bells, or 16 missing ones, the node is released or the procedure restarts. -/
def execProbationEnd (station : Nat) (s : State) : Host.Outcome State Fault Refusal :=
  .next (s.onHead (fun h => h.probationEnd station))

/-- NODE_RELEASE (R150): NODE_CTL.RELEASE in DETENTION_LOCK restarts the resynchronisation at step 2. -/
def execNodeRelease (station : Nat) (s : State) : Host.Outcome State Fault Refusal :=
  .next (s.writeField (NODE_CTL_RELEASE station) 1)

/-- ROLLCALL_START (R131): roll Call starts with 8 kHz Roll Call Bells, enables the transmitters and sends CLEAR first. -/
def execRollcallStart (s : State) : Host.Outcome State Fault Refusal := .next (s.onHead (fun h => h.rollCallBegin))

/-- ROLLCALL_REQUEST (R136): at tick 64 of a Roll Call Bell the head sends at most one request per lane. -/
def execRollcallRequest (phase : Fin 11) (s : State) : Host.Outcome State Fault Refusal :=
  .next (s.onHead (fun h => h.rollCallRequest phase.val))

/-- ROLLCALL_ANSWER (R133): an answer in the Roll Call window is processed: unique ID, assignment, delay samples, descriptor
comparison, echoed records. The frame is received as any frame is; the row names what comes of this one. -/
def execRollcallAnswer (r : RxFrame) (s : State) : Host.Outcome State Fault Refusal := .next (s.onHead (fun h => h.receive r))

/-- ROLLCALL_NO_ANSWER (R136): an unanswered request is repeated up to 3 times, then NO_ACK or the lane ends. -/
def execRollcallNoAnswer (lane : Fin 10) (s : State) : Host.Outcome State Fault Refusal :=
  .next (s.onHead (fun h => h.rollCallNoAnswer lane.val))

/-- ROLLCALL_STARTUP (R137): when every lane has ended the head sends START to broadcast in 3 Bells naming the first cyclic
Bell. -/
def execRollcallStartup (phase : Fin 11) (s : State) : Host.Outcome State Fault Refusal :=
  .next (s.onHead (fun h => h.rollCallStartup phase.val))

/-- ROLLCALL_RESTART (R144): 1 s after a failed REQUIRED position the head starts Roll Call again with CLEAR. -/
def execRollcallRestart (s : State) : Host.Outcome State Fault Refusal := .next (s.onHead (fun h => h.rollCallRestart))

/-- NODE_RC_FULL (R153): NODE_RC_CTL.FULL requests a full Roll Call under the conditions of R72. -/
def execNodeRcFull (s : State) : Host.Outcome State Fault Refusal := .next (s.writeField NODE_RC_CTL_FULL 1)

end Sys2Proof.Machine
end

