-- ==== Sys2Proof/Machine/CmdNode.lean ====
section
/-! DEFINITION. Meanings of the commands of nodes and DC bus groups (chapter 15): one definition for each row of the table, over the
shared operations. -/

namespace Sys2Proof.Machine

/-- NODE_CONFIG_WRITE (R339): after START or rejoin the head writes the node configuration and sets CFG_OK. -/
def execNodeConfigWrite (station : Nat) (s : State) : Host.Outcome State Fault Refusal :=
  .next (s.onHead (fun h => h.configWrite station))

/-- NODE_RAWSW (R352): a raw switch test is checked for interlock and state and sent as an EXEC. -/
def execNodeRawsw (station : Nat) (pattern : BitVec 6) (width : BitVec 16) (s : State) : Host.Outcome State Fault Refusal :=
  .next (s.write [(NODE_RAWSW station, width.toNat * 65536 + pattern.toNat)])

/-- CLR_LOCK (R359): sends FLT_ACK to a locked group and clears DCB_LOCK when OV has gone. -/
def execClrLock (g : Fin 16) (s : State) : Host.Outcome State Fault Refusal := .next (s.writeField (DCB_CTL_CLR_LOCK g.val) 1)

/-- CLR_LOCK_TIMEOUT (R359): no clear edge within 16 Bells sets REFUSE = 3 and keeps the lock. -/
def execClrLockTimeout (g : Fin 16) (s : State) : Host.Outcome State Fault Refusal :=
  .next (s.onHead (fun h => h.clearTimeout g.val))

/-- CLR_FAIL (R356): clears CHOP_FAIL at the next Bell edge. -/
def execClrFail (g : Fin 16) (s : State) : Host.Outcome State Fault Refusal := .next (s.writeField (DCB_CTL_CLR_FAIL g.val) 1)

end Sys2Proof.Machine
end

