-- ==== Sys2Proof/Machine/CmdPair.lean ====
section
/-! DEFINITION. Meanings of the commands of redundant heads (chapter 17): one definition for each row of the table, over the
shared operations. -/

namespace Sys2Proof.Machine

/-- HEARTBEAT_SEND (R400): a paired head sends its heartbeat frame on LL1 at HB_T. -/
def execHeartbeatSend (s : State) : Host.Outcome State Fault Refusal := .next (s.onHead (fun h => h.heartbeatSend))

/-- HEARTBEAT_RECEIVE (R401): a partner heartbeat on the line link counts as heard for its Bell. The frame is received as any
frame is; the row names what comes of this one. -/
def execHeartbeatReceive (r : RxFrame) (s : State) : Host.Outcome State Fault Refusal := .next (s.onHead (fun h => h.receive r))

/-- HBT_IN (R401): an HBT_IN level change counts the partner heard on the pin path. -/
def execHbtIn (tick : Nat) (s : State) : Host.Outcome State Fault Refusal := .next (s.onHead (fun h => h.hbtIn tick))

/-- HB_DUE_CHECK (R401): at HB_DUE the head declares the partner failed if unheard for two Bells. -/
def execHbDueCheck (s : State) : Host.Outcome State Fault Refusal := .next (s.onHead (fun h => h.hbDueCheck))

/-- LISTEN_END (R402): after the cold-start listening time the head becomes Substitute or claims. -/
def execListenEnd (s : State) : Host.Outcome State Fault Refusal := .next (s.onHead (fun h => h.listenEnd))

/-- CLAIM_END (R402): after 8 claim periods the winner becomes active and the loser backs off. -/
def execClaimEnd (s : State) : Host.Outcome State Fault Refusal := .next (s.onHead (fun h => h.claimEnd))

/-- BACKOFF_END (R402): after its random wait the loser returns to step 1. -/
def execBackoffEnd (s : State) : Host.Outcome State Fault Refusal := .next (s.onHead (fun h => h.backoffEnd))

/-- PARTNER_LOST (R410): a STANDBY Substitute whose partner failed waits 32 ms, then claims as at cold start. -/
def execPartnerLost (s : State) : Host.Outcome State Fault Refusal := .next (s.onHead (fun h => h.partnerLost))

/-- JOIN (R404): the Substitute joins each station of its side in the join pair. -/
def execJoin (station : Nat) (s : State) : Host.Outcome State Fault Refusal := .next (s.onHead (fun h => h.joinStart station))

/-- MIRROR_SEND (R408): the active head sends mirror records on LL1. -/
def execMirrorSend (typ : Byte) (index : Byte) (s : State) : Host.Outcome State Fault Refusal :=
  .next (s.onHead (fun h => h.mirrorSend typ.toNat index.toNat))

/-- MIRROR_RECEIVE (R409): the Substitute applies a mirror record, Δ-corrected or replaced, at the next Bell edge. The frame is
received as any frame is; the row names what comes of this one. -/
def execMirrorReceive (r : RxFrame) (s : State) : Host.Outcome State Fault Refusal := .next (s.onHead (fun h => h.receive r))

/-- HANDOFF (R412): RED_CTL.HANDOFF hands the network to a READY Substitute. -/
def execHandoff (s : State) : Host.Outcome State Fault Refusal := .next (s.writeField RED_CTL_HANDOFF 1)

end Sys2Proof.Machine
end

