-- ==== Sys2Proof/Machine/CmdProcess.lean ====
section
/-! DEFINITION. Meanings of the commands of process loops (chapter 13): one definition for each row of the table, over the
shared operations. -/

namespace Sys2Proof.Machine

/-- PL_MODE_WRITE (R314): a mode request acts at the next sample instant with a bumpless preset into AUTO. -/
def execPlModeWrite (i : Fin 32) (mode : Fin 8) (s : State) : Host.Outcome State Fault Refusal :=
  .next (s.writeField (PL_MODE_MODE i.val) mode.val)

/-- PL_COMMIT (R313): brings the shadow coefficient set into force at the next sample. -/
def execPlCommit (i : Fin 32) (s : State) : Host.Outcome State Fault Refusal := .next (s.writeField (PL_CMD_COMMIT i.val) 1)

/-- TUNE (R316): starts the relay auto-tune. -/
def execTune (i : Fin 32) (s : State) : Host.Outcome State Fault Refusal := .next (s.writeField (PL_CMD_TUNE i.val) 1)

/-- TUNE_ABORT (R316): ends the tune with ABORTED. -/
def execTuneAbort (i : Fin 32) (s : State) : Host.Outcome State Fault Refusal := .next (s.writeField (PL_CMD_TUNE_ABORT i.val) 1)

/-- PL_APPLY (R318): writes the tuned PI and model after an OK tune. -/
def execPlApply (i : Fin 32) (s : State) : Host.Outcome State Fault Refusal := .next (s.writeField (PL_CMD_APPLY i.val) 1)

/-- PL_CLR (R315): clears loop faults whose condition no longer holds and enters OFF. -/
def execPlClr (i : Fin 32) (s : State) : Host.Outcome State Fault Refusal := .next (s.writeField (PL_CMD_CLR i.val) 1)

/-- PL_MAN_WRITE (R315): sets the manual output, refused outside MANUAL and OFF. -/
def execPlManWrite (i : Fin 32) (man : BitVec 16) (s : State) : Host.Outcome State Fault Refusal :=
  .next (s.writeField (PL_MAN_MAN i.val) man.toNat)

end Sys2Proof.Machine
end

