-- ==== Sys2Proof/Machine/CmdRegisters.lean ====
section
/-! DEFINITION. Meanings of the commands of registers, counters and two-word values (R3 to R7, R98): one definition for each row of the table, over the
shared operations. -/

namespace Sys2Proof.Machine

/-- LOWER_WORD_READ (R7): reading the lower word of a two-word value latches the upper word in the same tick. -/
def execLowerWordRead (addr : Nat) (s : State) : Host.Outcome State Fault Refusal := .next (s.read [addr])

/-- UPPER_WORD_READ (R7): reading the upper word returns and consumes the latch, or the value in force when none stands. -/
def execUpperWordRead (addr : Nat) (s : State) : Host.Outcome State Fault Refusal := .next (s.read [addr])

/-- LOWER_WORD_WRITE (R7): writing the lower word holds it without changing the value. -/
def execLowerWordWrite (addr : Nat) (w : Word) (s : State) : Host.Outcome State Fault Refusal := .next (s.write [(addr, w.toNat)])

/-- UPPER_WORD_WRITE (R7): writing the upper word commits both halves in one tick after checking the combined value. -/
def execUpperWordWrite (addr : Nat) (w : Word) (s : State) : Host.Outcome State Fault Refusal := .next (s.write [(addr, w.toNat)])

/-- COUNTER_READ_CLEAR (R98): a read of an RC counter returns its value, after any same-tick increment, and clears it. -/
def execCounterReadClear (addr : Nat) (s : State) : Host.Outcome State Fault Refusal := .next (s.read [addr])

/-- W1C_CLEAR (R3): writing 1 to a W1C bit clears it. -/
def execW1cClear (addr : Nat) (w : Word) (s : State) : Host.Outcome State Fault Refusal := .next (s.write [(addr, w.toNat)])

/-- REGISTER_WRITE (R6): a host write to a register with no row of its own is checked and lands in its shadow to take effect
at the next Bell edge. -/
def execRegisterWrite (addr : Nat) (w : Word) (s : State) : Host.Outcome State Fault Refusal := .next (s.write [(addr, w.toNat)])

end Sys2Proof.Machine
end

