-- ==== Sys2Proof/Machine/CmdSafety.lean ====
section
/-! DEFINITION. Meanings of the commands of the safety island (chapter 16): one definition for each row of the table, over the
shared operations. -/

namespace Sys2Proof.Machine

/-- ISLAND_POWER_ON (R387): the island runs its self-tests after power-on reset and waits for a parameter set with outputs
off. -/
def execIslandPowerOn (code : Fin 8) (s : State) : Host.Outcome State Fault Refusal :=
  .next (s.onIsland (fun _ => Island.powerOn code.val))

/-- PARAM_TRANSFER (R387): the core passes the SAFETY words and role word; the island adopts them if the CRC equals SAFE_SIG.
-/
def execParamTransfer (sound : Bool) (s : State) : Host.Outcome State Fault Refusal := .next (s.paramTransfer sound)

/-- EVALUATION_CYCLE (R366): every 4,700 island cycles the island evaluates inputs, functions, readbacks, supply and
self-tests and updates outputs and records. -/
def execEvaluationCycle (x : EvalIn) (s : State) : Host.Outcome State Fault Refusal := .next (s.evaluationCycle x)

/-- SS1_EXPIRY (R377): the SS1 count running out switches the output off and sets code 2. -/
def execSs1Expiry (n : Fin 4) (s : State) : Host.Outcome State Fault Refusal := .next (s.onIsland (fun x => x.expire n.val))

/-- INPUT_DISC (R369): paired inputs disagreeing longer than DISC take fault DISC. -/
def execInputDisc (k : Fin 4) (s : State) : Host.Outcome State Fault Refusal :=
  .next (s.onIsland (fun x => x.discNow (2 * k.val)))

/-- FS_STOP (R381): FS_SAG lasting longer than SAG_TOL switches every output off as a demand stop. -/
def execFsStop (s : State) : Host.Outcome State Fault Refusal := .next (s.onIsland (fun x => x.sagStop))

/-- TEST_PULSE (R372): in its test slot an output or SPT is switched off for OFFP and checked. -/
def execTestPulse (slot : Fin 8) (samples : List SafeSample) (s : State) : Host.Outcome State Fault Refusal :=
  .next (s.onIsland (fun x => x.testPulse slot.val samples))

/-- RESET (R380): a released SRST press of valid length acts as a reset edge or long reset. -/
def execSafetyReset (samples : Nat) (s : State) : Host.Outcome State Fault Refusal :=
  .next (s.onIsland (fun x => x.reset samples))

/-- KEEPALIVE_DROP (R364): without refresh a keep-alive stage drives its SOUT low within 600–1,000 µs. -/
def execKeepaliveDrop (n : Fin 4) (s : State) : Host.Outcome State Fault Refusal := .next (s.onIsland (fun x => x.drop n.val))

/-- ISLAND_RECORD (R378): a handed-over island record commits its stop requests at rank 1 to axes and loops. -/
def execIslandRecord (sound : Bool) (s : State) : Host.Outcome State Fault Refusal := .next (s.islandRecord sound)

/-- EARLY_OFF (R378): when every EARLY axis of an output has stood still 16 Bells the head asks the island to switch it off.
-/
def execEarlyOff (n : Fin 4) (s : State) : Host.Outcome State Fault Refusal := .next (s.earlyOff n.val)

/-- ISLAND_WD_CHANGE (R384): each island watchdog change is timed; bad intervals raise ISLAND_CLOCK. -/
def execIslandWdChange (tick : Nat) (s : State) : Host.Outcome State Fault Refusal := .next (s.islandWdChange tick)

/-- ISLAND_LOSS (R386): no island watchdog change for 1 ms or 4 bad records treats every axis as holding an STO request. -/
def execIslandLoss (s : State) : Host.Outcome State Fault Refusal := .next (s.islandLoss)

/-- VDD_SAFE_LOSS (R387): removal of VDD_SAFE stops the island, drops its parameter set, role and island faults, leaves SFLT_N
low and makes the demand lines read as a stop demand for every axis. -/
def execVddSafeLoss (s : State) : Host.Outcome State Fault Refusal := .next (s.vddSafeLoss)

end Sys2Proof.Machine
end

