-- ==== Sys2Proof/Machine/CmdSched.lean ====
section
/-! DEFINITION. Meanings of the commands of the scheduler (chapter 09): one definition for each row of the table, over the
shared operations. -/

namespace Sys2Proof.Machine

/-- TASK_DISPATCH (R214): when an engine frees, the scheduler picks privileged, cyclic or admitted acyclic work and starts it
with the initial register state. -/
def execTaskDispatch (e : Fin 16) (s : State) : Host.Outcome State Fault Refusal :=
  .next (s.onHead (fun h => h.taskDispatch e.val))

/-- PRIV_ENQUEUE (R212): a privileged request pending in its flag is enqueued when a level entry frees. -/
def execPrivEnqueue (t : Nat) (s : State) : Host.Outcome State Fault Refusal := .next (s.onHead (fun h => h.privEnqueue t))

/-- PARK_RELEASE (R197): a parked task continues when its release reaches the engine. -/
def execParkRelease (e : Fin 16) (s : State) : Host.Outcome State Fault Refusal := .next (s.onHead (fun h => h.release e.val))

/-- BUDGET_FAULT (R198): a task reaching its cycle budget is stopped with fault BUDGET. -/
def execBudgetFault (e : Fin 16) (s : State) : Host.Outcome State Fault Refusal := .next (s.onHead (fun h => h.budgetFault e.val))

/-- SCHED_EN_SET (R221): enables a task only while all its axes are disabled, clearing its fault state. -/
def execSchedEnSet (t : Fin 1024) (s : State) : Host.Outcome State Fault Refusal := .next (s.write [(SCHED_EN_SET, t.val)])

/-- SCHED_FLAG_SET (R207): sets SOFT flags of a task in the tick of commit. -/
def execSchedFlagSet (t : Fin 1024) (soft : Byte) (s : State) : Host.Outcome State Fault Refusal :=
  .next (s.write [(SCHED_FLAG_SET, soft.toNat * 65536 + t.val)])

end Sys2Proof.Machine
end

