-- ==== Sys2Proof/Machine/CmdStart.lean ====
section
/-! DEFINITION. Meanings of the commands of reset, start-up, recipes, flash, key and trim stores (chapters 02, 03): one definition for each row of the table, over the
shared operations. -/

namespace Sys2Proof.Machine

/-- PORST_N_ASSERT (R34): PORST_N going low drives every non-island ball to its reset state within 100 ns and drops the core
watchdog alive level. -/
def execPorstAssert (torn : Option Nat) (s : State) : Host.Outcome State Fault Refusal := .next (s.dropOut torn 2)

/-- RESET_SEQUENCE (R54): after PORST_N rises the head samples straps, locks PLLs, reads and applies trim, initialises SRAM,
reads both directory copies and starts the boot-mode sequence. -/
def execResetSequence (mode : Fin 4) (role : Bool) (svcEn : Bool) (romOk : Bool) (s : State) : Host.Outcome State Fault Refusal :=
  .next (s.sequence mode.val role svcEn romOk)

/-- LOG_RESUME (R454): after the recipe load the head scans the event-log sectors and resumes after the last valid record,
restoring counters and the last epoch. -/
def execLogResume (s : State) : Host.Outcome State Fault Refusal := .next (s.logResume)

/-- SYS_SWRST (R55): writing 0x0000_A5C3 to SYS_SWRST resets the head and reruns the reset sequence. -/
def execSysSwrst (w : Word) (s : State) : Host.Outcome State Fault Refusal := .next (s.write [(SYS_SWRST, w.toNat)])

/-- MAIN_RAIL_LOSS (R36): loss of the main rails reads in the island as loss of the core watchdog. -/
def execMainRailLoss (torn : Option Nat) (s : State) : Host.Outcome State Fault Refusal := .next (s.dropOut torn 1)

/-- SVC_EN_LOW (R30): SVC_EN going low closes an open Engineer view and raises ENG_CLOSED. -/
def execSvcEnLow (s : State) : Host.Outcome State Fault Refusal := .next (s.onHead Head.svcEnLow)

/-- RECIPE_LOAD (R67): the head reads, authenticates and checks an image, loads its sections into inactive targets and brings
it into force only if every check passes. -/
def execRecipeLoad (content : Content) (refuse : Option Nat) (readFault : Bool) (us : Nat) (s : State) : Host.Outcome State Fault Refusal :=
  .next (s.recipeLoad content refuse readFault us)

/-- BOOT_RELEASE (R56): writing GO in state HELD starts Roll Call. -/
def execBootRelease (s : State) : Host.Outcome State Fault Refusal := .next (s.writeField BOOT_RELEASE_GO 1)

/-- HOST_LOAD_START (R70): BOOT_HL_CTL.START begins a host load of LEN bytes. -/
def execHostLoadStart (len : Nat) (s : State) : Host.Outcome State Fault Refusal :=
  .next (s.write [(BOOT_HL_CTL, 2 ^ 31 + len % 2 ^ 24)])

/-- HOST_LOAD_ABORT (R70): BOOT_HL_CTL.ABORT fails the host load with code HOSTLOAD. -/
def execHostLoadAbort (s : State) : Host.Outcome State Fault Refusal := .next (s.writeField BOOT_HL_CTL_ABORT 1)

/-- BOOT_HL_DATA (R70): a write to BOOT_HL_DATA streams the next image word into the load. -/
def execBootHlData (w : Word) (s : State) : Host.Outcome State Fault Refusal := .next (s.write [(BOOT_HL_DATA, w.toNat)])

/-- HOST_LOAD_TIMEOUT (R70): more than 1 s between image words fails the host load with HOSTLOAD. -/
def execHostLoadTimeout (s : State) : Host.Outcome State Fault Refusal := .next (s.onHead (fun h => h.hostLoadTimeout))

/-- BOOT_RELOAD_REQ (R72): a reload request is accepted or refused by state, axes and running reloads; in NO_RECIPE the head
loads at once. -/
def execBootReloadReq (slot : Fin 16) (s : State) : Host.Outcome State Fault Refusal :=
  .next (s.write [(BOOT_RELOAD, slot.val + 256)])

/-- BOOT_SLOT_UPDATE (R59): UPDATE rewrites the unused directory copy with SEQ one higher. -/
def execBootSlotUpdate (sel : Fin 16) (fallback : Fin 256) (s : State) : Host.Outcome State Fault Refusal :=
  .next (s.write [(BOOT_SLOT, sel.val + fallback.val * 256 + 65536)])

/-- FLASH_ERASE (R80): BOOT_FLOP OP 1 erases a 4 KiB sector unless it touches the slot in force or a directory outside
Maintenance or NO_RECIPE. -/
def execFlashErase (addr : Word) (s : State) : Host.Outcome State Fault Refusal :=
  .next (s.write [(BOOT_FLOP_ADDR, addr.toNat), (BOOT_FLOP, 1)])

/-- FLASH_PROGRAM (R80): BOOT_FLOP OP 2 programs 256 bytes from the page buffer under the same protection. -/
def execFlashProgram (addr : Word) (s : State) : Host.Outcome State Fault Refusal :=
  .next (s.write [(BOOT_FLOP_ADDR, addr.toNat), (BOOT_FLOP, 2)])

/-- FLASH_READ (R80): BOOT_FLOP OP 3 reads 256 bytes into the page buffer. -/
def execFlashRead (addr : Word) (s : State) : Host.Outcome State Fault Refusal :=
  .next (s.write [(BOOT_FLOP_ADDR, addr.toNat), (BOOT_FLOP, 3)])

/-- BOOT_KEY_PROG (R66): writing 0x0000_5A3C programs, reads back and locks the key store once in Maintenance with the
Engineer view open. -/
def execBootKeyProg (w : Word) (readBack : Option (List Word)) (s : State) : Host.Outcome State Fault Refusal :=
  .next (s.onHeadThen readBack (fun h => h.directWrite s.key [(BOOT_KEY_PROG, w)]))

/-- TRIM_COMMIT (R78): SYS_TRIM_CTL.COMMIT writes the staged 2 KiB trim store or refuses it. -/
def execTrimCommit (s : State) : Host.Outcome State Fault Refusal := .next (s.writeField SYS_TRIM_CTL_COMMIT 1)

end Sys2Proof.Machine
end

