-- ==== Sys2Proof/Machine/CmdTable.lean ====
section
/-! DEFINITION. Meanings of the commands of the Machine State Table (chapter 14): one definition for each row of the table, over the
shared operations. -/

namespace Sys2Proof.Machine

/-- MST_PASS (R331): each millisecond the Supervisor snapshots events, fires at most one transition and runs its actions. -/
def execMstPass (s : State) : Host.Outcome State Fault Refusal := .next (s.onHead (fun h => h.mstPass s.key))

/-- MST_FORCE (R335): forces entry to a state at the next pass. -/
def execMstForce (st : Fin 64) (s : State) : Host.Outcome State Fault Refusal := .next (s.write [(MST_FORCE, 64 + st.val)])

/-- MST_NOTIFY_READ (R445): reading MST_NOTIFY clears it and releases EVT_N for that cause. -/
def execMstNotifyRead (s : State) : Host.Outcome State Fault Refusal := .next (s.read [MST_NOTIFY])

end Sys2Proof.Machine
end

