-- ==== Sys2Proof/Machine/CmdTime.lean ====
section
/-! DEFINITION. Meanings of the commands of Machine Time, Line Time, triggers and PPS (chapter 07): one definition for each row of the table, over the
shared operations. -/

namespace Sys2Proof.Machine

/-- STEERING_SAMPLE (R162): a kept latch record updates the PI steering and the next F_MT of Machine Time. -/
def execSteeringSample (s : State) : Host.Outcome State Fault Refusal := .next (s.onHead (fun h => h.steeringSample))

/-- TIME_HOLDOVER (R164): no kept sample for 4 sample periods freezes F_MT and enters HOLDOVER. -/
def execTimeHoldover (s : State) : Host.Outcome State Fault Refusal := .next (s.onHead (fun h => h.timeHoldover))

/-- LINE_SYNC (R166): at each even millisecond a head in REF_MODE 0 or 1 sends LINE_SYNC and LINE_FOLLOW on LL1. -/
def execLineSync (s : State) : Host.Outcome State Fault Refusal := .next (s.onHead Head.lineSync)

/-- LINE_FOLLOW (R167): a following head takes a LINE_SYNC and LINE_FOLLOW pair and steers from it. The frame is received as
any frame is; the row names what comes of this one. -/
def execLineFollow (sync : RxFrame) (follow : RxFrame) (s : State) : Host.Outcome State Fault Refusal :=
  .next (s.onHead (fun h => (h.receive sync).receive follow))

/-- LINK_ECHO (R167): LINK_ECHO exchanges on LL0 measure the line-link delay. -/
def execLinkEcho (t1 : Nat) (t2 : Nat) (t3 : Nat) (t4 : Nat) (s : State) : Host.Outcome State Fault Refusal :=
  .next (s.onHead (fun h => h.linkEcho t1 t2 t3 t4))

/-- PPS_OUT_RISE (R170): PPS_OUT rises when the chosen scale passes a whole second. -/
def execPpsOutRise (s : State) : Host.Outcome State Fault Refusal := .next (s.onHead (fun h => h.ppsRise))

/-- PPS_OUT_FALL (R170): PPS_OUT falls after WIDTH_MS. -/
def execPpsOutFall (s : State) : Host.Outcome State Fault Refusal := .next (s.onHead (fun h => h.ppsFall))

/-- PPS_IN (R170): a rising PPS_IN edge is stamped in Machine and Line Time and counted. -/
def execPpsIn (tick : Nat) (s : State) : Host.Outcome State Fault Refusal := .next (s.onHead (fun h => h.ppsIn tick))

/-- TRG_FIRE (R171): a MODE 1 or 2 trigger drives its pulse when its time is reached, rearming by PERIOD in MODE 2. -/
def execTrgFire (k : Fin 4) (s : State) : Host.Outcome State Fault Refusal := .next (s.onHead (fun h => h.trgFire k.val))

/-- TRG_PULSE_END (R171): the trigger pulse ends after WIDTH ticks. -/
def execTrgPulseEnd (k : Fin 4) (s : State) : Host.Outcome State Fault Refusal := .next (s.onHead (fun h => h.trgPulseEnd k.val))

/-- TRG_INPUT_EDGE (R171): in MODE 0 a selected edge is stamped, overwriting an unread stamp with TRG_OVR. -/
def execTrgInputEdge (k : Fin 4) (rising : Bool) (tick : Nat) (s : State) : Host.Outcome State Fault Refusal :=
  .next (s.onHead (fun h => h.trgEdge k.val rising tick))

/-- TRG_ARM (R171): the write of TIME_TRG_SEC arms the trigger in the tick it commits, setting TRG_LATE if already passed. -/
def execTrgArm (k : Fin 4) (ns : Word) (sec : Word) (s : State) : Host.Outcome State Fault Refusal :=
  .next (s.write [(TIME_TRG_NS k.val, ns.toNat), (TIME_TRG_SEC k.val, sec.toNat)])

/-- LINE_TIME_SET (R173): a write of Line Time or its addend takes effect at the next Bell edge, or at once when no Bell runs.
-/
def execLineTimeSet (w : LineWrite) (s : State) : Host.Outcome State Fault Refusal :=
  match w with
  | .time ns sec => .next (s.write [(TIME_LT_NS, ns.toNat), (TIME_LT_SEC, sec.toNat)])
  | .addend f => .next (s.write [(TIME_LT_ADDEND, f.toNat)])

/-- MT_ADDEND_WRITE (R163): in REF_MODE 2 a write of TIME_MT_ADDEND within R_LIM sets F_MT. -/
def execMtAddendWrite (w : Word) (s : State) : Host.Outcome State Fault Refusal := .next (s.write [(TIME_MT_ADDEND, w.toNat)])

end Sys2Proof.Machine
end

