-- ==== Sys2Proof/Machine/Dispatch.lean ====
section
/-! DEFINITION. The dispatch: one arm per command, each one direct call of its meaning. -/

namespace Sys2Proof.Machine

def exec (i : Instr) (s : State) : Host.Outcome State Fault Refusal :=
  match i with
  | .porstAssert torn => Sys2Proof.Machine.execPorstAssert torn s
  | .resetSequence mode role svcEn romOk => Sys2Proof.Machine.execResetSequence mode role svcEn romOk s
  | .logResume => Sys2Proof.Machine.execLogResume s
  | .sysSwrst w => Sys2Proof.Machine.execSysSwrst w s
  | .mainRailLoss torn => Sys2Proof.Machine.execMainRailLoss torn s
  | .svcEnLow => Sys2Proof.Machine.execSvcEnLow s
  | .recipeLoad content refuse readFault us => Sys2Proof.Machine.execRecipeLoad content refuse readFault us s
  | .bootRelease => Sys2Proof.Machine.execBootRelease s
  | .hostLoadStart len => Sys2Proof.Machine.execHostLoadStart len s
  | .hostLoadAbort => Sys2Proof.Machine.execHostLoadAbort s
  | .bootHlData w => Sys2Proof.Machine.execBootHlData w s
  | .hostLoadTimeout => Sys2Proof.Machine.execHostLoadTimeout s
  | .bootReloadReq slot => Sys2Proof.Machine.execBootReloadReq slot s
  | .bootSlotUpdate sel fallback => Sys2Proof.Machine.execBootSlotUpdate sel fallback s
  | .flashErase addr => Sys2Proof.Machine.execFlashErase addr s
  | .flashProgram addr => Sys2Proof.Machine.execFlashProgram addr s
  | .flashRead addr => Sys2Proof.Machine.execFlashRead addr s
  | .bootKeyProg w readBack => Sys2Proof.Machine.execBootKeyProg w readBack s
  | .trimCommit => Sys2Proof.Machine.execTrimCommit s
  | .lowerWordRead addr => Sys2Proof.Machine.execLowerWordRead addr s
  | .upperWordRead addr => Sys2Proof.Machine.execUpperWordRead addr s
  | .lowerWordWrite addr w => Sys2Proof.Machine.execLowerWordWrite addr w s
  | .upperWordWrite addr w => Sys2Proof.Machine.execUpperWordWrite addr w s
  | .counterReadClear addr => Sys2Proof.Machine.execCounterReadClear addr s
  | .w1cClear addr w => Sys2Proof.Machine.execW1cClear addr w s
  | .registerWrite addr w => Sys2Proof.Machine.execRegisterWrite addr w s
  | .laneSignalQualified lane => Sys2Proof.Machine.execLaneSignalQualified lane s
  | .cdrLocked lane eq => Sys2Proof.Machine.execCdrLocked lane eq s
  | .commaAligned lane inverted => Sys2Proof.Machine.execCommaAligned lane inverted s
  | .laneUp lane => Sys2Proof.Machine.execLaneUp lane s
  | .syncLoss lane invalid inFrame => Sys2Proof.Machine.execSyncLoss lane invalid inFrame s
  | .signalLoss lane cut => Sys2Proof.Machine.execSignalLoss lane cut s
  | .cdrLockLoss lane => Sys2Proof.Machine.execCdrLockLoss lane s
  | .idleInsertDelete lane => Sys2Proof.Machine.execIdleInsertDelete lane s
  | .llForward r => Sys2Proof.Machine.execLlForward r s
  | .frameRefused r => Sys2Proof.Machine.execFrameRefused r s
  | .reportReceive r => Sys2Proof.Machine.execReportReceive r s
  | .recessRequest lane pair phase => Sys2Proof.Machine.execRecessRequest lane pair phase s
  | .recessResponse r => Sys2Proof.Machine.execRecessResponse r s
  | .recessResponseMissing lane pair => Sys2Proof.Machine.execRecessResponseMissing lane pair s
  | .bellEdge phase => Sys2Proof.Machine.execBellEdge phase s
  | .watchdogToggle armed => Sys2Proof.Machine.execWatchdogToggle armed s
  | .slotDeparture lane slot => Sys2Proof.Machine.execSlotDeparture lane slot s
  | .motionDeadline t => Sys2Proof.Machine.execMotionDeadline t s
  | .rxWindowClose lane slot => Sys2Proof.Machine.execRxWindowClose lane slot s
  | .segmentLoss lane => Sys2Proof.Machine.execSegmentLoss lane s
  | .rejoinEcho lane => Sys2Proof.Machine.execRejoinEcho lane s
  | .resyncStart station => Sys2Proof.Machine.execResyncStart station s
  | .probationEnd station => Sys2Proof.Machine.execProbationEnd station s
  | .nodeRelease station => Sys2Proof.Machine.execNodeRelease station s
  | .rollcallStart => Sys2Proof.Machine.execRollcallStart s
  | .rollcallRequest phase => Sys2Proof.Machine.execRollcallRequest phase s
  | .rollcallAnswer r => Sys2Proof.Machine.execRollcallAnswer r s
  | .rollcallNoAnswer lane => Sys2Proof.Machine.execRollcallNoAnswer lane s
  | .rollcallStartup phase => Sys2Proof.Machine.execRollcallStartup phase s
  | .rollcallRestart => Sys2Proof.Machine.execRollcallRestart s
  | .nodeRcFull => Sys2Proof.Machine.execNodeRcFull s
  | .steeringSample => Sys2Proof.Machine.execSteeringSample s
  | .timeHoldover => Sys2Proof.Machine.execTimeHoldover s
  | .lineSync => Sys2Proof.Machine.execLineSync s
  | .lineFollow sync follow => Sys2Proof.Machine.execLineFollow sync follow s
  | .linkEcho t1 t2 t3 t4 => Sys2Proof.Machine.execLinkEcho t1 t2 t3 t4 s
  | .ppsOutRise => Sys2Proof.Machine.execPpsOutRise s
  | .ppsOutFall => Sys2Proof.Machine.execPpsOutFall s
  | .ppsIn tick => Sys2Proof.Machine.execPpsIn tick s
  | .trgFire k => Sys2Proof.Machine.execTrgFire k s
  | .trgPulseEnd k => Sys2Proof.Machine.execTrgPulseEnd k s
  | .trgInputEdge k rising tick => Sys2Proof.Machine.execTrgInputEdge k rising tick s
  | .trgArm k ns sec => Sys2Proof.Machine.execTrgArm k ns sec s
  | .lineTimeSet w => Sys2Proof.Machine.execLineTimeSet w s
  | .mtAddendWrite w => Sys2Proof.Machine.execMtAddendWrite w s
  | .taskDispatch e => Sys2Proof.Machine.execTaskDispatch e s
  | .privEnqueue t => Sys2Proof.Machine.execPrivEnqueue t s
  | .parkRelease e => Sys2Proof.Machine.execParkRelease e s
  | .budgetFault e => Sys2Proof.Machine.execBudgetFault e s
  | .load e mv => Sys2Proof.Machine.execLoad e mv s
  | .prod e d ki j mv => Sys2Proof.Machine.execProd e d ki j mv s
  | .pacc e d ki j mv => Sys2Proof.Machine.execPacc e d ki j mv s
  | .psub e d ki j mv => Sys2Proof.Machine.execPsub e d ki j mv s
  | .prod2 e d ki j mv => Sys2Proof.Machine.execProd2 e d ki j mv s
  | .pacc2 e d ki j mv => Sys2Proof.Machine.execPacc2 e d ki j mv s
  | .pdif e d ki j mv => Sys2Proof.Machine.execPdif e d ki j mv s
  | .paccd e d ki j mv => Sys2Proof.Machine.execPaccd e d ki j mv s
  | .ppair e d ki j mv => Sys2Proof.Machine.execPpair e d ki j mv s
  | .ppacc e d ki j mv => Sys2Proof.Machine.execPpacc e d ki j mv s
  | .prodn e d ki j mv => Sys2Proof.Machine.execProdn e d ki j mv s
  | .paccn e d ki j mv => Sys2Proof.Machine.execPaccn e d ki j mv s
  | .addk e d ki mv => Sys2Proof.Machine.execAddk e d ki mv s
  | .subk e d ki mv => Sys2Proof.Machine.execSubk e d ki mv s
  | .fmax e d ki j mv => Sys2Proof.Machine.execFmax e d ki j mv s
  | .fmin e d ki j mv => Sys2Proof.Machine.execFmin e d ki j mv s
  | .zero e d => Sys2Proof.Machine.execZero e d s
  | .copy e d src => Sys2Proof.Machine.execCopy e d src s
  | .add e d src => Sys2Proof.Machine.execAdd e d src s
  | .sub e d src => Sys2Proof.Machine.execSub e d src s
  | .neg e d => Sys2Proof.Machine.execNeg e d s
  | .absS e d => Sys2Proof.Machine.execAbsS e d s
  | .clip e d => Sys2Proof.Machine.execClip e d s
  | .round e d => Sys2Proof.Machine.execRound e d s
  | .shl e d imm => Sys2Proof.Machine.execShl e d imm s
  | .shr e d imm => Sys2Proof.Machine.execShr e d imm s
  | .shv e d src => Sys2Proof.Machine.execShv e d src s
  | .scale e d src => Sys2Proof.Machine.execScale e d src s
  | .cmp e d src => Sys2Proof.Machine.execCmp e d src s
  | .maxS e d src => Sys2Proof.Machine.execMaxS e d src s
  | .minS e d src => Sys2Proof.Machine.execMinS e d src s
  | .limit e d src => Sys2Proof.Machine.execLimit e d src s
  | .getg e d src => Sys2Proof.Machine.execGetg e d src s
  | .putg e d src => Sys2Proof.Machine.execPutg e d src s
  | .andK e d src => Sys2Proof.Machine.execAndK e d src s
  | .orK e d src => Sys2Proof.Machine.execOrK e d src s
  | .xorK e d src => Sys2Proof.Machine.execXorK e d src s
  | .quot e d src => Sys2Proof.Machine.execQuot e d src s
  | .mLoad e bus reg ap mode disp => Sys2Proof.Machine.execMLoad e bus reg ap mode disp s
  | .mStore e bus reg ap mode disp => Sys2Proof.Machine.execMStore e bus reg ap mode disp s
  | .ldi16 e ty idx imm => Sys2Proof.Machine.execLdi16 e ty idx imm s
  | .ldi24 e reg imm => Sys2Proof.Machine.execLdi24 e reg imm s
  | .move e dst src => Sys2Proof.Machine.execMove e dst src s
  | .goto e cond target => Sys2Proof.Machine.execGoto e cond target s
  | .call e cond target => Sys2Proof.Machine.execCall e cond target s
  | .ret e cond => Sys2Proof.Machine.execRet e cond s
  | .rep e body count => Sys2Proof.Machine.execRep e body count s
  | .repn e body => Sys2Proof.Machine.execRepn e body s
  | .endTask e cond => Sys2Proof.Machine.execEndTask e cond s
  | .commit e => Sys2Proof.Machine.execCommit e s
  | .park e => Sys2Proof.Machine.execPark e s
  | .trap e cond code => Sys2Proof.Machine.execTrap e cond code s
  | .ssRecon e => Sys2Proof.Machine.execSsRecon e s
  | .clarkePark e => Sys2Proof.Machine.execClarkePark e s
  | .dqPi e => Sys2Proof.Machine.execDqPi e s
  | .ipark e => Sys2Proof.Machine.execIpark e s
  | .svmShift e => Sys2Proof.Machine.execSvmShift e s
  | .dtComp e => Sys2Proof.Machine.execDtComp e s
  | .observer e => Sys2Proof.Machine.execObserver e s
  | .plaus e => Sys2Proof.Machine.execPlaus e s
  | .focStd e => Sys2Proof.Machine.execFocStd e s
  | .focExpPrep e => Sys2Proof.Machine.execFocExpPrep e s
  | .focExpClose e => Sys2Proof.Machine.execFocExpClose e s
  | .speed e => Sys2Proof.Machine.execSpeed e s
  | .position e => Sys2Proof.Machine.execPosition e s
  | .camEval e => Sys2Proof.Machine.execCamEval e s
  | .pz2 e => Sys2Proof.Machine.execPz2 e s
  | .pz3 e => Sys2Proof.Machine.execPz3 e s
  | .fopdt e => Sys2Proof.Machine.execFopdt e s
  | .stepperV e => Sys2Proof.Machine.execStepperV e s
  | .sinCos e => Sys2Proof.Machine.execSinCos e s
  | .sqrtLaw e => Sys2Proof.Machine.execSqrtLaw e s
  | .recip e => Sys2Proof.Machine.execRecip e s
  | .atan2 e => Sys2Proof.Machine.execAtan2 e s
  | .leRun e => Sys2Proof.Machine.execLeRun e s
  | .leStep e => Sys2Proof.Machine.execLeStep e s
  | .leHalt e => Sys2Proof.Machine.execLeHalt e s
  | .schedEnSet t => Sys2Proof.Machine.execSchedEnSet t s
  | .schedFlagSet t soft => Sys2Proof.Machine.execSchedFlagSet t soft s
  | .axEnable n => Sys2Proof.Machine.execAxEnable n s
  | .axClr n => Sys2Proof.Machine.execAxClr n s
  | .clrBridge n => Sys2Proof.Machine.execClrBridge n s
  | .ctrlWrite n ctrl => Sys2Proof.Machine.execCtrlWrite n ctrl s
  | .motorDataDerive n reg w => Sys2Proof.Machine.execMotorDataDerive n reg w s
  | .ptStart n move spin cur => Sys2Proof.Machine.execPtStart n move spin cur s
  | .ptAbort n => Sys2Proof.Machine.execPtAbort n s
  | .ptApply n => Sys2Proof.Machine.execPtApply n s
  | .push n => Sys2Proof.Machine.execPush n s
  | .movePlanned n => Sys2Proof.Machine.execMovePlanned n s
  | .mvStop n => Sys2Proof.Machine.execMvStop n s
  | .qstop n => Sys2Proof.Machine.execQstop n s
  | .resume n => Sys2Proof.Machine.execResume n s
  | .flush n => Sys2Proof.Machine.execFlush n s
  | .axPosSet n lo hi => Sys2Proof.Machine.execAxPosSet n lo hi s
  | .vmRun v => Sys2Proof.Machine.execVmRun v s
  | .vmStop v => Sys2Proof.Machine.execVmStop v s
  | .vmQstop v => Sys2Proof.Machine.execVmQstop v s
  | .stopAt v => Sys2Proof.Machine.execStopAt v s
  | .vmSet v => Sys2Proof.Machine.execVmSet v s
  | .resync v => Sys2Proof.Machine.execResync v s
  | .masterPub v busy => Sys2Proof.Machine.execMasterPub v busy s
  | .masterPubReceive r => Sys2Proof.Machine.execMasterPubReceive r s
  | .vmLineLoss v => Sys2Proof.Machine.execVmLineLoss v s
  | .lineLost v => Sys2Proof.Machine.execLineLost v s
  | .axCamSel n seg atWrap => Sys2Proof.Machine.execAxCamSel n seg atWrap s
  | .engage n => Sys2Proof.Machine.execEngage n s
  | .disengage n => Sys2Proof.Machine.execDisengage n s
  | .camSegmentWrite seg word w => Sys2Proof.Machine.execCamSegmentWrite seg word w s
  | .encoderEdge k a b tick stable => Sys2Proof.Machine.execEncoderEdge k a b tick stable s
  | .zEdge k tick stable => Sys2Proof.Machine.execZEdge k tick stable s
  | .zArm k => Sys2Proof.Machine.execZArm k s
  | .clrCnt k => Sys2Proof.Machine.execClrCnt k s
  | .captureEdge k rising tick stable => Sys2Proof.Machine.execCaptureEdge k rising tick stable s
  | .capFifoPop k => Sys2Proof.Machine.execCapFifoPop k s
  | .plModeWrite ki mode => Sys2Proof.Machine.execPlModeWrite ki mode s
  | .plCommit ki => Sys2Proof.Machine.execPlCommit ki s
  | .tune ki => Sys2Proof.Machine.execTune ki s
  | .tuneAbort ki => Sys2Proof.Machine.execTuneAbort ki s
  | .plApply ki => Sys2Proof.Machine.execPlApply ki s
  | .plClr ki => Sys2Proof.Machine.execPlClr ki s
  | .plManWrite ki man => Sys2Proof.Machine.execPlManWrite ki man s
  | .mstPass => Sys2Proof.Machine.execMstPass s
  | .mstForce st => Sys2Proof.Machine.execMstForce st s
  | .mstNotifyRead => Sys2Proof.Machine.execMstNotifyRead s
  | .nodeConfigWrite station => Sys2Proof.Machine.execNodeConfigWrite station s
  | .nodeRawsw station pattern width => Sys2Proof.Machine.execNodeRawsw station pattern width s
  | .clrLock g => Sys2Proof.Machine.execClrLock g s
  | .clrLockTimeout g => Sys2Proof.Machine.execClrLockTimeout g s
  | .clrFail g => Sys2Proof.Machine.execClrFail g s
  | .islandPowerOn code => Sys2Proof.Machine.execIslandPowerOn code s
  | .paramTransfer sound => Sys2Proof.Machine.execParamTransfer sound s
  | .evaluationCycle x => Sys2Proof.Machine.execEvaluationCycle x s
  | .ss1Expiry n => Sys2Proof.Machine.execSs1Expiry n s
  | .inputDisc k => Sys2Proof.Machine.execInputDisc k s
  | .fsStop => Sys2Proof.Machine.execFsStop s
  | .testPulse slot samples => Sys2Proof.Machine.execTestPulse slot samples s
  | .safetyReset samples => Sys2Proof.Machine.execSafetyReset samples s
  | .keepaliveDrop n => Sys2Proof.Machine.execKeepaliveDrop n s
  | .islandRecord sound => Sys2Proof.Machine.execIslandRecord sound s
  | .earlyOff n => Sys2Proof.Machine.execEarlyOff n s
  | .islandWdChange tick => Sys2Proof.Machine.execIslandWdChange tick s
  | .islandLoss => Sys2Proof.Machine.execIslandLoss s
  | .heartbeatSend => Sys2Proof.Machine.execHeartbeatSend s
  | .heartbeatReceive r => Sys2Proof.Machine.execHeartbeatReceive r s
  | .hbtIn tick => Sys2Proof.Machine.execHbtIn tick s
  | .hbDueCheck => Sys2Proof.Machine.execHbDueCheck s
  | .listenEnd => Sys2Proof.Machine.execListenEnd s
  | .claimEnd => Sys2Proof.Machine.execClaimEnd s
  | .backoffEnd => Sys2Proof.Machine.execBackoffEnd s
  | .partnerLost => Sys2Proof.Machine.execPartnerLost s
  | .join station => Sys2Proof.Machine.execJoin station s
  | .mirrorSend typ index => Sys2Proof.Machine.execMirrorSend typ index s
  | .mirrorReceive r => Sys2Proof.Machine.execMirrorReceive r s
  | .handoff => Sys2Proof.Machine.execHandoff s
  | .acqSample pins => Sys2Proof.Machine.execAcqSample pins s
  | .recordClose tick => Sys2Proof.Machine.execRecordClose tick s
  | .arm => Sys2Proof.Machine.execArm s
  | .force => Sys2Proof.Machine.execForce s
  | .acqStop => Sys2Proof.Machine.execAcqStop s
  | .rd addr count => Sys2Proof.Machine.execRd addr count s
  | .rdf addr count => Sys2Proof.Machine.execRdf addr count s
  | .wr addr count words => Sys2Proof.Machine.execWr addr count words s
  | .wrf addr count words => Sys2Proof.Machine.execWrf addr count words s
  | .nrd station addr count => Sys2Proof.Machine.execNrd station addr count s
  | .nwr station addr count words => Sys2Proof.Machine.execNwr station addr count words s
  | .nex station addr count words => Sys2Proof.Machine.execNex station addr count words s
  | .fetch t => Sys2Proof.Machine.execFetch t s
  | .fetchr t => Sys2Proof.Machine.execFetchr t s
  | .rel t => Sys2Proof.Machine.execRel t s
  | .map => Sys2Proof.Machine.execMap s
  | .badOp => Sys2Proof.Machine.execBadOp s
  | .transactionAbort fetched => Sys2Proof.Machine.execTransactionAbort fetched s
  | .requestCommit readBack => Sys2Proof.Machine.execRequestCommit readBack s
  | .hostFlush => Sys2Proof.Machine.execHostFlush s
  | .engReq => Sys2Proof.Machine.execEngReq s
  | .engResp w => Sys2Proof.Machine.execEngResp w s
  | .engClose => Sys2Proof.Machine.execEngClose s
  | .engIdleClose => Sys2Proof.Machine.execEngIdleClose s
  | .challengeExpiry => Sys2Proof.Machine.execChallengeExpiry s
  | .scrubStep find => Sys2Proof.Machine.execScrubStep find s
  | .telemetry temp rails => Sys2Proof.Machine.execTelemetry temp rails s
  | .recalibration round => Sys2Proof.Machine.execRecalibration round s
  | .logRecordWrite fails => Sys2Proof.Machine.execLogRecordWrite fails s
  | .logCheckpoint => Sys2Proof.Machine.execLogCheckpoint s
  | .vddSafeLoss => Sys2Proof.Machine.execVddSafeLoss s
  | .testPortInstruction op balls scan => Sys2Proof.Machine.execTestPortInstruction op balls scan s
  | .engineerLockExpiry => Sys2Proof.Machine.execEngineerLockExpiry s
  | .flashOperationDone good => Sys2Proof.Machine.execFlashOperationDone good s

end Sys2Proof.Machine
end

