-- ==== Sys2Proof/WellFormed.lean ====
section
/-! DEFINITION. Well-formed commands: operands within the ranges that the spec's tables give them. -/

namespace Sys2Proof

/-- A local station of this head (R96): 1 to 254. -/
def stationInRange (n : Nat) : Bool := 1 ≤ n && n ≤ 254

/-- A task number (R205). -/
def taskInRange (n : Nat) : Bool := n < 1024

/-- A slot number in one byte (Table 05-1). -/
def slotInRange (n : Nat) : Bool := n < 256

/-- A request pair in a Recess (R123): its slot byte is 0xF0 + pair. -/
def pairInRange (n : Nat) : Bool := n < 16

/-- A frame's payload is at most 48 words (Table 05-2 and the Recess response); an invalid code group in it breaks R83. -/
def frameInRange (r : RxFrame) : Bool := decide (r.frame.payload.length ≤ 48) && (!r.broken || r.badGroup)

/-- What came of a frame that a loss of sync cut. -/
def cutInRange (f : Option Frame) : Bool := f.all (fun f => decide (f.payload.length ≤ 48))

/-- A request carries at most the 256 words after its header that a COUNT can stand for; those beyond its COUNT are ignored (R430, R435). -/
def wordsInRange (n : Nat) : Bool := n ≤ 256

/-- The moves of one P-class instruction load different registers (R186). -/
def movesDistinct (m : Moves) : Bool := decide ((m.x.toList ++ m.y.toList ++ m.c.toList).map (·.dst)).Nodup

/-- A displacement of class M fits its 11 bits, and is 0 unless the mode uses it (R189). -/
def dispInRange (mode : Fin 8) (d : Int) : Bool := decide (-1024 ≤ d ∧ d ≤ 1023) && (mode.val == 7 || d == 0)

/-- Register codes of MOVE (R190). -/
def codesDefined (dst src : Fin 64) : Bool := dst.val < 52 && src.val < 56

/-- The words read back from the key store: eight key words and KEY_ID. -/
def readBackInRange (r : Option (List Word)) : Bool := r.all (fun l => l.length == 9)

/-- An off-pulse of at most 1,000 µs holds at most 111 samples (R366, R372). -/
def samplesInRange (l : List SafeSample) : Bool := l.length ≤ 111

/-- A scrub find names a region of BKG_ECC_ADDR. -/
def regionInRange (f : ScrubFind) : Bool := f.region ≤ 6

/-- One reading per rail of Table 20-3. -/
def railsInRange (l : List Nat) : Bool := l.length == 5

/-- One result per ADC input and per lane (R450). -/
def roundInRange (c : CalRound) : Bool := c.adc.length == 8 && c.lanes.length == 10

/-- An image length that IMAGE_LEN can hold (Table 03-4). -/
def imageLength (n : Nat) : Bool := n % 16 == 0 && 512 ≤ n && n ≤ 0x800000

/-- A command is well formed. Operands whose type already bounds them need no check. -/
def wellFormed : Instr → Bool
  | .hostLoadStart len => imageLength len
  | .bootKeyProg _ rb | .requestCommit rb => readBackInRange rb
  | .llForward r | .frameRefused r | .reportReceive r | .recessResponse r | .rollcallAnswer r | .masterPubReceive r
  | .heartbeatReceive r | .mirrorReceive r => frameInRange r
  | .lineFollow a b => frameInRange a && frameInRange b
  | .syncLoss _ n f => decide (1 ≤ n) && cutInRange f
  | .signalLoss _ c => cutInRange c.inFrame
  | .recessRequest _ p _ | .recessResponseMissing _ p => pairInRange p
  | .slotDeparture _ k | .rxWindowClose _ k => slotInRange k
  | .motionDeadline t | .privEnqueue t => taskInRange t
  | .resyncStart n | .probationEnd n | .nodeRelease n | .nodeConfigWrite n | .nodeRawsw n _ _ | .join n => stationInRange n
  | .load _ mv | .prod _ _ _ _ mv | .pacc _ _ _ _ mv | .psub _ _ _ _ mv | .prod2 _ _ _ _ mv | .pacc2 _ _ _ _ mv
  | .pdif _ _ _ _ mv | .paccd _ _ _ _ mv | .ppair _ _ _ _ mv | .ppacc _ _ _ _ mv | .prodn _ _ _ _ mv | .paccn _ _ _ _ mv
  | .addk _ _ _ mv | .subk _ _ _ mv | .fmax _ _ _ _ mv | .fmin _ _ _ _ mv => movesDistinct mv
  | .mLoad _ _ _ _ mode d | .mStore _ _ _ _ mode d => dispInRange mode d
  | .move _ dst src => codesDefined dst src
  | .testPulse _ l => samplesInRange l
  | .wr _ _ ws | .wrf _ _ ws | .nwr _ _ _ ws | .nex _ _ _ ws => wordsInRange ws.length
  | .scrubStep f => regionInRange f
  | .telemetry _ rails => railsInRange rails
  | .recalibration c => roundInRange c
  | _ => true

end Sys2Proof
end

