-- ==== Sys2Proof/Safety.lean ====
section
/-! DEFINITION. What counts as a safe machine, in the terms the statements use: the canonical stores, the commands that may touch the
island, the head that serves its host. -/

namespace Sys2Proof.Machine

/-- The flash and the trim store are in canonical form. -/
def Store.wf (s : Store) : Bool := Tbl.wf erased s.flash && Tbl.wf zeroWord s.trim

/-- Commands that are steps of the island, hand it something, or take its record over (chapter 16). -/
def islandCommand : Instr → Bool
  | .islandPowerOn _ | .paramTransfer _ | .evaluationCycle _ | .ss1Expiry _ | .inputDisc _ | .fsStop | .testPulse _ _
  | .safetyReset _ | .keepaliveDrop _ | .islandRecord _ | .vddSafeLoss => true
  | _ => false

/-- Commands after which the head is in reset, whatever it did before (R34 to R36). -/
def resetCommand : Instr → Bool
  | .porstAssert _ | .mainRailLoss _ => true
  | _ => false

/-- Commands that program or erase the flash by themselves (R59, R80, R452). -/
def flashCommand : Instr → Bool
  | .logRecordWrite _ | .flashOperationDone _ => true
  | _ => false

/-- The head has left reset and asks for nothing beyond itself. -/
def State.runs (s : State) : Prop := s.inReset = false ∧ s.head.boot.want = 0

/-- The head runs and takes register writes in every block: no reload is accepted (R76), it is no Substitute (Table 17-6). -/
def State.serves (s : State) : Prop := s.runs ∧ s.head.boot.reload = .none ∧ s.head.substitute = false

/-- The machine after an accepted register write: the head as the write leaves it, the host told OK, the words noted for the partner. -/
def State.accepted (s : State) (h : Head) (ws : List (Nat × Word)) : State :=
  s.setHead ((h.mirrorWrites ws).accepted.setHost (fun p => { p with last := 0 }))

/-! ## A Loop Engine runs an instruction (chapter 08) -/

/-- The core cycles an instruction of `cost` cycles takes on engine `g`: its own, those of returning to the top of loops, its stall
(R193, R194). -/
def Engine.takes (g : Engine) (i : LInstr) (cost : Nat) : Nat := cost + (loopBack g (g.pc + 1) g.loops).2.2 + stallLE g.hazard i

/-- Engine `g` after an instruction whose effect on its registers and memories is `f` and that lets it go on behind it. -/
def Engine.after (g : Engine) (i : LInstr) (cost : Nat) (f : Engine → Engine) : Engine :=
  { f g with
    pc := (loopBack g (g.pc + 1) g.loops).1, loops := (loopBack g (g.pc + 1) g.loops).2.1, hazard := leavesLE i
    cycles := g.cycles + g.takes i cost }

/-- No word that instruction `i` reads on engine `g` holds an uncorrectable error (R202). -/
def Engine.readable (g : Engine) (i : LInstr) : Bool := !(wordsRead g i).any g.bad.contains

/-- Engine `e` runs, `i` reads no word with an uncorrectable error, and `n` more cycles stay below the engine's budget (R198, R202). -/
def State.engineFree (s : State) (e : Fin 16) (i : LInstr) (n : Nat) : Prop :=
  s.runs ∧ (s.head.engine e.val).mode = .running ∧ (s.head.engine e.val).readable i = true ∧
    ∀ b, (s.head.engine e.val).budget = some b → (s.head.engine e.val).cycles + n < b

/-- Engine `e` may run an instruction of `cost` cycles to its end. -/
def State.mayRun (s : State) (e : Fin 16) (i : LInstr) (cost : Nat) : Prop := s.engineFree e i ((s.head.engine e.val).takes i cost)

/-- The head once engine `e` has read the words of instruction `i`: the single-bit errors among them are corrected and counted in LE_ECC
(R203). -/
def State.fetched (s : State) (e : Fin 16) (i : LInstr) : Head := s.head.countEcc e.val (wordsRead (s.head.engine e.val) i)

/-- The machine after instruction `i` has made engine `e` become `g` in `n` core cycles; a word that it stored to is free of errors. -/
def State.engineRan (s : State) (e : Fin 16) (i : LInstr) (n : Nat) (g : Engine) : State :=
  s.setHead (((s.fetched e i).setEngine e.val (fun _ => g.mended (s.head.engine e.val) i)).spend e.val n)

/-- The machine after engine `e` has run an instruction with the effect `f`. -/
def State.ran (s : State) (e : Fin 16) (i : LInstr) (cost : Nat) (f : Engine → Engine) : State :=
  s.engineRan e i ((s.head.engine e.val).takes i cost) ((s.head.engine e.val).after i cost f)

/-- The three moves of a P-class instruction read their words and step their pointers inside the task's windows (R182, R186). -/
def State.movesReach (s : State) (e : Fin 16) (mv : Moves) (loads : List (Fin 8 × W24)) (steps : List (Fin 8 × BitVec 16)) : Prop :=
  movesDistinct mv = true ∧ ∃ x y c, moveSlot (s.head.engine e.val) (s.head.ports e.val) .x 0 1 mv.x = some x ∧
    moveSlot (s.head.engine e.val) (s.head.ports e.val) .y 2 3 mv.y = some y ∧
    moveSlot (s.head.engine e.val) (s.head.ports e.val) .c 4 5 mv.c = some c ∧
    loads = x.1 ++ y.1 ++ c.1 ∧ steps = x.2 ++ y.2 ++ c.2

/-- Engine `g` with `v` in SUMd, and the flags of `x` with O and T as `o` says (R191). -/
def Engine.sumFlags (g : Engine) (d : Fin 4) (v : BitVec 56) (o : Bool) : Engine :=
  { g with sum := g.sum.set d v, fl := flagWord g.fl v.toInt o o }

/-- Engine `g` with an exact sum in SUMd, saturated once (R177). -/
def Engine.takeSum (g : Engine) (d : Fin 4) (x : Int) : Engine := g.sumFlags d (sat56 x).1 (sat56 x).2

/-- Engine `g` with `w` in one of the 16 registers that a load can name: Ki, SUMnH with its sign and a clear L, SUMnL alone (R189). -/
def Engine.putCode16 (g : Engine) (reg : Fin 16) (w : W24) : Engine :=
  if h : reg.val < 8 then { g with k := g.k.set reg.val w }
  else if reg.val < 12 then { g with sum := g.sum.set (f4 reg.val) (fromH w) }
  else { g with sum := g.sum.set (f4 reg.val) (BitVec.append (g.sum[f4 reg.val].extractLsb' 24 32) w) }

/-- Engine `g` after a control instruction that goes on at `pc` with these calls and loops, `n` cycles later (R191, R192). -/
def Engine.jumped (g : Engine) (n pc : Nat) (calls : List Nat) (loops : List HwLoop) : Engine :=
  { g with pc := pc, calls := calls, loops := loops, hazard := noHazard, cycles := g.cycles + n }

/-! ## The island (chapter 16) -/

/-- The island holds a parameter set, or every output is off (R387). -/
def Island.quiet (i : Island) : Bool := i.param.isSome || i.outs.toList.all (fun o => !o.on && !o.ball)

end Sys2Proof.Machine
end

