-- ==== Sys2Proof/Certificates/Slice0/Obligations.lean ====
section
/-! DEFINITION. The statements for the provers: what the commands do, what every step keeps. Each docstring names the rules of spec/
it rests on; where a choice of the model stands behind a clause, the docstring names its log entry. -/

open Sys2Proof Sys2Proof.Machine

/-- For every command c and state s, a step with c at the front of the queue is exec of c on s with the rest of the queue; on an empty
queue one tick passes, or nothing in reset (the model's choice, log entry 1); exec of any command answers a next state and leaves the
queue alone. (01_architecture.md, R16.) -/
def Obligations.StepRunsTheFront : Prop :=
  (∀ (c : Instr) (rest : List Instr) (s : State), step { s with pending := c :: rest } = exec c { s with pending := rest }) ∧
    (∀ s : State, s.pending = [] → step s = .next (if s.inReset then s else { s with head := { s.head with now := s.head.now + 1 } })) ∧
    (∀ (c : Instr) (s : State), ∃ t, exec c s = .next t ∧ t.pending = s.pending)

/-- State.reset is in reset with RSTOUT_N low and an empty queue, shows POR as the cause to come, holds its stores in canonical form with
a blank key store, an unpowered island with every output off, sixteen idle engines, no Bell, and the register reset values the tables
give. The stores of a new part and the registers the spec gives no value for are the model's choice (log entries 3, 13). (R12, R35, R54,
R55, 02_package_pins_electrical.md, 03_startup_recipe.md.) -/
def Obligations.ResetState : Prop :=
  let s := State.reset
  s.pending = [] ∧ s.inReset = true ∧ s.stopped = false ∧ s.cause = 1 ∧ s.rstoutLow = true ∧ s.store.wf = true ∧
    s.store.key.locked = false ∧ s.store.key.fault = false ∧ s.island = .off ∧ s.island.quiet = true ∧ s.island.sfltLow = true ∧
    s.head.bell.running = false ∧ s.head.shadows = [] ∧ s.head.boot.want = 0 ∧
    (∀ e : Fin 16, (s.head.engine e.val).mode = .idle) ∧ (∀ t : Fin 256, (s.head.ticket t.val).state = 0) ∧
    s.head.fld SYS_ID_PART = 0x1280 ∧ s.head.fld SYS_ID_REV = 0xA1 ∧ s.head.sysState = 0 ∧ s.head.fld SAFE_STATUS_PARAM = 1 ∧
    s.head.fld SAFE_REQ_REQ = 0xAA ∧ s.head.on SAFE_CORE_ISLAND_LOSS = true ∧
    (∀ n : Fin 10, s.head.on (LANE_STAT_LOS n.val) = true ∧ s.head.laneState n.val = 0) ∧
    (∀ k : Fin 4, s.head.rd (ENC_STILL k.val) = 2000000) ∧ s.head.rd (AX_POS_KVFF 127) = 0x1000000

/-- Whatever the core is told, a command that is not one of the island's own steps and hands it nothing leaves the whole island as it was:
registers writes, resets of the core, loads, frames and Loop Engine instructions cannot switch a safe output. (R12, R35, R55, R444.) -/
def Obligations.IslandSeparation : Prop :=
  ∀ (c : Instr) (s t : State), islandCommand c = false → exec c s = .next t → t.island = s.island

/-- For every state in which the island holds a parameter set or has every output off, and every step that answers a next state, the
island again holds a set or has every output off. (R387, R376, R12.) -/
def Obligations.NoSetNoOutput : Prop :=
  ∀ s t : State, s.island.quiet = true → step s = .next t → t.island.quiet = true

/-- For every state whose flash and trim store are listed with strictly rising addresses and without entries equal to the erased value,
every step that answers a next state keeps that form. (R60, R77, 03_startup_recipe.md, 20_background_reportcard.md.) -/
def Obligations.StoresStayCanonical : Prop :=
  ∀ s t : State, s.store.wf = true → step s = .next t → t.store.wf = true

/-- A command that is neither FLASH_OPERATION_DONE nor LOG_RECORD_WRITE, and after which the head is in reset exactly when it was before,
leaves every byte of the flash as it was. (R34, R59, R80, R452.) -/
def Obligations.FlashChangesByTheseAlone : Prop :=
  ∀ (c : Instr) (s t : State), flashCommand c = false → resetCommand c = false → exec c s = .next t →
    t.inReset = s.inReset → t.store.flash = s.store.flash

/-- Once the key store is locked or its programming has failed, no step changes a bit of it; no step changes the unique ID of the part
(its value is the model's choice, log entry 29). (R65, R66, R79.) -/
def Obligations.OneTimeStoresStay : Prop :=
  ∀ s t : State, step s = .next t →
    (s.store.key.locked = true ∨ s.store.key.fault = true → t.store.key = s.store.key) ∧ t.store.uid = s.store.uid

/-- If no software reset, key programming or trim commit is asked when a step begins, none is left asked when it ends: each is done in the
step that asks for it. (R55, R66, R78.) -/
def Obligations.NothingStaysAsked : Prop :=
 ∀ s t : State, s.head.boot.want = 0 → step s = .next t → t.head.boot.want = 0

/-- A product is exactly twice the signed product of its operands and fits a sum register; 0x800000 squared is 0x00800000000000. PROD,
PACC, PSUB, PROD2, PACC2, PDIF, PACCD, ADDK, SUBK, PPAIR, PPACC, PRODN and PACCN form the exact sum of their terms, saturate it once, set
O and T when it saturates, and change nothing else but their moves, the pc and the cycle count. (stated: R176, R177.) -/
def Obligations.ProductsSumOnce : Prop :=
  (∀ a b : W24, product a b = 2 * (a.toInt * b.toInt) ∧ (BitVec.ofInt 56 (product a b)).toInt = product a b) ∧
  BitVec.ofInt 56 (product 0x800000#24 0x800000#24) = 0x00800000000000#56 ∧
  (∀ (g : Engine) (d : Fin 4) (x : Int),
    (g.takeSum d x).sum[d].toInt = max (-(2 ^ 55)) (min (2 ^ 55 - 1) x) ∧
      (x < -(2 ^ 55) ∨ 2 ^ 55 - 1 < x → (g.takeSum d x).fl.getLsbD 3 = true ∧ (g.takeSum d x).fl.getLsbD 4 = true)) ∧
  ∀ (s : State) (e : Fin 16) (d : Fin 4) (i j : Fin 8) (mv : Moves) (loads : List (Fin 8 × W24)) (steps : List (Fin 8 × BitVec 16)),
    s.movesReach e mv loads steps →
    let g := s.head.engine e.val
    let a : Int := product g.k[i] g.k[j]
    let b : Int := product g.k[pairK i] g.k[pairK j]
    let rm := g.rnd.getLsbD 0
    let gives (c : Instr) (op : POp) (j : Fin 8) (f : Engine → Engine) : Prop :=
      s.mayRun e (.p op d i j mv) 1 → exec c s = .next (s.ran e (.p op d i j mv) 1 (fun g => applyMoves (f g) loads steps))
    let one (x : Int) (g : Engine) : Engine := g.takeSum d x
    let two (x y : Int) (g : Engine) : Engine :=
      { g with
        sum := (g.sum.set d (sat56 x).1).set (pairSum d) (sat56 y).1
        fl := flagWord g.fl (sat56 x).1.toInt ((sat56 x).2 || (sat56 y).2) ((sat56 x).2 || (sat56 y).2) }
    let rounded (x : Int) (g : Engine) : Engine :=
      g.sumFlags d (round56 (sat56 x).1 rm).1 ((sat56 x).2 || (round56 (sat56 x).1 rm).2)
    gives (.prod e d i j mv) .prod j (one a) ∧ gives (.pacc e d i j mv) .pacc j (one (g.sum[d].toInt + a)) ∧
      gives (.psub e d i j mv) .psub j (one (g.sum[d].toInt - a)) ∧ gives (.prod2 e d i j mv) .prod2 j (one (a + b)) ∧
      gives (.pacc2 e d i j mv) .pacc2 j (one (g.sum[d].toInt + a + b)) ∧ gives (.pdif e d i j mv) .pdif j (one (a - b)) ∧
      gives (.paccd e d i j mv) .paccd j (one (g.sum[d].toInt + a - b)) ∧
      gives (.addk e d i mv) .addk 0 (one (g.sum[d].toInt + g.k[i].toInt * 2 ^ 24)) ∧
      gives (.subk e d i mv) .subk 0 (one (g.sum[d].toInt - g.k[i].toInt * 2 ^ 24)) ∧
      gives (.ppair e d i j mv) .ppair j (two a b) ∧
      gives (.ppacc e d i j mv) .ppacc j (two (g.sum[d].toInt + a) (g.sum[pairSum d].toInt + b)) ∧
      gives (.prodn e d i j mv) .prodn j (rounded a) ∧ gives (.paccn e d i j mv) .paccn j (rounded (g.sum[d].toInt + a))

/-- With q the sum without its low word L: RM 0 adds one unit of H when L is above 0x800000, or equals it and bit 24 is 1; RM 1 adds it
when L is 0x800000 or more; L is cleared and the result saturates; the flags come from the rounded value. ROUND, PRODN and PACCN do
exactly this to the saturated result of their operation. (stated: R179.) -/
def Obligations.RoundingFollowsItsMode : Prop :=
  (∀ x : BitVec 56, let q := x.toInt / 2 ^ 24; let l := x.toInt % 2 ^ 24;
    round56 x false = sat56 ((q + if 2 ^ 23 < l ∨ (l = 2 ^ 23 ∧ q % 2 = 1) then 1 else 0) * 2 ^ 24) ∧
      round56 x true = sat56 ((q + if 2 ^ 23 ≤ l then 1 else 0) * 2 ^ 24)) ∧
  ∀ (s : State) (e : Fin 16) (d : Fin 4) (i j : Fin 8) (mv : Moves) (loads : List (Fin 8 × W24)) (steps : List (Fin 8 × BitVec 16)),
    let g := s.head.engine e.val
    let a : Int := product g.k[i] g.k[j]
    let rounds (v : BitVec 56) (sat : Bool) (g : Engine) : Engine :=
      g.sumFlags d (round56 v (g.rnd.getLsbD 0)).1 (sat || (round56 v (g.rnd.getLsbD 0)).2)
    (s.mayRun e (.a .round d 0 0) 1 → exec (.round e d) s = .next (s.ran e (.a .round d 0 0) 1 (rounds g.sum[d] false))) ∧
      (s.movesReach e mv loads steps →
        (s.mayRun e (.p .prodn d i j mv) 1 → exec (.prodn e d i j mv) s =
          .next (s.ran e (.p .prodn d i j mv) 1 (fun g => applyMoves (rounds (sat56 a).1 (sat56 a).2 g) loads steps))) ∧
        (s.mayRun e (.p .paccn d i j mv) 1 → exec (.paccn e d i j mv) s =
          .next (s.ran e (.p .paccn d i j mv) 1 (fun g' => applyMoves
            (rounds (sat56 (g.sum[d].toInt + a)).1 (sat56 (g.sum[d].toInt + a)).2 g') loads steps))))

/-- LOAD only makes its moves. FMAX and FMIN compare v of Ki with the transfer of SUMd: when v is greater (smaller) SUMd takes v, FIDX
takes ITER and F is set; otherwise SUMd, FIDX and F stay. (R178, R186, R195.) -/
def Obligations.LoadsAndFindsRun : Prop :=
  ∀ (s : State) (e : Fin 16) (d : Fin 4) (i : Fin 8) (abs : Bool) (mv : Moves) (loads : List (Fin 8 × W24))
    (steps : List (Fin 8 × BitVec 16)), s.movesReach e mv loads steps →
    let g := s.head.engine e.val
    let j : Fin 8 := if abs then 1 else 0
    let gives (c : Instr) (op : POp) (d : Fin 4) (i j : Fin 8) (f : Engine → Engine) : Prop :=
      s.mayRun e (.p op d i j mv) 1 → exec c s = .next (s.ran e (.p op d i j mv) 1 (fun g => applyMoves (f g) loads steps))
    let t := transfer g.sum[d] (g.rnd.getLsbD 1)
    let v := findValue g.k[i] abs
    let found (g : Engine) : Engine :=
      { g with
        sum := g.sum.set d (fromH v), fl := withF (flagWord g.fl (fromH v).toInt false t.2), fidx := BitVec.ofNat 16 g.iter }
    let kept (g : Engine) : Engine := { g with fl := flagWord g.fl (g.sum[d].toInt) false t.2 }
    v.toInt = (if abs then ((min (2 ^ 23 - 1) g.k[i].toInt.natAbs : Nat) : Int) else g.k[i].toInt) ∧
      gives (.load e mv) .load 0 0 0 (fun g => g) ∧
      gives (.fmax e d i j mv) .fmax d i j (if t.1.toInt < v.toInt then found else kept) ∧
      gives (.fmin e d i j mv) .fmin d i j (if v.toInt < t.1.toInt then found else kept)

/-- ZERO, COPY, ADD, SUB, NEG, ABS, CLIP, ROUND, SHL, SHR, SHV and SCALE write SUMd and the flags as Table 08-8 says and change nothing
else but the pc and the cycle count; SCALE also puts its shift into Ki. (R177, R179, R188, R191.) -/
def Obligations.SumOperationsRun : Prop :=
  ∀ (s : State) (e : Fin 16) (d src : Fin 4) (k : Fin 8) (imm : Fin 56),
    let g := s.head.engine e.val
    let x : Int := g.sum[d].toInt
    let y : Int := g.sum[src].toInt
    let n : Int := max (-56) (min 56 g.k[k].toInt)
    let gives (c : Instr) (op : AOp) (k : Fin 8) (imm : Nat) (f : Engine → Engine) : Prop :=
      s.mayRun e (.a op d k imm) 1 → exec c s = .next (s.ran e (.a op d k imm) 1 f)
    gives (.zero e d) .zero 0 0 (fun g => g.sumFlags d 0 false) ∧
      gives (.copy e d src) .copy (f8 src.val) 0 (fun g => g.sumFlags d g.sum[src] false) ∧
      gives (.add e d src) .add (f8 src.val) 0 (fun g => g.takeSum d (x + y)) ∧
      gives (.sub e d src) .sub (f8 src.val) 0 (fun g => g.takeSum d (x - y)) ∧
      gives (.neg e d) .neg 0 0 (fun g => g.takeSum d (-x)) ∧
      gives (.absS e d) .abs 0 0 (fun g => g.takeSum d (x.natAbs : Int)) ∧
      gives (.clip e d) .clip 0 0 (fun g =>
        if x < -(2 ^ 47) then g.sumFlags d (BitVec.ofInt 56 (-(2 ^ 47))) true
        else if 2 ^ 47 ≤ x then g.sumFlags d (BitVec.ofInt 56 (2 ^ 47 - 1)) true
        else g.sumFlags d g.sum[d] false) ∧
      gives (.round e d) .round 0 0 (fun g =>
        g.sumFlags d (round56 g.sum[d] (g.rnd.getLsbD 0)).1 (round56 g.sum[d] (g.rnd.getLsbD 0)).2) ∧
      gives (.shl e d imm) .shl 0 imm.val (fun g => g.takeSum d (x * 2 ^ imm.val)) ∧
      gives (.shr e d imm) .shr 0 imm.val (fun g => g.sumFlags d (BitVec.ofInt 56 (x / 2 ^ imm.val)) false) ∧
      gives (.shv e d k) .shv k 0 (fun g =>
        if 0 ≤ n then g.takeSum d (x * 2 ^ n.toNat) else g.sumFlags d (BitVec.ofInt 56 (x / 2 ^ (-n).toNat)) false) ∧
      gives (.scale e d k) .scale k 0 (fun g =>
        { g.sumFlags d (shiftBy x (scaleShift x)).1 (shiftBy x (scaleShift x)).2 with
          k := g.k.set k (BitVec.ofInt 24 (scaleShift x)) })

/-- CMP, MAX, MIN, LIMIT, GETG, PUTG, AND, OR, XOR and QUOT (26 cycles) do what Table 08-8 says of SUMd, Ki and the flags, and nothing
else but the pc and the cycle count. (R188, R191, R193.) -/
def Obligations.ComparesAndLogicRun : Prop :=
  ∀ (s : State) (e : Fin 16) (d src : Fin 4) (k : Fin 8),
    let g := s.head.engine e.val
    let x : Int := g.sum[d].toInt
    let y : Int := g.sum[src].toInt
    let m : Int := max 0 g.k[k].toInt * 2 ^ 24
    let gives (c : Instr) (op : AOp) (k : Fin 8) (cost : Nat) (f : Engine → Engine) : Prop :=
      s.mayRun e (.a op d k 0) cost → exec c s = .next (s.ran e (.a op d k 0) cost f)
    gives (.cmp e d src) .cmp (f8 src.val) 1 (fun g => { g with fl := flagWord g.fl (x - y) false false }) ∧
      gives (.maxS e d src) .max (f8 src.val) 1 (fun g => g.sumFlags d (if x < y then g.sum[src] else g.sum[d]) false) ∧
      gives (.minS e d src) .min (f8 src.val) 1 (fun g => g.sumFlags d (if y < x then g.sum[src] else g.sum[d]) false) ∧
      gives (.limit e d k) .limit k 1 (fun g =>
        if m < x then g.sumFlags d (BitVec.ofInt 56 m) true
        else if x < -m then g.sumFlags d (BitVec.ofInt 56 (-m)) true
        else g.sumFlags d g.sum[d] false) ∧
      gives (.getg e d k) .getg k 1 (fun g => { g with k := g.k.set k ((g.sum[d].extractLsb' 48 8).signExtend 24) }) ∧
      gives (.putg e d k) .putg k 1 (fun g =>
        { g with sum := g.sum.set d (BitVec.append (g.k[k].extractLsb' 0 8) (g.sum[d].extractLsb' 0 48)) }) ∧
      gives (.andK e d k) .and k 1 (fun g => g.sumFlags d (fromH (sumH g.sum[d] &&& g.k[k])) false) ∧
      gives (.orK e d k) .or k 1 (fun g => g.sumFlags d (fromH (sumH g.sum[d] ||| g.k[k])) false) ∧
      gives (.xorK e d k) .xor k 1 (fun g => g.sumFlags d (fromH (sumH g.sum[d] ^^^ g.k[k])) false) ∧
      gives (.quot e d k) .quot k 26 (fun g =>
        g.sumFlags d (BitVec.ofInt 56 ((quotH x g.k[k]).1 * 2 ^ 24)) (quotH x g.k[k]).2)

/-- A load reads the word its address mode gives into its register, a store writes the register's transfer to that word; both step APn as
the mode says; a port access costs one cycle more. The stored address is computed by the function the meaning uses (modeAddr). (R178,
R180, R182, R184, R189, R193.) -/
def Obligations.LoadsAndStoresRun : Prop :=
  ∀ (s : State) (e : Fin 16) (bus : Bus) (reg : Fin 16) (p mode : Fin 8) (disp : Int),
    (mode.val ≠ 7 → disp = 0) →
    let g := s.head.engine e.val
    let pt := s.head.ports e.val
    let a := modeAddr g p mode.val disp
    let ap := match modeStep g p mode.val with
      | some m => g.ap.set p (g.stepped p m)
      | none => g.ap
    let cost : Nat := if bus = .x ∧ 0xE000 ≤ a ∧ a ≤ 0xE1FF then 2 else 1
    let v : W24 × Bool :=
      if h : reg.val < 8 then (g.k[reg.val], false)
      else if reg.val < 12 then transfer g.sum[f4 reg.val] (g.rnd.getLsbD 1) else (sumL g.sum[f4 reg.val], false)
    (∀ w, busRead g pt bus a = some w → s.mayRun e (.m false bus reg p mode disp) cost →
        exec (.mLoad e bus reg p mode disp) s =
          .next (s.ran e (.m false bus reg p mode disp) cost (fun g => { g.putCode16 reg w with ap := ap }))) ∧
      ∀ g', busWrite g pt bus a v.1 = some g' → s.mayRun e (.m true bus reg p mode disp) cost →
        exec (.mStore e bus reg p mode disp) s =
          .next (s.ran e (.m true bus reg p mode disp) cost (fun _ => { g' with fl := if v.2 then withT g.fl else g.fl, ap := ap }))

/-- LDI16 loads APn, AMn, BAn or LNn; LDI24 loads Ki, SUMnH or SUMnL; MOVE copies any readable code to any writable one, setting T when a
transfer clipped. (R178, R190.) -/
def Obligations.ImmediatesAndMovesRun : Prop :=
  ∀ (s : State) (e : Fin 16),
    let g := s.head.engine e.val
    (∀ (ty : Fin 4) (i : Fin 8) (imm : BitVec 16), s.mayRun e (.ldi16 ty i imm) 1 →
        exec (.ldi16 e ty i imm) s = .next (s.ran e (.ldi16 ty i imm) 1 (fun g =>
          match ty with
          | 0 => { g with ap := g.ap.set i imm }
          | 1 => { g with am := g.am.set i imm }
          | 2 => { g with ba := g.ba.set i imm }
          | 3 => { g with ln := g.ln.set i imm }))) ∧
      (∀ (reg : Fin 16) (imm : W24), s.mayRun e (.ldi24 reg imm) 1 →
        exec (.ldi24 e reg imm) s = .next (s.ran e (.ldi24 reg imm) 1 (fun g => g.putCode16 reg imm))) ∧
      ∀ (dst src : Fin 64) (w : W24) (clip : Bool) (g' : Engine),
        dst.val < 52 → g.readCode src = some (w, clip) → g.writeCode dst w = some g' → s.mayRun e (.move dst src) 1 →
        exec (.move e dst src) s = .next (s.ran e (.move dst src) 1 (fun _ =>
          { g' with fl := if clip ∧ dst.val ≠ 49 then withT g'.fl else g'.fl }))

/-- With their condition true, GOTO, CALL and RETURN go where they say in 3 cycles and keep the call and loop stacks in order; with it
false, these and END and TRAP take one cycle and do nothing; REP and REPN open a loop, and REPN with LCNT 0 skips it. (R191, R192, R193,
R194.) -/
def Obligations.JumpsAndLoopsRun : Prop :=
  ∀ (s : State) (e : Fin 16),
    let g := s.head.engine e.val
    let cost (cond : Fin 15) : Nat := 3 + b2n (decide (cond ≠ 0) && g.hazard.flags)
    let gives (c : Instr) (i : LInstr) (n : Nat) (g' : Engine) : Prop := s.engineFree e i n → exec c s = .next (s.engineRan e i n g')
    (∀ (cond : Fin 15) (target : Fin 4096), condHolds g.fl cond.val = some true →
        (∀ ls, gotoLoops g.calls.length target.val false g.loops = some ls →
          gives (.goto e cond target) (.ctl .goto cond.val target.val 0) (cost cond) (g.jumped (cost cond) target.val g.calls ls)) ∧
        (g.calls.length < 8 →
          gives (.call e cond target) (.ctl .call cond.val target.val 0) (cost cond)
            (g.jumped (cost cond) target.val ((g.pc + 1) :: g.calls) g.loops)) ∧
        (∀ r cs, g.calls = r :: cs → (∀ l ls, g.loops = l :: ls → l.level ≠ g.calls.length) →
          gives (.ret e cond) (.ctl .ret cond.val 0 0) (cost cond) (g.jumped (cost cond) r cs g.loops))) ∧
      (∀ (cond : Fin 15) (c : Instr) (i : LInstr), condHolds g.fl cond.val = some false →
        ((∃ t : Fin 4096, c = .goto e cond t ∧ i = .ctl .goto cond.val t.val 0) ∨
          (∃ t : Fin 4096, c = .call e cond t ∧ i = .ctl .call cond.val t.val 0) ∨
          (c = .ret e cond ∧ i = .ctl .ret cond.val 0 0) ∨ (c = .endTask e cond ∧ i = .ctl .endTask cond.val 0 0) ∨
          (∃ k : Fin 128, c = .trap e cond k ∧ i = .ctl .trap cond.val k.val 0)) →
        s.mayRun e i 1 → exec c s = .next (s.ran e i 1 id)) ∧
      ∀ (body : Fin 128), isControl (g.prog.get (fun _ => 0) (g.pc + 1 + body.val)) = false →
        let last := g.pc + 1 + body.val
        let opened (n count : Nat) : Engine :=
          { g.jumped n (g.pc + 1) g.calls (⟨g.pc + 1, last, count, 0, g.calls.length⟩ :: g.loops) with
            cache := if body.val < 32 then some (g.pc + 1, last) else g.cache }
        (∀ count : Fin 8192, count.val ≠ 0 → g.loops.length < 4 →
          gives (.rep e body count) (.ctl .rep 0 body.val count.val) 2 (opened 2 count.val)) ∧
        (g.lcnt ≠ 0 → g.loops.length < 4 → gives (.repn e body) (.ctl .repn 0 body.val 0) (2 + b2n g.hazard.lcnt) (opened (2 + b2n g.hazard.lcnt) g.lcnt.toNat)) ∧
        (g.lcnt = 0 → let r := loopBack g (last + 1) g.loops; let n := 3 + r.2.2 + b2n g.hazard.lcnt
          gives (.repn e body) (.ctl .repn 0 body.val 0) n (g.jumped n r.1 g.calls r.2.1))

/-- COMMIT hands the staging bank to the task's slot, PARK waits or passes a latched release on, END frees the engine and commits a dirty
bank, and an engine whose count would reach its budget stops with BUDGET and no effect of the instruction in progress. (R193, R197, R198.)
-/
def Obligations.CommitParkEndRun : Prop :=
  ∀ (s : State) (e : Fin 16),
    let g := s.head.engine e.val
    let t := g.tid
    (s.mayRun e (.ctl .park 0 0 0) 1 →
        exec (.park e) s = .next (s.ran e (.ctl .park 0 0 0) 1 (fun g =>
          if g.released then { g with released := false } else { g with mode := .parked, parkTick := s.head.now }))) ∧
      (∀ x : CmdSlot, s.mayRun e (.ctl .commit 0 0 0) 2 → g.bench = false → (s.head.task t).discard = false →
        s.head.taskState t ≠ 0 → s.head.expressTask t = false ∨ g.dirty = true → (s.head.taskCmd t).bind s.head.cmdSlot? = some x →
        s.head.loopsOf x.station = [] →
        exec (.commit e) s =
          .next (s.setHead ((((s.ran e (.ctl .commit 0 0 0) 2 (fun g => { g with dirty := false })).head).commitStation x.station g.stage).setTask t
            (fun y => { y with commits := (s.head.now :: y.commits).take 64 })))) ∧
      (∀ cond : Fin 15, let n := (if g.dirty then 2 else 1) + b2n (decide (cond ≠ 0) && g.hazard.flags)
        s.runs → g.mode = .running → g.readable (.ctl .endTask cond.val 0 0) = true → condHolds g.fl cond.val = some true →
          (∀ b, g.budget = some b → g.cycles + n ≤ b) →
        ∃ u, exec (.endTask e cond) s = .next u ∧ (u.head.engine e.val).mode = (if g.bench then .halted else .idle) ∧
          (g.bench = false → (u.head.engine e.val).dirty = false ∧
            ∀ x : CmdSlot, g.dirty = true → (s.head.task t).discard = false →
              s.head.taskState t ≠ 0 → (s.head.taskCmd t).bind s.head.cmdSlot? = some x → s.head.loopsOf x.station = [] →
              ∀ y ∈ s.head.cmdSlotsOf x.station, (u.head.slot (y.lane * 256 + y.slot)).payload = g.stage)) ∧
      (∀ b, s.runs → g.mode = .running → g.budget = some b →
        exec (.budgetFault e) s = .next (s.setHead ((s.head.spend e.val (b - g.cycles)).engineFault e.val 4)) ∧
        ∀ (c : Instr) (i : LInstr) (g' : Engine) (n : Nat), (∀ s', exec c s' = .next (s'.issue e i)) →
          g.readable i = true → instrStep g (s.head.ports e.val) i = .ok g' n .none → b ≤ g.cycles + n →
          exec c s = .next (s.setHead (((s.fetched e i).spend e.val (b - g.cycles)).engineFault e.val 4)))

/-- Whatever the instruction, a fault leaves every register, memory and pointer of the engine as it was, writes LE_FAULT with the code,
frees the engine, drops the staged words and fails the task; a fetch or an operand that does not read without an uncorrectable error is
such a fault with code 5, TRAP with its condition true one with code 0x80 + CODE. (R202, R220.) -/
def Obligations.FaultsHaveNoEffect : Prop :=
  ∀ (s : State) (e : Fin 16),
    let g := s.head.engine e.val
    let faulted (h : Head) (code : Nat) : Head :=
      let h := h.wr (LE_FAULT e.val) (code * 2 ^ 24 + g.tid % 1024 * 2 ^ 14 + g.pc % 0x2000)
      if g.bench then h.setEngine e.val (fun g => { g with mode := .faulted, dirty := false, mail := [] })
      else
        let h := (h.setEngine e.val (fun g => { g with mode := .idle, dirty := false, stage := [], mail := [] })).setTask g.tid
          (fun x => { x with discard := false })
        let h := (if h.taskState g.tid = 3 then h.setTaskState g.tid 1 else h).failTask g.tid 1 code
        if h.substitute then h else h.raise 0 5 0
    s.runs → g.mode = .running → (∀ b, g.budget = some b → g.cycles + 1 < b) →
    (∀ (c : Instr) (i : LInstr) (code : Nat), (∀ s', exec c s' = .next (s'.issue e i)) →
        (g.readable i = false → exec c s = .next (s.setHead (faulted (s.head.spend e.val 1) 5))) ∧
        (g.readable i = true → instrStep g (s.head.ports e.val) i = .fault code →
          exec c s = .next (s.setHead (faulted ((s.fetched e i).spend e.val 1) code)))) ∧
      (∀ (cond : Fin 15) (code : Fin 128), g.readable (.ctl .trap cond.val code.val 0) = true → condHolds g.fl cond.val = some true →
        exec (.trap e cond code) s =
          .next (s.setHead (faulted ((s.fetched e (.ctl .trap cond.val code.val 0)).spend e.val 1) (0x80 + code.val))))

/-- With free call and loop levels, its windows large enough and the budget allowing it, each LAW entry of Table 08-15 takes its cycles
and has the effect of its law. The layout of the context words and the open filters are the model's choice (log entries 30, 31). (R200,
R201, R228, R254, R261, R262, R275, R294, R323.) -/
def Obligations.LawCallsRunTheirLaw : Prop :=
  ∀ (s : State) (e : Fin 16),
    let g := s.head.engine e.val
    let unit (h : Head) (f : Head → Head) : Head := if g.axn < 128 then f h else h
    let loopRecord := inWindow g.xWin g.ap[0].toNat && inWindow g.xWin (g.ap[0].toNat + 95) && inWindow g.yWin g.ap[2].toNat &&
      inWindow g.yWin (g.ap[2].toNat + 15)
    let currentWindows := decide (128 ≤ g.xWin.2) && decide (64 ≤ g.yWin.2) && decide (32 ≤ g.cWin.2)
    let gives (c : Instr) (entry cycles : Nat) (windows : Bool) (f : Head → Head) : Prop :=
      windows = true → lawHurt entry g = false → g.calls.length ≤ 6 → g.loops.length ≤ 2 → s.mayRun e (.ctl .law 0 entry 0) cycles →
        exec c s = .next (s.setHead ((f (s.ran e (.ctl .law 0 entry 0) cycles id).head).setEngine e.val
          (fun g' => g'.clean (fun w => w.1 == 1 && (lawResults entry g).contains w.2))))
    gives (.ssRecon e) 0x00 38 currentWindows (fun h => h.currentLaw e.val false Machine.ssRecon) ∧
      gives (.clarkePark e) 0x01 12 currentWindows (fun h => h.currentLaw e.val false Machine.clarkePark) ∧
      gives (.dqPi e) 0x02 46 currentWindows (fun h => h.currentLaw e.val false (fun c => Machine.dqPi c.predicts c)) ∧
      gives (.ipark e) 0x03 10 currentWindows (fun h => h.currentLaw e.val false Machine.ipark) ∧
      gives (.svmShift e) 0x04 78 currentWindows (fun h => h.currentLaw e.val false (Machine.svmShift 0)) ∧
      gives (.dtComp e) 0x05 24 currentWindows (fun h => h.currentLaw e.val false Machine.dtComp) ∧
      gives (.observer e) 0x06 96 currentWindows (fun h => h.currentLaw e.val false Machine.observer) ∧
      gives (.plaus e) 0x07 22 currentWindows (fun h => h.currentLaw e.val false Machine.plaus) ∧
      gives (.focStd e) 0x08 350 currentWindows (fun h => (h.currentLaw e.val false Machine.focStd).afterFoc e.val false (h.ptStep g.axn)) ∧
      gives (.focExpPrep e) 0x09 318 currentWindows (fun h => (h.currentLaw e.val true Machine.focExpPrep).afterFoc e.val true (h.ptStep g.axn)) ∧
      gives (.focExpClose e) 0x0A 36 currentWindows (fun h => h.currentLaw e.val false
        (Machine.focExpClose (decide (g.axn < 128) && h.gatingFaults g.axn != 0))) ∧
      gives (.speed e) 0x0B 40 (decide (7 ≤ g.xWin.2)) (fun h => unit h (lawSpeed (h.divOf e.val) e.val)) ∧
      gives (.position e) 0x0C 56 (decide (7 ≤ g.xWin.2)) (fun h => unit h (lawPosition (h.divOf e.val) e.val)) ∧
      gives (.camEval e) 0x0D 64 (decide (7 ≤ g.xWin.2)) (fun h => unit h (Machine.camEval e.val)) ∧
      gives (.pz2 e) 0x0E 14 loopRecord (fun h => h.setEngine e.val (lawPz false)) ∧
      gives (.pz3 e) 0x0F 18 loopRecord (fun h => h.setEngine e.val (lawPz true)) ∧
      gives (.fopdt e) 0x10 30 loopRecord (fun h => h.setEngine e.val lawFopdt) ∧
      gives (.stepperV e) 0x11 90 (decide (63 ≤ g.xWin.2) && decide (48 ≤ g.yWin.2)) (fun h => h.lawStepper e.val)

/-- SQRT leaves the truncated exact root, RECIP the exact reciprocal truncated to the step of a sum register or the largest value with O
and T, SIN_COS and ATAN2 their exact results in their registers, in 30, 32, 9 and 40 cycles. (R200, R201, R458.) -/
def Obligations.HelperLawsAreExact : Prop :=
  ∀ (s : State) (e : Fin 16),
    let g := s.head.engine e.val
    let k0 : Int := g.k[0].toInt
    let gives (c : Instr) (entry cycles : Nat) (f : Engine → Engine) : Prop :=
      g.calls.length ≤ 6 → g.loops.length ≤ 2 → s.mayRun e (.ctl .law 0 entry 0) cycles →
        exec c s = .next (s.ran e (.ctl .law 0 entry 0) cycles f)
    (∀ r : Nat, (if k0 < 0 then r = 0 else (r : Int) * r ≤ k0 * 2 ^ 23 ∧ k0 * 2 ^ 23 < ((r : Int) + 1) * (r + 1)) →
        gives (.sqrtLaw e) 0x13 30 (fun g => { g with
          k := g.k.set 0 (BitVec.ofNat 24 r), fl := if k0 < 0 then withT g.fl else g.fl })) ∧
      (2 ^ 15 < k0 → gives (.recip e) 0x14 32 (fun g => { g with sum := g.sum.set 0 (BitVec.ofInt 56 (2 ^ 70 / k0)) })) ∧
      (k0 ≤ 2 ^ 15 → gives (.recip e) 0x14 32 (fun g => { g with
        sum := g.sum.set 0 0x7FFFFFFFFFFFFF#56, fl := g.fl ||| 0x18 })) ∧
      gives (.sinCos e) 0x12 9 (fun g => { g with
        k := (g.k.set 4 (w24 (Machine.sinCos g.k[0].toNat).1)).set 5 (w24 (Machine.sinCos g.k[0].toNat).2) }) ∧
      gives (.atan2 e) 0x15 40 (fun g => { g with k := g.k.set 0 (BitVec.ofNat 24 (atan2Q g.k[0].toInt g.k[1].toInt)) })

/-- Whatever a LAW call does, AP0, AP2, AP4, AP6, AP7, their AM, BA and LN registers and MODE keep their values and T is never cleared;
with fewer than 2 call levels or 2 loop levels free it faults with STACK before any effect. (stated: R200.) -/
def Obligations.LawsKeepTheirRegisters : Prop :=
  ∀ (s t : State) (e : Fin 16) (c : Instr),
    c ∈ [.ssRecon e, .clarkePark e, .dqPi e, .ipark e, .svmShift e, .dtComp e, .observer e, .plaus e, .focStd e, .focExpPrep e,
      .focExpClose e, .speed e, .position e, .camEval e, .pz2 e, .pz3 e, .fopdt e, .stepperV e, .sinCos e, .sqrtLaw e, .recip e,
      .atan2 e] → exec c s = .next t →
    let g := s.head.engine e.val
    let g' := t.head.engine e.val
    (∀ k ∈ [0, 2, 4, 6, 7], ∀ h : k < 8, g'.ap[k] = g.ap[k] ∧ g'.am[k] = g.am[k] ∧ g'.ba[k] = g.ba[k] ∧ g'.ln[k] = g.ln[k]) ∧
      g'.rnd = g.rnd ∧ (g.fl.getLsbD 4 = true → g'.fl.getLsbD 4 = true) ∧
      ∀ entry : Nat, exec c s = .next (s.issue e (.ctl .law 0 entry 0)) → s.runs → g.mode = .running →
        g.readable (.ctl .law 0 entry 0) = true → (∀ b, g.budget = some b → g.cycles + 1 < b) →
        6 < g.calls.length ∨ 2 < g.loops.length →
        t = s.setHead (((s.fetched e (.ctl .law 0 entry 0)).spend e.val 1).engineFault e.val 3)

/-- AX_ENABLE, AX_CLR, CLR_BRIDGE, CTRL_WRITE, PT_START, PT_ABORT and PT_APPLY, when the head accepts them, answer OK and leave exactly
their word waiting for the next Bell edge. (R6, R249, R251, R253, R272.) -/
def Obligations.AxisRequestsWaitForTheBell : Prop :=
  ∀ (s : State) (k : Fin 128), s.serves →
    let h := s.head
    let n := k.val
    let waits (c : Instr) (f : Fld) (v top : Nat) : Prop :=
      exec c s = .next (s.accepted (h.shadow f.addr (bits (h.fieldWord f v) top 0)) [(f.addr, BitVec.ofNat 32 (h.fieldWord f v))])
    let law := bits (h.pendingRd (AX_CTL n)) 3 2
    let lawFits (c : Nat) : Prop := h.ctrlAllowed n c = true ∧ (c = h.fld (AX_CTL_CTRL n) ∨ h.mstate n ≠ 1 ∧ h.mstate n ≠ 2)
    let enFits : Prop := bit (h.pendingRd (AX_CTL n)) 0 = true → h.mayEnable n = true
    let pt (v : Nat) : Head := h.shadow (AX_PT_CTL n) (v + b2n h.engineer * 2 ^ 15)
    let ptWord (f : Fld) : Nat := h.fieldWord f 1
    (lawFits law → h.mayEnable n = true → waits (.axEnable k) (AX_CTL_EN n) 1 5) ∧
      (lawFits law → bit (h.pendingRd (AX_CTL n)) 0 = false → waits (.axClr k) (AX_CTL_CLR n) 1 5) ∧
      (lawFits law → enFits → h.engineer = true → h.fld (AX_PT_STAT_RESULT n) = 2 → (h.axis n).pt.bridge = true →
        waits (.clrBridge k) (AX_CTL_CLR_BRIDGE n) 1 5) ∧
      (∀ c : Fin 4, lawFits c.val → enFits → waits (.ctrlWrite k c) (AX_CTL_CTRL n) c.val 5) ∧
      (∀ (move spin : Bool) (cur : BitVec 16), (h.axis n).pt.active = false →
        exec (.ptStart k move spin cur) s =
          .next (s.accepted (pt (1 + b2n move * 4 + b2n spin * 8 + cur.toNat * 65536))
            [(AX_PT_CTL n, BitVec.ofNat 32 (1 + b2n move * 4 + b2n spin * 8 + cur.toNat * 65536))])) ∧
      exec (.ptAbort k) s =
        .next (s.accepted (pt (ptWord (AX_PT_CTL_ABORT n))) [(AX_PT_CTL n, BitVec.ofNat 32 (ptWord (AX_PT_CTL_ABORT n)))]) ∧
      (h.fld (AX_PT_STAT_RESULT n) = 2 → exec (.ptApply k) s =
        .next (s.accepted (pt (ptWord (AX_PT_CTL_APPLY n))) [(AX_PT_CTL n, BitVec.ofNat 32 (ptWord (AX_PT_CTL_APPLY n)))]))

/-- Accepted move requests answer OK, clear REFUSE and wait for the next Bell edge; PUSH captures its entry at once, AX_POS_SET its
position (log entry 44). (R6, R7, R267, R270, R271, R273.) -/
def Obligations.MoveRequestsWaitForTheBell : Prop :=
  ∀ (s : State) (k : Fin 128), s.serves →
    let h := s.head
    let n := k.val
    let free := h.put (AX_MV_CTL_REFUSE n) 0
    let alone := free.setMot n (fun m => { m with pushed := [] })
    let waits (c : Instr) (h' : Head) (b : Nat) : Prop :=
      exec c s = .next (s.accepted (h'.shadow (AX_MV_CTL n) (2 ^ b)) [(AX_MV_CTL n, BitVec.ofNat 32 (2 ^ b))])
    (h.pushRefuse n = 0 → waits (.push k) (free.setMot n (fun m => { m with pushed := [h.stagedMove n] })) 0) ∧
      waits (.mvStop k) alone 1 ∧ waits (.qstop k) alone 2 ∧
      (h.resumeRefuse n = 0 → waits (.resume k) alone 3) ∧
      (h.flushRefuse n = 0 → waits (.flush k) alone 4) ∧
      (∀ lo hi : Word, h.mstate n ≠ 1 → h.mstate n ≠ 2 → h.fld (AX_CTL_CTRL n) ≠ 3 →
        sext 64 (pairOf lo.toNat hi.toNat) = sext 48 (pairOf lo.toNat hi.toNat) →
        (h.rd (AX_MODULO n) = 0 → h.rdInt (AX_POS_MIN n) * 65536 ≤ sext 64 (pairOf lo.toNat hi.toNat) ∧
          sext 64 (pairOf lo.toNat hi.toNat) ≤ h.rdInt (AX_POS_MAX n) * 65536) →
        exec (.axPosSet k lo hi) s =
          .next (s.accepted
            { ((h.setMot n (fun m => { m with posSet := some (sext 64 (pairOf lo.toNat hi.toNat)) })).shadow (AX_POS_SET_HI n)
                hi.toNat).shadow (AX_POS_SET_LO n) lo.toNat with
              holds := (h.holds.set (fun _ => none) (AX_POS_SET_LO n) (some lo)).set (fun _ => none) (AX_POS_SET_LO n) none }
            [(AX_POS_SET_LO n, lo), (AX_POS_SET_HI n, hi)]))

/-- Accepted requests of masters, encoders, clutches, cams and process loops answer OK, clear REFUSE where the register has one and wait
for the next Bell edge. An ENGAGE accepted while a STOP or QSTOP of its axis waits for that edge is dropped (Table 12-7). (R6, R283, R288,
R291, R295, R296, R302, R303, R313, R314, R316, R318.) -/
def Obligations.MasterClutchLoopRequestsWait : Prop :=
  (∀ (s : State), s.serves →
    let h := s.head
    (∀ k : Fin 8, let v := k.val
      let set := sext 64 (pairOf (h.pendingRd (VM_SET_LO v)) (h.pendingRd (VM_SET_HI v)))
      let waits (c : Instr) (b : Nat) : Prop :=
        exec c s = .next (s.accepted ((h.put (VM_CTL_REFUSE v) 0).shadow (VM_CTL v) (2 ^ b)) [(VM_CTL v, BitVec.ofNat 32 (2 ^ b))])
      (h.fld (VM_CFG_SRC v) = 0 → waits (.vmRun k) 0 ∧ waits (.vmStop k) 1 ∧ waits (.vmQstop k) 2) ∧
        (h.fld (VM_CFG_SRC v) = 0 → h.pendingRd (VM_STOP_POS v) < h.pendingRd (VM_MCYC v) → waits (.stopAt k) 3) ∧
        ((h.vm v).v = 0 → h.followersOf v = 0 → 0 ≤ set →
            set < (h.pendingRd (VM_MCYC v) * 65536 : Nat) →
          waits (.vmSet k) 4) ∧
        (h.followersOf v = 0 → h.on (VM_STAT_LINE_OK v) = true → waits (.resync k) 5)) ∧
      (∀ k : Fin 4, exec (.zArm k) s = .next (s.accepted (h.shadow (ENC_CTL k.val) 1) [(ENC_CTL k.val, 1)]) ∧
        (h.encFollowed k.val = false →
          exec (.clrCnt k) s = .next (s.accepted (h.shadow (ENC_CTL k.val) 2) [(ENC_CTL k.val, 2)]))) ∧
      ∀ k : Fin 128, let n := k.val
        let asked (c : Instr) (w : Nat) : Prop :=
          exec c s = .next (s.accepted (((h.put (AX_CLU_CTL_REFUSE n) 0).shadow (AX_CLU_CTL n) w).setFol n (fun f =>
            { f with reqStamp := h.now, trigger := none })) [(AX_CLU_CTL n, BitVec.ofNat 32 w)])
        (h.clutchRefuse n 1 = 0 → h.stopWaits n = false → asked (.engage k) 1) ∧
        (h.clutchRefuse n 1 = 0 → h.stopWaits n = true →
          exec (.engage k) s = .next (s.accepted (h.put (AX_CLU_CTL_REFUSE n) 0) [(AX_CLU_CTL n, 1)])) ∧
        (h.clutchRefuse n 2 = 0 → asked (.disengage k) 2) ∧
          ∀ (seg : BitVec 14) (atWrap : Bool), atWrap = true ∨ h.fld (AX_FOL_STAT_CLU n) = 0 → h.checkCam seg.toNat = 0 →
            let sound := h.put (AX_FOL_STAT_CAM_REFUSE n) 0
            exec (.axCamSel k seg atWrap) s =
              .next (s.accepted (if atWrap then (sound.setFol n (fun f => { f with pendCam := some seg.toNat })).put (AX_FOL_STAT_PEND n) 1
                  else sound.setFol n (fun f => { f with camAtEdge := some seg.toNat }))
                [(AX_CAM_SEL n, BitVec.ofNat 32 (seg.toNat + b2n atWrap * 65536))])) ∧
  (∀ (s : State) (k : Fin 32), s.serves →
    let h := s.head
    let i := k.val
    let asked (c : Instr) (b : Nat) : Prop :=
      exec c s = .next (s.accepted ((h.put (PL_CMD_REFUSE i) 0).shadow (PL_CMD i) (2 ^ b)) [(PL_CMD i, BitVec.ofNat 32 (2 ^ b))])
    (h.plMode i = 4 → asked (.plClr k) 0) ∧ asked (.plCommit k) 1 ∧ (h.tuneRefuse i = 0 → asked (.tune k) 2) ∧
      asked (.tuneAbort k) 3 ∧ ((h.loop i).fit.isSome = true → (h.applySet i).isSome = true → asked (.plApply k) 4) ∧
      (∀ mode : Fin 8, mode.val ≤ 2 → h.plMode i ≠ 4 ∨ mode = 0 →
        exec (.plModeWrite k mode) s = .next (s.accepted (h.shadow (PL_MODE i) mode.val) [(PL_MODE i, BitVec.ofNat 32 mode.val)])) ∧
      ∀ man : BitVec 16, h.plMode i ≤ 1 →
        exec (.plManWrite k man) s =
          .next (s.accepted (h.shadow (PL_MAN i) (man.toNat * 65536)) [(PL_MAN i, BitVec.ofNat 32 (man.toNat * 65536))]))

/-- Motor data, cam words, CLR_LOCK, CLR_FAIL, NODE_CTL.RELEASE, NODE_RC_CTL.FULL and NODE_RAWSW act at their commit: what each leaves in
the head is stated whole. (R150, R153, R239, R291, R352, R356, R359, R439.) -/
def Obligations.CommandsThatActAtOnce : Prop :=
  ∀ s : State, s.serves →
    let h := s.head
    (∀ (k : Fin 128) (reg : Fin 5) (w : Word), let a := AX_RS k.val + 4 * reg.val
      h.motorRange k.val a w.toNat = true → exec (.motorDataDerive k reg w) s =
        .next (s.accepted (h.setAxis k.val (fun x => { x with
          motorData := (x.motorData.filter (fun e => e.1 ≠ a)) ++ [(a, w)], deriving_ := true })) [(a, w)])) ∧
      (∀ (seg : BitVec 14) (word : Fin 8) (w : Word), h.segInUse seg.toNat = false →
        let a := 0x200000 + 32 * seg.toNat + 4 * word.val
        exec (.camSegmentWrite seg word w) s =
          .next (s.accepted { h with cams := h.cams.set zeroWord (8 * seg.toNat + word.val) w, ecc := h.ecc.erase a } [(a, w)])) ∧
      (∀ g : Fin 16, h.engineer = true → h.clrLockRefuse g.val = 0 → exec (.clrLock g) s =
        .next (s.accepted ((h.put (DCB_CTL_REFUSE g.val) 0).setGroup g.val (fun x => { x with clrPending := true })) [(DCB_CTL g.val, 2)])) ∧
      (∀ g : Fin 16, exec (.clrFail g) s =
        .next (s.accepted (h.setGroup g.val (fun x => { x with failClr := true })) [(DCB_CTL g.val, 1)])) ∧
      (∀ n : Nat, 1 ≤ n → n ≤ 254 → h.fld (NODE_STAT_STATE n) = 4 → exec (.nodeRelease n) s =
        .next (s.accepted (((h.setNode n (fun x => { x with failedProb := 0 })).put (NODE_STAT_STATE n) 2).resyncEchoes n false)
          [(NODE_CTL n, 1)])) ∧
      (h.changeRefuse h.coSafe = 0 → h.bell.running = true → exec .nodeRcFull s =
        .next (s.accepted ((h.put NODE_RC_CTL_REFUSE 0).setRc (fun x => { x with requested := true })) [(NODE_RC_CTL, 1)])) ∧
      ∀ (n : Nat) (pattern : BitVec 6) (width : BitVec 16), 1 ≤ n → n ≤ 254 → h.engineer = true →
        (∀ leg : Fin 3, ¬(pattern.getLsbD (2 * leg.val) = true ∧ pattern.getLsbD (2 * leg.val + 1) = true)) →
        h.rawswReady n = true → 1 ≤ width.toNat → width.toNat ≤ 20000 → width.toNat + 1 ≤ h.bellTicks →
        exec (.nodeRawsw n pattern width) s =
          .next (s.accepted (((h.wr (NODE_RAWSW n) (width.toNat * 65536 + 256 + pattern.toNat)).setNode n (fun x =>
              { x with rawsw := 0 })).queueTxn .rawsw n 3 0 0x60 1 [BitVec.ofNat 32 (width.toNat * 65536 + pattern.toNat)])
            [(NODE_RAWSW n, BitVec.ofNat 32 (width.toNat * 65536 + pattern.toNat))])

/-- BOOT_RELEASE, the host load words, BOOT_RELOAD, the directory update and flash erase, program and read begin what they ask for when
the head accepts them. (R59, R60, R70, R72, R73, R74, R80.) -/
def Obligations.LoadAndFlashRequestsRun : Prop :=
  ∀ s : State, s.serves →
    let h := s.head
    let gives (c : Instr) (h' : Head) (ws : List (Nat × Word)) : Prop := exec c s = .next (s.accepted h' ws)
    let tells (h' : Head) (f : Boot → Boot) : Head := h'.setBoot f
    (h.sysState = 2 → gives .bootRelease h.startNetwork [(BOOT_RELEASE, 1)]) ∧
      (∀ len : Nat, len % 16 = 0 → 512 ≤ len → len ≤ 0x800000 → h.fld SYS_STRAP_BOOT_MODE = 2 →
        gives (.hostLoadStart len) (tells (h.put BOOT_HL_CTL_LEN len) (fun b => { b with hl := some ⟨len, [], h.now⟩, hostImage := none }))
          [(BOOT_HL_CTL, BitVec.ofNat 32 (2 ^ 31 + len))]) ∧
      (h.boot.hl.isSome = true ∨ h.boot.hostImage.isSome = true →
        gives .hostLoadAbort h.hostLoadFail [(BOOT_HL_CTL, BitVec.ofNat 32 (h.fieldWord BOOT_HL_CTL_ABORT 1))]) ∧
      (∀ (w : Word) (l : HostLoad), h.boot.hl = some l →
        gives (.bootHlData w) (if l.len ≤ 4 * (l.words.length + 1) then
            tells h (fun b => { b with hl := none, hostImage := some (w :: l.words).reverse })
          else tells h (fun b => { b with hl := some ⟨l.len, w :: l.words, h.now⟩ })) [(BOOT_HL_DATA, w)]) ∧
      (∀ slot : Fin 16,
        let asked := tells (h.put BOOT_RELOAD_REFUSE 0) (fun b => { b with reload := .accepted slot.val (h.fld BOOT_STATUS_SLOT) })
        let told := if h.activePair then asked.setRed (fun r => { r with reloadOut := some (slot.val, h.bellNo) }) else asked
        let taken := (told.put BOOT_RELOAD_SLOT slot.val).put BOOT_RELOAD_BUSY 1
        (h.sysState = 6 → gives (.bootReloadReq slot) taken [(BOOT_RELOAD, BitVec.ofNat 32 (slot.val + 256))]) ∧
          (h.sysState ≠ 6 → h.changeRefuse h.coSafe = 0 →
            gives (.bootReloadReq slot) ((taken.acqHalt.put MST_STAT_RUN 0).put SYS_STATUS_STATE 5)
              [(BOOT_RELOAD, BitVec.ofNat 32 (slot.val + 256))])) ∧
      (∀ (sel : Fin 16) (fb : Fin 256) (d : Directory), fb.val ≤ 15 ∨ fb.val = 255 → h.boot.dir = some d → h.boot.dirOp = none →
        let n : Directory := { d with copyB := !d.copyB, seq := (d.seq + 1) % 2 ^ 32, selSlot := sel.val, fallback := fb.val }
        gives (.bootSlotUpdate sel fb) ((tells ((h.put BOOT_SLOT_SEL sel.val).put BOOT_SLOT_FALLBACK fb.val) (fun b =>
            { b with dirOp := some (.directory n.copyB n.bytes) })).put BOOT_SLOT_UPDATE 1)
          [(BOOT_SLOT, BitVec.ofNat 32 (sel.val + fb.val * 256 + 65536))]) ∧
      ∀ addr : Word, h.boot.flop = none →
        let h1 := h.wr BOOT_FLOP_ADDR addr.toNat
        let page := (List.range 64).map (fun k => BitVec.ofNat 32 (h.rd (BOOT_FLOP_DATA k)))
        let begins (c : Instr) (x : FlashOp) (op : Word) : Prop :=
          gives c ((tells h1 (fun b => { b with flop := some x })).put BOOT_FLOP_RESULT 1) [(BOOT_FLOP_ADDR, addr), (BOOT_FLOP, op)]
        (addr.toNat % 4096 = 0 → h.serviceState = true ∨ h.flashProtected addr.toNat 4096 = false →
            begins (.flashErase addr) (.erase addr.toNat) 1) ∧
          (addr.toNat % 256 = 0 → h.serviceState = true ∨ h.flashProtected addr.toNat 256 = false →
            begins (.flashProgram addr) (.program addr.toNat page) 2) ∧
          (addr.toNat % 256 = 0 → begins (.flashRead addr) (.read addr.toNat) 3)

/-- In the Engineer view SYS_SWRST with 0xA5C3 resets the head (any other word does nothing), a trim commit and key programming act in one
step, RUN, STEP and HALT work the bench engine, MST_FORCE and RED_CTL.HANDOFF are taken. (R55, R66, R78, R204, R335, R412, R444.) -/
def Obligations.EngineerOnlyRequestsRun : Prop :=
  ∀ s : State, s.serves → s.head.engineer = true →
    let h := s.head
    exec (.sysSwrst 0xA5C3) s = .next (s.enterReset 4) ∧
      (∀ w : Word, w ≠ 0xA5C3 → exec (.sysSwrst w) s = .next (s.accepted h [(SYS_SWRST, w)])) ∧
      (let stage (k : Nat) : Nat := (h.boot.trimStage.get zeroWord k).toNat
        let w := h.fieldWord SYS_TRIM_CTL_COMMIT 1
        h.sysState = 7 → stage 2 = h.rd SYS_UID_LO → stage 3 = h.rd SYS_UID_HI → h.fld SYS_TRIM_STAT_COUNT < 1000 →
        exec .trimCommit s = .next (if trimPlausible stage
          then (s.accepted (h.put SYS_TRIM_CTL_VIEW (bits w 0 0)) [(SYS_TRIM_CTL, BitVec.ofNat 32 w)]).commitTrim
          else s.setHead (((h.put SYS_TRIM_STAT_REFUSE 1).bump HOST_CNT_REFUSED).setHost (fun p => { p with last := 7 })))) ∧
      (∀ readBack : Option (List Word), h.sysState = 7 → h.boot.keyTried = false → h.on SYS_STATUS_KEY_BLANK = true →
        h.on SYS_STATUS_KEY_FAULT = false → (∀ k < 9, (h.boot.keyData.get (fun _ => none) k).isSome = true) →
        exec (.bootKeyProg 0x5A3C readBack) s =
          .next ((s.accepted (h.setBoot (fun b => { b with keyTried := true })) [(BOOT_KEY_PROG, 0x5A3C)]).programKey readBack)) ∧
      (∀ e : Fin 16, h.benchOpen = true →
        let halt := bit (h.pendingRd (LE_CTL e.val)) 0
        let word (f : Fld) : List (Nat × Word) := [(LE_CTL e.val, BitVec.ofNat 32 (h.fieldWord f 1))]
        exec (.leRun e) s = .next (s.accepted ((h.benchHalt e.val halt).benchRun e.val) (word (LE_CTL_RUN e.val))) ∧
          exec (.leStep e) s = .next (s.accepted ((h.benchHalt e.val halt).benchStep e.val) (word (LE_CTL_STEP e.val))) ∧
          exec (.leHalt e) s = .next (s.accepted (h.benchHalt e.val true) (word (LE_CTL_HALT e.val)))) ∧
      (∀ st : Fin 64, bit (h.rd (MST_STATES (2 * st.val))) 31 = true →
        exec (.mstForce st) s =
          .next (s.accepted { h with mst := { h.mst with force := some st.val } } [(MST_FORCE, BitVec.ofNat 32 (64 + st.val))])) ∧
      (h.activePair = true → h.partnerState = 5 → exec .handoff s =
        .next (s.accepted ((h.setRed (fun r => { r with handoffBell := some (bellAfter h.bellNo 1) })).redEvent 7) [(RED_CTL, 1)]))

/-- TRG_ARM and SCHED_FLAG_SET act in the tick of their commit, LINE_TIME_SET, MT_ADDEND_WRITE and SCHED_EN_SET wait for the next Bell
edge (Line Time acts at once while no Bell runs); a late trigger is noted as late; the upper word of a pair brings its held lower word.
(R7, R156, R163, R171, R173, R207, R221.) -/
def Obligations.TimeAndSchedulerWritesRun : Prop :=
  (∀ s : State, s.serves →
    let h := s.head
    let held (h' : Head) (a : Nat) (w : Word) : Head :=
      { h' with holds := (h.holds.set (fun _ => none) a (some w)).set (fun _ => none) a none }
    (∀ (k : Fin 4) (ns sec : Word), bits ns.toNat 31 2 < 10 ^ 9 → ns.toNat % 4 ≤ 1 →
        let x := sec.toNat * 10 ^ 9 + bits ns.toNat 31 2
        exec (.trgArm k ns sec) s = .next (s.accepted
          (held (((h.wr (TIME_TRG_NS k.val) ns.toNat).wr (TIME_TRG_SEC k.val) sec.toNat).setTrg k.val (fun t =>
            { t with armed := true, late := decide (x * 2 ^ 32 ≤ (h.domainScale (ns.toNat % 4)).at h.now), domain := ns.toNat % 4, time := x }))
            (TIME_TRG_NS k.val) ns)
          [(TIME_TRG_NS k.val, ns), (TIME_TRG_SEC k.val, sec)])) ∧
      (∀ ns sec : Word, bits ns.toNat 31 2 < 10 ^ 9 → ns.toNat % 4 = 1 →
        exec (.lineTimeSet (.time ns sec)) s = .next (s.accepted
          (held (if h.bell.running then (h.shadow TIME_LT_NS ns.toNat).shadow TIME_LT_SEC sec.toNat else h.setLine h.now ns.toNat sec.toNat)
            TIME_LT_NS ns)
          [(TIME_LT_NS, ns), (TIME_LT_SEC, sec)])) ∧
      (∀ f : Word, f.toInt.natAbs ≤ 10737418 →
        exec (.lineTimeSet (.addend f)) s = .next (s.accepted
          (if h.bell.running then h.shadow TIME_LT_ADDEND f.toNat
            else { h with time := { h.time with lt := h.time.lt.setF h.now f.toInt } }.wr TIME_LT_ADDEND f.toNat)
          [(TIME_LT_ADDEND, f)])) ∧
      ∀ f : Word, h.fld TIME_MT_CTL_REF_MODE = 2 → f.toInt.natAbs ≤ 10737418 → f.toInt.natAbs * 2 ^ 32 ≤ 5 * h.rLim →
        exec (.mtAddendWrite f) s = .next (s.accepted (h.shadow TIME_MT_ADDEND f.toNat) [(TIME_MT_ADDEND, f)])) ∧
  (∀ (s : State) (t : Fin 1024), s.serves → t.val < 960 →
    let h := s.head
    (h.recipeTasks.contains t.val = true → h.taskEnabled t.val = false →
        (∀ n, h.taskNode t.val = some n → h.fld (NODE_STAT_STATE n) ∉ [2, 3, 4, 5]) →
        (h.taskAxis t.val < 128 → h.enabled (h.taskAxis t.val) = false) →
        exec (.schedEnSet t) s =
          .next (s.accepted (h.shadow SCHED_EN_SET t.val) [(SCHED_EN_SET, BitVec.ofNat 32 t.val)])) ∧
      (h.recipeTasks.contains t.val = true → h.taskEnabled t.val = true →
        exec (.schedEnSet t) s =
          .next (s.accepted (h.shadow SCHED_EN_SET t.val) [(SCHED_EN_SET, BitVec.ofNat 32 t.val)])) ∧
      ∀ soft : Byte, exec (.schedFlagSet t soft) s =
        .next (s.accepted (((List.range 8).filter (fun k => bit soft.toNat k)).foldl (fun h k => h.setFlag t.val (8 + k)) h)
          [(SCHED_FLAG_SET, BitVec.ofNat 32 (soft.toNat * 65536 + t.val))]))

/-- ARM, FORCE and STOP act by the state of the acquisition engine; FLUSH releases the host's completed tickets; ENG_REQ with SVC_EN high
draws a challenge (a free value, log entry 5), the right response within 1 s opens the view, a wrong one counts and the third locks, CLOSE
closes it. (R423, R424, R434, R441, R442, R443.) -/
def Obligations.AcquisitionAndHostRequestsRun : Prop :=
  ∀ s : State, s.serves →
    let h := s.head
    let gives (c : Instr) (a : Nat) (w : Word) (h' : Head) : Prop := exec c s = .next (s.accepted h' [(a, w)])
    (h.armRefuse = 0 → gives .arm ACQ_CTL 1
        ((h.put ACQ_CTL_REFUSE 0).setAcq (fun q => { q with armPending := true, force := false, events := [] }))) ∧
      (h.acqState = 1 →
        gives .force ACQ_CTL 4 (h.setAcq (fun q => { q with force := true })) ∧
          gives .acqStop ACQ_CTL 2 ((h.setAcq (fun q =>
            { q with noTrig := true, trigStamp := 3, force := false })).acqClose.setAcqState 4)) ∧
      (h.acqState = 2 → gives .acqStop ACQ_CTL 2 ((h.setAcq (fun q => { q with trunc := true })).acqClose.setAcqState 4)) ∧
      (h.acqState = 3 → gives .force ACQ_CTL 4 (h.bump ACQ_MISSED) ∧
        gives .acqStop ACQ_CTL 2 (h.setAcq (fun q => { q with thenDone := true }))) ∧
      gives .hostFlush HOST_CTL 1 ((h.heldTickets.filter (fun t => 3 ≤ (h.ticket t).state)).foldl (fun h t => h.freeTicket t) h) ∧
      (h.reqLocked = false → h.pins.svcEn = true →
        gives .engReq HOST_ENG_CTL 1
          { ((h.draw.wr HOST_ENG_CHAL (Config.freeChallenge h.draws).toNat).put HOST_ENG_STAT_CHAL_OPEN 1) with
            host := { h.host with chalTick := some h.now } }) ∧
      (h.on SYS_STATUS_ENG_OPEN = true →
        gives .engClose HOST_ENG_CTL 2 ((h.put SYS_STATUS_ENG_OPEN 0).put SYS_TRIM_CTL_VIEW 0)) ∧
      ∀ (w : Word) (t : Nat), h.host.chalTick = some t → h.pins.svcEn = true →
        let chal := leBytes 4 (h.rd HOST_ENG_CHAL) ++ leBytes 4 (h.rd SYS_UID_LO)
        let answer := leWord ((hmacSha256 s.key chal).take 4)
        let closed : Head := { ((h.wr HOST_ENG_CHAL 0).put HOST_ENG_STAT_CHAL_OPEN 0) with host := { h.host with chalTick := none } }
        let fails := min 3 (h.fld HOST_ENG_STAT_FAILS + 1)
        (w.toNat = answer → h.now ≤ t + 200000000 →
          gives (.engResp w) HOST_ENG_RESP w
            { ((closed.put SYS_STATUS_ENG_OPEN 1).put HOST_ENG_STAT_FAILS 0) with host := { closed.host with idleFrom := h.now } }) ∧
        (w.toNat ≠ answer ∨ t + 200000000 < h.now →
          gives (.engResp w) HOST_ENG_RESP w
            { (closed.put HOST_ENG_STAT_FAILS fails) with
              host := { closed.host with lockFrom := if fails = 3 then some h.now else closed.host.lockFrom } })

/-- A W1C write clears the bits written 1; a lower word is held; an upper word brings the held lower word into the shadow with it; a
parameter of an axis waits in its shadow. (R3, R6, R7, R439.) -/
def Obligations.WordsAndPairsAreWritten : Prop :=
  ∀ (s : State) (a : Nat) (w : Word), s.serves →
    let h := s.head
    mapped a = true → writeDenied h.engineer a = false →
    let none_ : Nat → Option Word := fun _ => none
    (clearable1 a ≠ 0 → exec (.w1cClear a w) s = .next (s.accepted (h.wr a (bandNot (h.rd a) (band w.toNat (clearable1 a)))) [(a, w)])) ∧
      (halfOf a = .lower → writable a true ≠ 0 →
        exec (.lowerWordWrite a w) s = .next (s.accepted { h with holds := h.holds.set none_ a (some w) } [(a, w)])) ∧
      (∀ k : Fin 128, a = AX_MV_TGT_HI k.val →
        let lo := (h.holds.get none_ (AX_MV_TGT_LO k.val)).map BitVec.toNat
        exec (.upperWordWrite a w) s = .next (s.accepted
          { (h.shadow (AX_MV_TGT_LO k.val) (lo.getD (h.rd (AX_MV_TGT_LO k.val)))).shadow a w.toNat with
            holds := h.holds.set none_ (AX_MV_TGT_LO k.val) none } [(a, w)])) ∧
      ∀ (k : Fin 128) (off : Nat), a = 0x80000 + 0x400 * k.val + off → off < 0x400 → halfOf a = .one → clearable1 a = 0 →
        writable a true ≠ 0 → off ∉ [0, 0x20, 0x24, 0x28, 0x2C, 0x30, 0xE0, 0x198, 0x20C, 0x210] → h.axBusy k.val off = false →
        h.axRange k.val off (band w.toNat (writable a h.engineer)) = true →
        exec (.registerWrite a w) s = .next (s.accepted (h.shadow a (h.merge a w.toNat h.engineer)) [(a, w)])

/-- A write outside the map, one that the view denies and one to a busy block change nothing of the head but the refusal count and the
status told, ADDR, ACCESS or BUSY. (R3, R5, R435, R436, R446.) -/
def Obligations.RefusedWritesChangeNothing : Prop :=
  ∀ (s : State) (a : Nat) (w : Word), s.runs →
    let h := s.head
    let refused (st : Nat) : State := s.setHead ((h.bump HOST_CNT_REFUSED).setHost (fun p => { p with last := st }))
    (mapped a = false → exec (.registerWrite a w) s = .next (refused 3)) ∧
      (mapped a = true → writeDenied h.engineer a = true → exec (.registerWrite a w) s = .next (refused 4)) ∧
      (mapped a = true → writeDenied h.engineer a = false → h.blockBusy a = true → writable a true ≠ 0 ∨ clearable1 a ≠ 0 →
        halfOf a ≠ .one ∨ clearable1 a ≠ 0 → exec (.registerWrite a w) s = .next (refused 6))

/-- A lower word latches its upper word (CAP_NS the seconds and the count of its entry), a latched word is read from its latch, a counter
clears as it is read, a trigger stamp is no longer unread, CAP_CNT takes the oldest entry out of its FIFO and MST_NOTIFY clears; the idle
time of the Engineer view starts again and nothing else changes. (R3, R7, R98, R306, R445.) -/
def Obligations.WordsAndPairsAreRead : Prop :=
  ∀ (s : State), s.runs →
    let h := s.head
    let none_ : Nat → Option Word := fun _ => none
    let told (h' : Head) (v : Nat) : State :=
      s.setHead (h'.setHost (fun p => { p with driven := [BitVec.ofNat 32 v], last := 0, idleFrom := h'.now }))
    let seen (a : Nat) : Nat := viewOf a (h.peek a) h.engineer
    let latches (a : Nat) (w : Option Word) (h' : Head) : Head := { h' with latches := h'.latches.set none_ a w }
    let held (a : Nat) : Word := BitVec.ofNat 32 (h.peek a)
    -- A word that may stand latched under the address below it answers the latch and frees it, else it answers what stands there.
    let word (a : Nat) (c : Instr) (f : Head → Head) : Prop :=
      (∀ v : Word, h.latches.get none_ (a - 4) = some v → exec c s = .next (told (f (latches (a - 4) none h)) v.toNat)) ∧
        (h.latches.get none_ (a - 4) = none → exec c s = .next (told (f h) (seen a)))
    (∀ a : Nat, mapped a = true → h.ecc.contains a = false → readDenied h.engineer a = false →
      (halfOf a = .lower → (∀ k < 4, a ≠ TIME_TRG_STAMP_NS k) →
          ((∀ k < 8, a ≠ CAP_NS k) → exec (.lowerWordRead a) s = .next (told (latches a (some (held (a + 4))) h) (seen a))) ∧
            ∀ k < 8, a = CAP_NS k → exec (.lowerWordRead a) s =
              .next (told ((latches (CAP_SEC k) (some (held (CAP_CNT k))) (latches a (some (held (CAP_SEC k))) h)).setCap k (fun c =>
                { c with held := some !c.fifo.isEmpty })) (seen a))) ∧
        (∀ k < 4, a = TIME_TRG_STAMP_NS k → exec (.lowerWordRead a) s =
          .next (told ((latches a (some (held (a + 4))) h).setTrg k (fun t => { t with unread := false })) (seen a))) ∧
        (halfOf a = .upper → (∀ k < 4, a ≠ TIME_TRG_STAMP_SEC k) → word a (.upperWordRead a) (fun h => h)) ∧
        (∀ k < 4, a = TIME_TRG_STAMP_SEC k →
          (∀ v : Word, h.latches.get none_ (a - 4) = some v → exec (.upperWordRead a) s =
            .next (told (latches (a - 4) none (h.setTrg k (fun t => { t with unread := false }))) v.toNat)) ∧
          (h.latches.get none_ (a - 4) = none → exec (.upperWordRead a) s =
            .next (told (h.setTrg k (fun t => { t with unread := false }))
              (viewOf a ((h.setTrg k (fun t => { t with unread := false })).peek a) h.engineer)))) ∧
        ∀ r, regRow? a = some r → r.half = .one → r.mask (fun f => f.acc == .rc) ≠ 0 →
          ((∀ e < 16, a ≠ LE_BUSY e) →
            word a (.counterReadClear a) (fun h => h.wr a (bandNot (h.rd a) (r.mask (fun f => f.acc == .rc))))) ∧
          ∀ e < 16, a = LE_BUSY e →
            word a (.counterReadClear a) (fun h => (h.parkSpend e).wr a (bandNot ((h.parkSpend e).rd a) (r.mask (fun f => f.acc == .rc))))) ∧
      (∀ k : Fin 8, h.ecc.contains (CAP_CNT k.val) = false →
        word (CAP_CNT k.val) (.capFifoPop k) (fun h => (h.setCap k.val (fun c =>
          { c with fifo := if c.held = some false then c.fifo else c.fifo.drop 1, held := none })).capShow k.val)) ∧
      (h.ecc.contains MST_NOTIFY = false → word MST_NOTIFY .mstNotifyRead (fun h => h.wr MST_NOTIFY (bandNot (h.rd MST_NOTIFY) 0x1FFFF)))

/-- PORST_N low and the loss of a main rail put the head into its reset state and leave the island, the key and the trim store alone (a
log record being programmed may be torn); RESET_SEQUENCE leaves reset with the straps, the cause and the directory taken, or stops on a
failed ROM check. (R29, R34, R35, R54, R55, R57.) -/
def Obligations.ResetEntersAndLeaves : Prop :=
  ∀ s : State,
    -- The balls leave the boundary register; the test port keeps its registers (log entry 68).
    let down (s : State) (cause : Nat) : State :=
      { s.enterReset cause with tap := { s.tap with maintenance := false } }
    (∀ torn : Option Nat, s.inReset = true ∨ torn = none →
        exec (.porstAssert torn) s = .next (down s 2) ∧ exec (.mainRailLoss torn) s = .next (down s 1)) ∧
      (∀ (n : Nat) (d : Directory) (r : LogRec), s.inReset = false → s.head.logFree = true → s.head.boot.dir = some d →
        s.head.logNext = some r →
        exec (.porstAssert (some n)) s = .next (down ((s.logPrepare d).programLog d r (min 31 n)) 2) ∧
          exec (.mainRailLoss (some n)) s = .next (down ((s.logPrepare d).programLog d r (min 31 n)) 1)) ∧
      (∀ cause : Nat, let t := s.enterReset cause
        t.inReset = true ∧ t.cause = cause ∧ t.head = { Head.initial with draws := t.head.draws } ∧ t.wires.wdAlive = false ∧
          t.island = s.island ∧ t.store.key = s.store.key ∧ t.store.trim = s.store.trim) ∧
      (s.inReset = true → s.stopped = false → ∀ (mode : Fin 4) (role svcEn : Bool),
        exec (.resetSequence mode role svcEn false) s =
            .next { s with stopped := true, tap := { s.tap with maintenance := decide (mode = 3) } } ∧
          ∃ t, exec (.resetSequence mode role svcEn true) s = .next t ∧ t.inReset = false ∧ t.head.now = 75328 ∧
            t.head.sysState = (if mode = 3 then 7 else 1) ∧ t.head.rd SYS_RESET_CAUSE = s.cause % 2 ^ 32 ∧
            t.head.fld SYS_STRAP_BOOT_MODE = mode.val ∧ t.head.boot.dir = s.store.directory ∧ t.wires.wdAlive = true ∧
            t.store = s.store ∧ t.island = s.island)

/-- RECIPE_LOAD brings a sound image into force or reports the first failed check, each with a log record; a host load that stands still
ends; an erase, program, read or directory rewrite that ends changes the flash as it says and shows its result. (R59, R60, R67, R68, R69,
R70, R80, R453.) -/
def Obligations.LoadsAndFlashOperationsEnd : Prop :=
  ∀ s : State, s.runs →
    let h := s.head
    let gives (c : Instr) (h' : Head) : Prop := exec c s = .next (s.setHead h')
    (∀ (src : LoadFrom) (c : Content) (refuse : Option Nat) (readFault : Bool) (us : Nat), h.loadDue = some src →
        let h1 := h.setBoot (fun b => { b with hostImage := none })
        (∀ code sec, s.checkImage src c refuse readFault = .error (code, sec) →
          let failed := h1.loadFail code sec
          gives (.recipeLoad c refuse readFault us) (failed.logAdd 4 0 (failed.rd BOOT_FAIL) (failed.rd BOOT_RECIPE_ID))) ∧
        (∀ r, s.checkImage src c refuse readFault = .ok r →
          let done := h1.loadDone r us (fun h => h.takeLog s.store (s.cause % 2))
          gives (.recipeLoad c refuse readFault us) (done.logAdd 4 0 (done.rd BOOT_FAIL) r.id.toNat))) ∧
      (∀ l : HostLoad, h.boot.hl = some l → gives .hostLoadTimeout (h.forward (l.lastTick + 200000001)).hostLoadFail) ∧
      (∀ x : FlashOp, h.boot.flop = some x →
        let ended (result : Nat) : Head := (h.setBoot (fun b => { b with flop := none })).put BOOT_FLOP_RESULT result
        gives (.flashOperationDone false) (ended 3) ∧
          exec (.flashOperationDone true) s = .next { s with
            head := match x with
              | .read addr => (ended 0).takePage (s.store.bytes addr 256)
              | _ => ended 0
            store := s.store.perform x }) ∧
      (∀ (copyB : Bool) (bytes : List Nat), h.boot.flop = none → h.boot.dirOp = some (.directory copyB bytes) →
        let ended : Head := (h.setBoot (fun b => { b with dirOp := none })).put BOOT_SLOT_UPDATE 0
        gives (.flashOperationDone false) ended ∧
          exec (.flashOperationDone true) s = .next { s with
            head := (ended.setBoot (fun b => { b with dir := parseDirectory copyB bytes })).showDirectory
            store := s.store.perform (.directory copyB bytes) })

/-- The log is taken up from the newest sector, a buffered record is programmed at its place (or reported as a flash fault), and a
checkpoint is buffered every 10 minutes. (R452, R453, R454, R455.) -/
def Obligations.EventLogIsKept : Prop :=
  ∀ s : State, s.runs →
    let h := s.head
    let gives (c : Instr) (h' : Head) : Prop := exec c s = .next (s.setHead h')
    (∀ d : Directory, h.log.resumed = false → h.sysState ≠ 1 → h.boot.dir = some d →
        (s.store.newestSector d = none →
          gives .logResume ((h.setLog (fun l => { l with resumed := true })).wr BKG_POWERUPS (s.cause % 2))) ∧
        (∀ k q, s.store.newestSector d = some (k, q) → gives .logResume (h.resumeAt s.store d (s.cause % 2) k))) ∧
      (∀ (d : Directory) (r : LogRec), h.logFree = true → h.boot.dir = some d → h.logNext = some r →
        let prepared := s.logPrepare d
        let failed (h : Head) : Head := ((h.raise 9 6 0).put BKG_LOG_STAT_FAULT 1).setLog (fun l =>
          { l with sector := h.logAfter d, used := 0, skip := 0, ready := l.ready && decide (l.used ≠ 0) })
        exec (.logRecordWrite .program) s = .next (prepared.setHead (failed prepared.head)) ∧
          (h.log.used = 0 → h.log.ready = false → gives (.logRecordWrite .erase) (failed h)) ∧
          (0 < h.log.used → h.log.used < 119 →
            exec (.logRecordWrite .good) s = .next { s with
              store := s.store.program (h.logAddr d) (r.bytes h.log.seq (h.rd BKG_POWERUPS))
              head := h.logWritten d })) ∧
      (h.now ≤ h.log.lastCheckpoint + 120000000000 →
        let due := { h with now := h.log.lastCheckpoint + 120000000000 }
        gives .logCheckpoint ((due.setLog (fun l => { l with lastCheckpoint := due.now })).logAdd 3 h.log.epoch (h.rd BKG_HOURS)
          (h.rd BKG_HOT)))

/-- With HRDY high a request takes the reserved ticket and is answered 0xA5 and its number; with HRDY low it is answered 0 and counted;
one whose words do not all come is an abort; words beyond COUNT are ignored; every request waits for its commit. (R428, R430, R431, R432,
R433, R440.) -/
def Obligations.HostRequestsTakeTickets : Prop :=
  ∀ (s : State) (addr : Word) (n st : Byte) (ws : List Word), s.runs →
    let h := s.head
    let reg (op : Nat) (ws : List Word) : HostReq := { op := op, count := n.toNat, addr := addr.toNat, station := 0, words := ws }
    let node (op : Nat) (ws : List Word) : HostReq := { op := op, count := n.toNat, addr := addr.toNat, station := st.toNat, words := ws }
    let took (t : Nat) (r : HostReq) : Head :=
      ((h.setTicket t (fun _ => { Ticket.initial t with state := 2, op := r.op, count := r.count, req := some { r with words := r.carried } })).setHost (fun p =>
        { p with reserved := none })).answer 0xA5 t
    let gives (c : Instr) (h' : Head) : Prop := exec c s = .next (s.setHead h')
    let queued (c : Instr) (r : HostReq) : Prop :=
      (h.hrdy = false → gives c ((h.bump HOST_CNT_NRDY).answer 0 0)) ∧
        ∀ t, h.hrdy = true → h.host.reserved = some t →
          gives c ((took t r).setHost (fun p => { p with fifo := p.fifo ++ [t] })).reserveTicket
    let cut (c : Instr) : Prop := gives c ((h.bump HOST_CNT_ABORT).setHost (fun p => { p with driven := [] }))
    queued (.rd addr n) (reg 0x01 []) ∧ queued (.rdf addr n) (reg 0x11 []) ∧ queued (.nrd st addr n) (node 0x03 []) ∧
      (n.toNat ≤ ws.length ∨ n.toNat < 1 ∨ 64 < n.toNat → queued (.wr addr n ws) (reg 0x02 ws) ∧ queued (.wrf addr n ws) (reg 0x12 ws)) ∧
      (n.toNat ≤ ws.length ∨ n.toNat < 1 ∨ 46 < n.toNat →
        queued (.nwr st addr n ws) (node 0x04 ws) ∧ queued (.nex st addr n ws) (node 0x05 ws)) ∧
      (ws.length < n.toNat → (n.toNat ≤ 64 → cut (.wr addr n ws) ∧ cut (.wrf addr n ws)) ∧
        (n.toNat ≤ 46 → cut (.nwr st addr n ws) ∧ cut (.nex st addr n ws)))

/-- A fetch drives the status of a waiting ticket or the result of a completed one and moves it to READ; FETCHR and REL free it; MAP shows
the releasable tickets; an unknown operation and an aborted transaction only count. (R430, R433, R434, R437, R438.) -/
def Obligations.HostFetchesAndReleases : Prop :=
  ∀ (s : State) (b : Byte), s.runs →
    let h := s.head
    let t := b.toNat
    let x := h.ticket t
    let gives (c : Instr) (h' : Head) : Prop := exec c s = .next (s.setHead h')
    let drives (h' : Head) (l : List Word) : Head := h'.setHost (fun p => { p with driven := l })
    let result : List Word := BitVec.ofNat 32 (x.status % 256 * 2 ^ 24 + t * 2 ^ 16 + x.data.length % 256 * 256 +
      b2n (x.state == 4) * 128 + b2n x.shadow * 64 + x.idx % 64) :: x.data
    let read := drives (h.setTicket t (fun y => { y with state := 4 })) result
    (x.head = true ∨ x.state = 0 → gives (.fetch b) (drives h [BitVec.ofNat 32 (0xB * 2 ^ 24 + t * 2 ^ 16)])) ∧
      (x.head = false → x.state = 1 ∨ x.state = 2 → gives (.fetch b) (drives h [BitVec.ofNat 32 (2 ^ 24 + t * 2 ^ 16)])) ∧
      (x.head = false → 3 ≤ x.state →
        gives (.fetch b) read ∧ gives (.fetchr b) (read.freeTicket t) ∧ gives (.rel b) ((h.freeTicket t).answer 0xA5 0) ∧
          gives (.transactionAbort (some b)) (read.bump HOST_CNT_ABORT)) ∧
      (x.head = true ∨ x.state < 3 → gives (.rel b) (h.answer 0 0)) ∧
      gives .map (drives h ((List.range 8).map (fun i => BitVec.ofNat 32
        (((List.range 32).map (fun k => b2n (h.releasable (32 * i + k)) * 2 ^ k)).foldl (· + ·) 0)))) ∧
      gives .badOp (drives (h.bump HOST_CNT_BADOP) []) ∧ gives (.transactionAbort none) (drives (h.bump HOST_CNT_ABORT) [])

/-- The oldest waiting request is committed: a COUNT outside 1 to 64 is refused with LEN; a read or write ends its ticket with OK and its
words, or is refused with the status of its first failed check; a node request goes to the Recess queue when its checks pass. (R433, R435,
R436, R439.) -/
def Obligations.CommitsFollowTheQueue : Prop :=
  ∀ (s : State) (t : Nat) (rest : List Nat) (r : HostReq), s.runs → s.head.host.fifo = t :: rest → (s.head.ticket t).req = some r →
    let h := s.head.setHost (fun p => { p with fifo := rest })
    let gives (h' : Head) : Prop := exec (.requestCommit none) s = .next (s.setHead h'.reserveTicket)
    (r.count < 1 ∨ 64 < r.count → gives (h.refuseTicket t 2 0)) ∧
      (3 ≤ r.op → r.op ≤ 5 →
        (∀ st i, h.nodeRefuse r = some (st, i) → gives (h.refuseTicket t st i)) ∧
          (h.nodeRefuse r = none → gives (h.accepted.queueTxn (.host t) r.station (r.op - 2) 0 r.addr r.count r.words))) ∧
      (1 ≤ r.count → r.count ≤ 64 → r.op = 0x01 ∨ r.op = 0x11 →
        let x := h.commitRead h.engineer r.addrs
        gives (if x.2.1 = 0 then x.1.accepted.finishTicket t 0 x.2.2.2 false 0
          else if x.2.1 = 0xA then x.1.accepted.finishTicket t 0xA [] false 0 else x.1.refuseTicket t x.2.1 x.2.2.1)) ∧
      (1 ≤ r.count → r.count ≤ 64 → r.op = 0x02 ∨ r.op = 0x12 →
        let w := h.commitWrite s.key h.engineer (r.addrs.zip r.words)
        w.1.boot.want = 0 →
        let told := w.1.setHost (fun p => { p with last := w.2.1 })
        gives (if w.2.1 = 0 then told.accepted.finishTicket t 0 [] w.2.2.1 0 else told.refuseTicket t w.2.1 w.2.2.2))

/-- A change of SVC_EN, 600 s without a request, an expired challenge and the end of the lock act as the rules say; a scrub step counts
what it finds, telemetry sweeps rails and temperature, recalibration takes its round, and the test port takes its instruction (protected
outside Maintenance). (R30, R51, R441, R443, R448, R449, R450, R451. TAP starts with IDCODE: log entry 68.) -/
def Obligations.ViewEndsAndServicesRun : Prop :=
  (∀ s : State, s.runs →
    let h := s.head
    let gives (c : Instr) (h' : Head) : Prop := exec c s = .next (s.setHead h')
    let shut (h' : Head) : Head := ((h'.put SYS_STATUS_ENG_OPEN 0).put SYS_TRIM_CTL_VIEW 0).put HOST_EVT_ENG_CLOSED 1
    let low : Head := { h with pins := { h.pins with svcEn := false } }.put SYS_STRAP_SVC_EN_LIVE 0
    gives .svcEnLow (if h.engineer then shut low else low) ∧
      (h.engineer = true → gives .engIdleClose (shut (h.forward (h.host.idleFrom + 120000000000)))) ∧
      (∀ t, h.host.chalTick = some t →
        let due := h.forward (t + 200000001)
        gives .challengeExpiry { ((due.wr HOST_ENG_CHAL 0).put HOST_ENG_STAT_CHAL_OPEN 0) with host := { h.host with chalTick := none } }) ∧
      (∀ t, h.host.lockFrom = some t → gives .engineerLockExpiry { h with
        now := max h.now (t + 12000000000), host := { h.host with lockFrom := none } })) ∧
  (∀ s : State, s.runs →
    let h := s.head
    let gives (c : Instr) (h' : Head) : Prop := exec c s = .next (s.setHead h')
    let struck (f : ScrubFind) : Head := f.upsets.foldl
      (fun (h : Head) x => h.setEngine x.1 (fun g => { g with flawed := x.2 :: g.flawed.erase x.2 })) h
    let mended (f : ScrubFind) : Head := if f.region = 0
      then ((struck f).setEngine f.engine (fun g => { g with flawed := g.flawed.erase (findWord f) })).bump (LE_ECC f.engine) else struck f
    (∀ f : ScrubFind, f.wrap = false → f.bad = false →
        gives (.scrubStep f) (if f.corrected then ((mended f).bump BKG_ECC_CORR).setLog (fun l => { l with scrubCorr := l.scrubCorr + 1 })
          else struck f)) ∧
      (∀ f : ScrubFind, f.wrap = false → f.corrected = false → f.bad = true → f.region ≠ 0 → f.region ≠ 5 → f.host = none →
        gives (.scrubStep f) ((((struck f).bump BKG_ECC_UNC).wr BKG_ECC_ADDR (f.region % 16 * 2 ^ 28 + f.addr % 2 ^ 24)).raise 9 1 f.region)) ∧
      (∀ (temp : Int) (a b c d e : Nat),
        let due := h.forward (h.time.mt.tickOf ((h.mtNs / 10000000 + 1) * 10000000 * 2 ^ 32))
        gives (.telemetry temp [a, b, c, d, e])
          (((((((due.railSweep 0 a).railSweep 1 b).railSweep 2 c).railSweep 3 d).railSweep 4 e).tempSweep temp).hourSweep temp)) ∧
      (∀ round : CalRound,
        -- A correction outside its plausible range about the trim value counts as none (the range: log entry 67).
        let held := (round.adc.take 8).zipIdx.map (fun x => x.1.filter (fun v => Config.calPlausible (h.calTrim (10 + x.2)) (10 + x.2) v.1 v.2))
        let noted := if held.any (·.isNone) then h.calFault 0 else h
        gives (.recalibration round) (h.lanesUsed.foldl (Head.calLane round) (noted.setLog (fun l =>
          { l with adcCorr := l.adcCorr.zipIdx.map (fun x => (held.getD x.2 none).getD x.1) })))) ∧
      (∀ (op : TapOp) (balls scan : Nat),
        let open_ := s.tap.maintenance = true
        let now := { s.tap with instr := op }
        (op = .sample ∨ op = .extest ∧ open_ →
          exec (.testPortInstruction op balls scan) s =
            .next (({ s with tap := { now with data := s.captured balls, boundary := BitVec.ofNat 48 scan } } : State).svcEnSeen
              (balls.testBit svcEnCell))) ∧
          (op ≠ .sample → ¬(op = .extest ∧ open_) →
            exec (.testPortInstruction op balls scan) s =
              .next { s with tap := { now with data := if op = .idcode then 0x112803D5 else 0 } }) ∧
          ∃ t, exec (.testPortInstruction op balls scan) s = .next t ∧
            (t.tap.drives = true ↔ open_ ∧ (op = .extest ∨ op = .clamp)) ∧ (t.tap.floats = true ↔ open_ ∧ op = .highz)))

/-- Signal, lock, comma and idle bring a lane from its detection to UP; loss of sync, signal or lock take it back, with the counters and
latches of each. (R84, R85, R86, R89, R98.) -/
def Obligations.LanesComeUpAndGoDown : Prop :=
  ∀ (s : State) (lane : Fin 10), s.runs →
    let h := s.head
    let n := lane.val
    let gives (c : Instr) (h' : Head) : Prop := exec c s = .next (s.setHead h')
    let dropped (h' : Head) (inFrame : Option Frame) : Head := match inFrame with
      | some f => (if n = 8 then h'.sendAs 9 true f else h').bump (LANE_FRAMING n)
      | none => h'
    let lost (h' : Head) (st : Nat) (inFrame : Option Frame) : Head :=
      ((((dropped h' inFrame).put (LANE_EVT_SYNC_LOSS n) 1).bump (LANE_SYNCLOSS n)).setLaneState n st).setLane n
        (fun x => { x with aligned := false })
    ((h.lane n).enabled = true → h.laneState n = 1 →
        gives (.laneSignalQualified lane) ((h.put (LANE_STAT_LOS n) 0).setLaneState n 2)) ∧
      (∀ eq : Nat, h.laneState n = 2 →
        let settled := if h.on (LANE_CTL_EQ_HOLD n) ∧ (h.lane n).eqSettled then h else h.put (LANE_STAT_EQ n) (min 12 eq)
        gives (.cdrLocked lane eq) ((settled.setLaneState n 3).setLane n (fun x => { x with eqSettled := true, aligned := false }))) ∧
      (∀ inverted : Bool, h.laneState n = 3 →
        gives (.commaAligned lane inverted) ((h.put (LANE_STAT_INV n) (b2n inverted)).setLane n (fun x => { x with aligned := true }))) ∧
      (h.laneState n = 3 → (h.lane n).aligned = true →
        gives (.laneUp lane) (((h.setLaneState n 4).put (LANE_EVT_UP n) 1).setLane n (fun x => { x with bells := h.net.rc.bells }))) ∧
      (∀ (invalid : Nat) (inFrame : Option Frame), h.laneState n = 4 →
        gives (.syncLoss lane invalid inFrame) (lost (h.bumpBy (LANE_CV n) invalid) 3 inFrame)) ∧
      (∀ (invalid : Nat) (inFrame : Option Frame), (h.lane n).enabled = true → h.laneState n = 4 →
        gives (.signalLoss lane ⟨invalid, inFrame⟩)
          (lost (((h.bumpBy (LANE_CV n) invalid).put (LANE_STAT_LOS n) 1).put (LANE_EVT_LOS n) 1) 1 inFrame)) ∧
      (h.laneState n = 3 → gives (.cdrLockLoss lane) ((h.setLaneState n 2).setLane n (fun x => { x with aligned := false }))) ∧
      (8 ≤ n → h.laneState n = 4 → gives (.idleInsertDelete lane) (h.bump (LANE_ELASTIC n)))

/-- A frame that fails a check is counted and used for nothing, but a fault of content in a report window counts against its station; on a
star lane a sound frame outside every window meets a closed gate; a sound frame with both banks unread is an overrun; a sound report in
its window is used; a Roll Call answer and a Recess response go to their work. (R102, R103, R104, R122, R133, R147, R151.) -/
def Obligations.FieldFramesAct : Prop :=
  ∀ (s : State) (r : RxFrame), s.runs →
    let f := r.frame
    let lane := r.lane.val
    let q := s.head.atBoundary r
    let t := unitTick q.stamp
    let h := s.head.arrive r
    let j := h.judgeAt t
    let seen := h.guardEvent j lane t
    let used := ((seen.bank lane f).seeEpoch (fEpoch f)).yieldTo (fEpoch f)
    let gives (c : Instr) (h' : Head) : Prop := exec c s = .next (s.setHead h')
    lane < 8 → s.head.laneUp lane = true →
    (r.badGroup = true → gives (.frameRefused r) (h.bump (LANE_FRAMING lane))) ∧
      (r.badGroup = false → seen.topo (lane / 4) = 2 → j.portTakes q = false → gives (.frameRefused r) (seen.gateRefuse j q)) ∧
      (r.badGroup = false → seen.topo (lane / 4) ≠ 2 ∨ j.portTakes q = true →
        (∀ k, frameFault q = some k → (k ≠ 4 ∧ k ≠ 5) ∨ j.bell.running = false ∨ j.bell.rollcall = true →
            gives (.frameRefused r) (seen.countFault lane k)) ∧
          (∀ x : RepSlot, frameFault q = some 4 → j.bell.running = true → j.bell.rollcall = false → j.flightWindow lane t = none →
            j.slotWindow lane t = some x → (seen.bump (LANE_CRC lane)).fld (NODE_STAT_STATE x.station) ≠ 6 →
            gives (.frameRefused r) (((seen.bump (LANE_CRC lane)).spoil x).crcEvent x.station)) ∧
          (frameFault q = none → seen.banksFull lane = true → gives (.frameRefused r) (seen.overrunLane lane)) ∧
          (frameFault q = none → seen.banksFull lane = false → j.bell.edge = seen.bell.edge →
            (∀ x : RepSlot, j.bell.rollcall = false → j.flightWindow lane t = none → j.slotWindow lane t = some x → fKind f < 9 →
              used.fld (NODE_STAT_STATE x.station) ≠ 6 → j.slotMatch x f = true → x.part = 0 →
              let noted := used.noteFrame x (j.instantTick x.arrival) f q.stamp
              (noted.node x.station).seenThisBell = false →
              gives (.reportReceive r) (noted.useReport x.station q.stamp f.payload)) ∧
            (answers f = true →
              (j.bell.rollcall = true → gives (.rollcallAnswer r) (used.rcAnswer lane t q.stamp f)) ∧
              ∀ g : Flight, j.bell.rollcall = false → j.flightWindow lane t = some g → fEpoch f = used.epochIn →
                fSlot f = 0xF0 + g.pair → gives (.recessResponse r) (used.recessResponse g lane q.stamp f))))

/-- A damaged frame on LL0 is counted and goes on to LL1, with /V/ for a bad code group; so does a sound frame for other heads, which
keeps a bank or overruns (its own publications end at it); a heartbeat and a mirror record of the partner are taken. (R95, R102, R285,
R397, R401, R409.) -/
def Obligations.LineFramesAct : Prop :=
  ∀ (s : State) (r : RxFrame), s.runs → r.lane = 8 → s.head.laneUp 8 = true →
    let f := r.frame
    let q := s.head.atBoundary r
    let h := s.head.arrive r
    let on := h.forwardLine false f
    let typ := bits (wordAt f.payload 0) 31 24
    let gives (c : Instr) (h' : Head) : Prop := exec c s = .next (s.setHead h')
    (∀ k, frameFault q = some k → gives (.frameRefused r) ((h.countFault 8 k).forwardLine (k == 1 && r.broken) f)) ∧
      (frameFault q = none → h.lineOnward f = true → on.banksFull 8 = true → gives (.llForward r) (on.overrunLane 8)) ∧
      (frameFault q = none → fStation f ≠ h.ring * 256 → on.banksFull 8 = false →
        (pairTraffic f = true → fSlot f ≠ h.ring → gives (.llForward r) (on.bank 8 f)) ∧
        (pairTraffic f = false → typ ∉ [0x40, 0x51, 0x52, 0x53] → gives (.llForward r) (on.bank 8 f))) ∧
      (frameFault q = none → fStation f ≠ h.ring * 256 → pairTraffic f = false → typ = 0x40 →
        let passed := if bits (wordAt f.payload 1) 31 24 = h.headNo ∧ h.substitute = false then h else on
        passed.banksFull 8 = false →
          gives (.masterPubReceive r) ((List.range 8).foldl (fun (h : Head) v => h.vmPub f.payload v) (passed.bank 8 f))) ∧
      (frameFault q = none → fStation f = h.ring * 256 → pairTraffic f = true → h.banksFull 8 = false →
        (fKind f = 0xC → gives (.heartbeatReceive r) (((h.bank 8 f).seeEpoch (fEpoch f)).heartbeatTake q.frame (rxDone r))) ∧
        (fKind f ≠ 0xC → gives (.mirrorReceive r) (((h.bank 8 f).seeEpoch (fEpoch f)).mirrorTake q.frame)))

/-- A waiting transaction that may fly leaves with its pair; a missing response is counted and repeated up to 3 times, then ends with
TIMEOUT. (R114, R123, R124, R125.) -/
def Obligations.RecessTransactionsRun : Prop :=
  ∀ (s : State) (lane : Fin 10) (pair : Nat) (phase : Fin 11) (tb : LaneTable) (p : Nat × Nat), s.runs →
    s.head.laneTable? lane.val = some tb → tb.pairs[pair]? = some p →
    let l := lane.val
    let h := s.head.forward (s.head.instantTick p.1)
    let due := s.head.forward (s.head.instantTick (p.2 + 14 + wireTicks 47))
    let gives (c : Instr) (h' : Head) : Prop := exec c s = .next (s.setHead h')
    (∀ x : Txn, s.head.bell.running = true → s.head.bell.rollcall = false →
        pickTxn (h.mayFly l pair (pair + 1 == tb.pairs.length)) h.net.waiting [] = some x →
        x.ticket < 256 → x.rcOp ≠ 7 →
        let taken : Head := { h with net := { h.net with waiting := h.net.waiting.erase x } }
        x.src ≠ .rawsw ∨ taken.rawswReady x.station = true →
        let epoch := if h.substitute then h.epochIn else h.ownEpoch
        let sent := taken.sendField l x.station (if x.rcOp = 0 then 9 else 0xB) (0xF0 + pair) epoch (x.retries != 0)
          ((h.node x.station).limp != 0) (x.words 0)
        gives (.recessRequest lane pair phase) { sent with net := { sent.net with flights := h.net.flights ++
          [{ txn := x, lane := l, pair := pair, dueBell := bellAfter h.bellNo tb.lag, departed := sent.sentStamp l phase.val, damaged := false }] } }) ∧
      (∀ g : Flight, s.head.flightAt l pair = some g →
        let missed := if g.damaged then due.landed g else (due.landed g).bump (NODE_MISS g.txn.station)
        (g.txn.retries < 3 → gives (.recessResponseMissing lane pair)
          { missed with net := { missed.net with waiting := { g.txn with retries := g.txn.retries + 1 } :: missed.net.waiting } }) ∧
        (∀ t : Nat, 3 ≤ g.txn.retries → g.txn.src = .host t →
          gives (.recessResponseMissing lane pair) (missed.finishTicket t 8 [] false 0)))

/-- A Bell edge falls at the instant one Bell after the last, numbers the Bell, ranks the pair and the time step before the shadows,
commits every waiting shadow in the order written, then runs stations, masters, groups, axes and releases. (R6, R16, R18, R19, R157,
R281.) -/
def Obligations.BellEdgeRunsInOrder : Prop :=
  ∀ (s : State) (phase : Fin 11), s.runs → s.head.bell.running = true →
    let opened := s.head.openBell.closeLoad s.head.bell.first
    let timed := opened.pairRank
    let stepped := (timed.applyStep timed.bell.edge).applyF (timed.applyStep timed.bell.edge).bell.edge
    let heard := stepped.heardBell
    let toggled : Head := if heard.paired then { heard with pins := { heard.pins with hbtOut := !heard.pins.hbtOut } } else heard
    let mirrored := toggled.mirrorEdge
    let first := (mirrored.edgeShadows toggled.bell.edge).calEdge.rollCallBell.reloadGatesOff.reloadCommit
    let stationed := first.stations.foldl (Head.stationBell first.bellNo) first
    let mastered := (stationed.markerBell phase.val).masterBell
    let grouped := (List.range 16).foldl (fun (h : Head) g => h.groupEdge g first.bellNo) mastered
    let still := (grouped.allAxes.foldl (fun (h : Head) n => h.axisBell n) grouped).stillBell
    let last := if still.bell.rollcall then still else still.edgeCyclic
    exec (.bellEdge phase) s = .next (s.onHead (fun _ => last.healthBell.mirrorSample)) ∧
      opened.bell.instant = (if s.head.bell.first then s.head.bell.instant
        else s.head.bell.instant + 5 * (if s.head.bell.rollcall then 25000 else s.head.bellTicks)) ∧
      opened.bell.edge = opened.now ∧ s.head.now ≤ opened.now ∧
      opened.bellNo = (if s.head.bell.first then s.head.bellNo else (s.head.bellNo + 1) % 2 ^ 32) ∧
      (mirrored.edgeShadows toggled.bell.edge) =
        mirrored.shadows.foldl (fun (h : Head) w => h.edgeWord toggled.bell.edge w.1 w.2.toNat) { mirrored with shadows := [] }

/-- A slot leaves at its instant with the payload last committed, noting an overrun when its task is late; a motion task is checked at its
deadline; a closed window counts a missing report. (R20, R21, R122, R147, R219, R220, R258.) -/
def Obligations.DeparturesAndDeadlinesRun : Prop :=
  ∀ s : State, s.runs → s.head.bell.running = true → s.head.bell.rollcall = false →
    let gives (c : Instr) (h' : Head) : Prop := exec c s = .next (s.setHead h')
    (∀ (lane : Fin 10) (slot t : Nat) (x : CmdSlot), s.head.cmdSlot? (lane.val * 256 + slot) = some x →
        let due := s.head.instantTick (if x.express then x.dueFirst else x.instant)
        let k := lane.val * 256 + slot
        let h := (s.head.forward (s.head.instantTick x.instant)).forward due
        h.slotInForce x.station lane.val x.limp = true → h.substitute = false → h.slotTask x = some t → h.taskCmd t = some k →
        let leaves (h' : Head) : Head :=
          (h'.setSlot k (fun y => { y with
            committed := decide (due ≤ y.commitAt) && y.committed, history := ((h'.bellNo, h'.slotPayload x due) :: y.history).take 8 })).sendField
            lane.val x.station x.kind slot h.ownEpoch false ((h.node x.station).limp != 0) (h'.slotPayload x due)
        (h.isOverrun t due x.express = true → (h.overrun t).substitute = false →
          gives (.slotDeparture lane slot) (leaves (h.overrun t))) ∧
        (h.isOverrun t due x.express = false → ((h.slot k).sends due).2 = true →
          gives (.slotDeparture lane slot) (leaves (h.put (SCHED_TSTAT_CONSEC t) 0)))) ∧
      (∀ t : Nat, s.head.bell.gatesOff = false → s.head.isMotion t = true → s.head.taskEnabled t = true →
        s.head.bell.cyclicCount % max 1 (bits (s.head.desc t 2) 15 8) = bits (s.head.desc t 2) 7 0 →
        let h := s.head.forward (s.head.instantTick (s.head.taskDeadline t))
        let owed := h.setMot (h.taskAxis t) (fun m => { m with owed := m.owed.map (fun o => (o.1, true)) })
        gives (.motionDeadline t) (if 2 ≤ h.taskState t then owed.overrun t else h.put (SCHED_TSTAT_CONSEC t) 0)) ∧
      (∀ (lane : Fin 10) (slot : Nat) (c : Content) (x : RepSlot), s.head.content? = some c →
        c.repSlots.find? (fun x => x.lane == lane.val && x.slot == slot) = some x →
        let n := x.station
        let h := s.head.forward (s.head.closeTick x)
        let onA := decide (lane.val < 4)
        let bad := if onA then (h.node n).badA else (h.node n).badB
        let counted := (if bad then h else h.bump (NODE_MISS n)).setNode n (fun y => if onA then { y with missA := y.missA + 1 } else { y with missB := y.missB + 1 })
        s.head.slotInForce n lane.val x.limp = true → s.head.fld (NODE_STAT_STATE n) ≠ 6 → (h.node n).judged = false →
        ((if onA then (h.node n).seenA else (h.node n).seenB) = true → (h.node n).seenThisBell = true →
          gives (.rxWindowClose lane slot) h) ∧
        ((if onA then (h.node n).seenA else (h.node n).seenB) = false → (h.node n).limp = 0 → h.dualMode n ≠ 3 →
          (if onA then (counted.node n).missA else (counted.node n).missB) < 2 → (h.node n).seenThisBell = false →
          counted.windowsClosed n = true → gives (.rxWindowClose lane slot) (counted.reportMissing n)))

/-- A kept steering sample is applied by the PI steering, and the addend it asks for stays within R_LIM after rounding. (R162, R163,
R164.) -/
def Obligations.SteeringIsLimited : Prop :=
  ∀ (s : State) (n : Nat) (ws : List Word) (d : Int), s.runs → s.head.time.steer.latch = some (n, ws) →
    let h := s.head.setSteer (fun x => { x with latch := none })
    s.head.bell.rollcall = false → h.latchDiff n ws = some d →
    let e := d - h.time.steer.offset * 2 ^ 32
    h.fld TIME_MT_STAT_STATE ≠ 3 → e.natAbs ≤ 100000 * 2 ^ 32 →
    exec .steeringSample s = .next (s.setHead (h.steer e (256 * h.tb))) ∧
      ∃ f : Int, (h.steer e (256 * h.tb)).time.steer.fNext = some f ∧ 2 * f.natAbs * 2 ^ 32 ≤ 10 * h.rLim + 2 ^ 32

/-- Without kept samples the head freezes its addend and takes the next candidate in cyclic state; LINE_SYNC and LINE_FOLLOW leave at the
next even millisecond; a pair received is followed; sixteen echoes make a link delay (log entry 52). (R139, R164, R165, R166, R167.) -/
def Obligations.LineTimeIsShared : Prop :=
  ∀ s : State, s.runs →
    let h := s.head
    let gives (c : Instr) (h' : Head) : Prop := exec c s = .next (s.setHead h')
    (let st := h.fld TIME_MT_STAT_STATE;
      (st = 0 ∨ st = 3 → gives .timeHoldover h) ∧
      (st = 1 ∨ st = 2 → h.refMode = 1 →
        let due := h.forward (h.time.steer.keptAt + 1600000)
        gives .timeHoldover ((((due.put TIME_MT_STAT_STATE 3).setSteer (fun x =>
          { x with fNext := none, keptRun := 0, moved := false })).timeEvent 3).setSteer (fun x => { x with followSrc := none }))) ∧
      (st = 1 ∨ st = 2 → h.refMode ≠ 1 → 4 ≤ h.time.steer.lostRun →
        let held := ((h.put TIME_MT_STAT_STATE 3).setSteer (fun x => { x with fNext := none, keptRun := 0, moved := false })).timeEvent 3
        let again (moved : Bool) (h' : Head) : Head := h'.setSteer (fun x => { x with handover := [], lostRun := 0, moved := moved })
        (held.nextCandidate = none → gives .timeHoldover (again false held)) ∧
          ∀ i, held.nextCandidate = some i →
            gives .timeHoldover (again true ((held.put TIME_MT_STAT_CAND i).put TIME_MT_STAT_REF (nth held.candidates i))))) ∧
      (h.fld TIME_MT_CTL_REF_MODE ≤ 1 → h.on LANE_TOPO_LL_USED = true →
        let k := max (h.time.steer.syncEven + 1) (h.time.mt.nextOf (2000000 * 2 ^ 32) h.now)
        let due := (h.forward (h.time.mt.tickOf (k * 2000000 * 2 ^ 32))).setSteer (fun s => { s with syncEven := k })
        let st := stampOf ((due.time.mt.at due.now + ((Config.freePhase h.draws).val + due.txDelay 9) * 4 * 2 ^ 32 / 5) / 2 ^ 32) 0
        gives .lineSync ((due.draw.sendMirror 0x51 0 false [0]).sendMirror 0x52 0 false
          [BitVec.ofNat 32 st, BitVec.ofNat 32 (st / 2 ^ 32), BitVec.ofNat 32 due.timeSource])) ∧
      (∀ sync follow : RxFrame,
        let good (h : Head) (r : RxFrame) (typ : Nat) : Prop := h.laneUp 8 = true ∧ r.lane = 8 ∧ frameFault (h.atBoundary r) = none ∧
          (h.arrive r).banksFull 8 = false ∧ fKind r.frame = 0xD ∧ fStation r.frame ≠ (h.arrive r).ring * 256 ∧
          bits (wordAt r.frame.payload 0) 31 24 = typ
        let heard := ((h.arrive sync).bank 8 sync.frame).takeSync (h.atBoundary sync).stamp
        good h sync 0x51 → good heard follow 0x52 →
        gives (.lineFollow sync follow) (((heard.arrive follow).bank 8 follow.frame).takeFollow (follow.frame.payload.drop 1))) ∧
      (∀ t1 t2 t3 t4 : Nat,
        let asked := h.send 8 (mkFrame (headWord0 (h.ring * 256 + 255) 0xD 2 false false false) (headWord1 h.ownEpoch h.bellNo h.ring)
          [mirrorWord 0x53 0 h.red.lineSeq, BitVec.ofNat 32 t1])
        let l := h.time.steer.linkSamples ++ [echoSample (t1 + asked.txDelay 8) t2 t3 (t4 - asked.rxDelay 8)]
        (l.length < 16 → gives (.linkEcho t1 t2 t3 t4) (asked.setSteer (fun s => { s with linkSamples := l }))) ∧
          ∀ d, l.length = 16 → trimmedMean l = some d → gives (.linkEcho t1 t2 t3 t4)
            (asked.setSteer (fun s => { s with linkSamples := [], linkRetook := false, linkDelay := d.toNat })))

/-- PPS_OUT rises at its whole second and falls after its width, PPS_IN is stamped in both scales and counted, an armed trigger fires at
its time, its pulse ends and an input edge is stamped. (R15, R169, R170, R171.) -/
def Obligations.PulsesAndTriggersRun : Prop :=
  ∀ s : State, s.runs →
    let h := s.head
    let gives (c : Instr) (h' : Head) : Prop := exec c s = .next (s.setHead h')
    (h.on TIME_PPS_CTL_OUT_EN = true → h.time.ppsHigh = none → h.boot.recipe.isSome = true →
        let scale := if h.on TIME_PPS_CTL_OUT_SCALE then h.time.lt else h.time.mt
        let sec := 10 ^ 9 * 2 ^ 32
        -- The next whole second from tick `t` on: in `t` itself when the scale reaches or passes one in that tick.
        let next (t : Nat) : Nat := if 1 ≤ t ∧ scale.at (t - 1) / sec < scale.at t / sec then t
          else scale.tickOf (ceilDiv (scale.at t) sec * sec)
        let due := if next h.now = h.time.ppsLast then next (next h.now + 1) else next h.now
        let up := h.forward due
        gives .ppsOutRise { up with time := { h.time with ppsHigh := some (up.now + h.fld TIME_PPS_CTL_WIDTH_MS * 200000), ppsLast := up.now } }) ∧
      (∀ t, h.time.ppsHigh = some t → gives .ppsOutFall { h with now := max h.now t, time := { h.time with ppsHigh := none } }) ∧
      (∀ t : Nat,
        let stamped := ((h.forward (t + 2)).wrPair TIME_PPS_MT_NS (stampOf (h.time.mt.ns t) 0)).wrPair TIME_PPS_LT_NS (stampOf (h.time.lt.ns t) 1)
        gives (.ppsIn t) ((stamped.wr TIME_PPS_CNT ((h.rd TIME_PPS_CNT + 1) % 2 ^ 32)).put TIME_EVT_PPS_IN 1)) ∧
      (∀ k : Fin 4, (h.trg k.val).armed = true → (h.trg k.val).late = false → h.fld (TIME_TRG_CTL_MODE k.val) = 1 →
        h.boot.recipe.isSome = true →
        let t := h.trg k.val
        let scale := h.domainScale t.domain
        scale.jumped (t.time * 2 ^ 32) = false →
        let due := h.forward (scale.tickOf (t.time * 2 ^ 32))
        let fired := scale.tickOf (t.time * 2 ^ 32)
        let stamped := due.wrPair (TIME_TRG_STAMP_NS k.val) (stampOf (scale.ns fired) t.domain)
        gives (.trgFire k) ((stamped.setTrg k.val (fun x => { x with
          armed := false, late := false, pulseEnd := some (fired + max 1 (h.fld (TIME_TRG_CTL_WIDTH k.val))) })).unitEvent 3 k.val)) ∧
      (∀ (k : Fin 4) (t : Nat), (h.trg k.val).pulseEnd = some t →
        gives (.trgPulseEnd k) ((h.forward t).setTrg k.val (fun x => { x with pulseEnd := none }))) ∧
      (∀ (k : Fin 4) (rising : Bool) (t : Nat), h.fld (TIME_TRG_CTL_MODE k.val) = 0 →
        h.fld (TIME_TRG_CTL_EDGE k.val) = 2 ∨ h.fld (TIME_TRG_CTL_EDGE k.val) = (if rising then 0 else 1) →
        let due := h.forward (t + 2)
        let warned := if (h.trg k.val).unread then due.put TIME_EVT_TRG_OVR (setBit (h.fld TIME_EVT_TRG_OVR) k.val) else due
        gives (.trgInputEdge k rising t) (((warned.wrPair (TIME_TRG_STAMP_NS k.val) (stampOf (h.time.mt.ns t) 0)).setTrg k.val (fun x =>
          { x with unread := true })).unitEvent 3 k.val))

/-- A segment whose lane is not UP or whose reports are missing is lost; its nearest station is asked every 64 Bells; a detained node is
resynchronised after its wait, released after a clean probation or sent back; its configuration is then written; a lock that does not
clear stays with REFUSE 3. (R149, R150, R152, R339, R359.) -/
def Obligations.LostAndDetainedNodesComeBack : Prop :=
  ∀ s : State, s.runs →
    let h := s.head
    let gives (c : Instr) (h' : Head) : Prop := exec c s = .next (s.setHead h')
    (∀ lane : Fin 10, h.bell.running = true → h.bell.rollcall = false → h.fieldLanes.contains lane.val = true →
        (h.laneUp lane.val = false → gives (.segmentLoss lane) (h.segmentLost lane.val 1)) ∧
        (h.laneUp lane.val = true → h.topo (lane.val / 4) = 1 → 0 < h.lostFrom lane.val →
          gives (.segmentLoss lane) (h.segmentLost lane.val (h.lostFrom lane.val)))) ∧
      (∀ (lane : Fin 10) (st : Nat) (more : List Nat), h.lostStations lane.val = st :: more →
        (h.node st).resync = .none → ((h.net.waiting ++ h.net.flights.map (·.txn)).any (fun x => x.src == .rejoinEcho && x.station == st) = false →
          (∀ b, (h.lane lane.val).echoBell = some b → 64 ≤ bellsSince h.bellNo b) →
          gives (.rejoinEcho lane) ((h.setLane lane.val (fun x => { x with echoBell := some h.bellNo })).queueTxn .rejoinEcho st 0 4 0 0 []))) ∧
      (∀ st b : Nat, (h.node st).resync = .wait b → bellReached h.bellNo b = true →
        gives (.resyncStart st) ((h.setNode st (fun x => { x with resync := .echoes 2, samples := [], retook := false })).queueTxn
          .resyncEcho st 0 4 0 0 [])) ∧
      (∀ st b : Nat, (h.node st).resync = .probation b →
        let again := h.setNode st (fun x => { x with slotsOut := true, failedProb := (h.node st).failedProb + 1 })
        let failed := if 2 ≤ (h.node st).failedProb
          then ((again.setNode st (fun x => { x with resync := .none })).put (NODE_STAT_STATE st) 4).raise 3 1 st
          else (again.setNode st (fun x => { x with resync := .wait (bellAfter h.bellNo 8) })).put (NODE_STAT_STATE st) 2
        ((h.node st).probDrift = true ∨ 16 ≤ (h.node st).probMiss → gives (.probationEnd st) failed) ∧
          ((h.node st).probDrift = false → (h.node st).probMiss < 16 → 256 ≤ bellsSince h.bellNo b → (h.node st).probEdges ≤ 2 →
            gives (.probationEnd st) (h.releaseNode st))) ∧
      (∀ st : Nat,
        let begun := (h.putBit (NODE_PROT_CFG_OK st) (h.configWords st).isEmpty).setNode st (fun x => { x with configLeft := h.configWords st })
        gives (.nodeConfigWrite st)
          ((h.configWords st).foldl (fun (h : Head) e => h.queueTxn .config st 2 0 e.1 1 [e.2]) begun)) ∧
      (∀ g : Fin 16, (h.group g.val).clearLeft = some 0 →
        gives (.clrLockTimeout g) ((h.put (DCB_CTL_REFUSE g.val) 3).setGroup g.val (fun x => { x with clearLeft := none })))

/-- Roll Call starts with a recipe, asks each lane once in a Bell, repeats an unanswered request 3 times and then ends the lane with
NO_ACK, sends START for three Bells naming the first cyclic Bell 8 Bells on, and starts again after a failed REQUIRED position. (R131,
R136, R137, R144.) -/
def Obligations.RollCallProceeds : Prop :=
  ∀ s : State, s.runs →
    let h := s.head
    let gives (c : Instr) (h' : Head) : Prop := exec c s = .next (s.setHead h')
    (h.boot.recipe.isSome = true → h.sysState = 3 → h.net.rc.active = false → h.paired = false →
        gives .rollcallStart h.rollCallStart) ∧
      (∀ t, h.net.rc.restartAt = some t → gives .rollcallRestart ((h.forward t).rollCallStart)) ∧
      (h.net.rc.active = true → h.bell.rollcall = true →
        (∀ phase : Fin 11, h.net.rc.startsLeft = 0 →
          gives (.rollcallRequest phase)
            (h.fieldLanes.foldl (fun (h : Head) l => h.rcRequest l phase.val) ((h.forward (h.instantTick 64)).privFlag 26))) ∧
        (∀ phase : Fin 11, 0 < h.net.rc.startsLeft →
          gives (.rollcallRequest phase) ((h.fieldLanes.foldl
            (fun (x : Head) l => x.rcSend l 255 7 (h.bell.firstCyclic.getD 0 % 256) phase.val []) ((h.forward (h.instantTick 64)).privFlag 26)).setRc
              (fun r => { r with startsLeft := r.startsLeft - 1 }))) ∧
        (∀ (lane : Fin 10), (h.rcLane lane.val).sent = true → (h.rcLane lane.val).step ≠ .ended →
          (h.rcLane lane.val).step ≠ .markers → (h.rcLane lane.val).step ≠ .probe →
          (h.rcLane lane.val).reading = false →
          let due := (h.forward (h.instantTick 24001)).setRcLane lane.val (fun y => { y with sent := false })
          gives (.rollcallNoAnswer lane) (if (h.rcLane lane.val).repeats < 3
            then due.setRcLane lane.val (fun y => { y with repeats := y.repeats + 1 }) else (due.rcFree lane.val).rcEnd lane.val (some 4)))) ∧
      (∀ phase : Fin 11, h.net.rc.active = true → h.bell.rollcall = true →
        h.net.rc.lanes.toList.all (fun x => x.step == .ended) = true → h.rcFailed = none → h.bell.firstCyclic = none →
        gives (.rollcallStartup phase) ((({ h with bell := { h.bell with firstCyclic := some (bellAfter h.bellNo 8) } } : Head).setRc
          (fun r => { r with startsLeft := 3 })).rollCallRequest phase.val))

/-- A free engine starts the work offered to it; a ready privileged task enters its level while it holds fewer than 4; a release makes a
parked task go on or is latched by a running one. (R197, R208, R211, R212, R214.) -/
def Obligations.TasksStartWaitAndGoOn : Prop :=
  ∀ (s : State) (e : Fin 16), s.runs →
    let h := s.head
    let gives (c : Instr) (h' : Head) : Prop := exec c s = .next (s.setHead h')
    (∀ (t : Nat) (beyond : Bool), h.engineFree e.val = true → h.offer e.val = some (t, beyond) → 128 ≤ h.taskAxis t →
        let noted := if beyond then h.put SCHED_EVT_PRIV_DEFER 1 else h
        gives (.taskDispatch e) (((if noted.taskClass t = 1 then noted.copyWindows t e.val else noted).startTask t e.val).loopRecords t e.val)) ∧
      (∀ t : Nat, h.taskState t = 2 → h.taskClass t = 2 → (h.task t).queued = false → (h.level (h.levelOf t)).length < 4 →
        gives (.privEnqueue t) (((h.setLevel (h.levelOf t) (h.level (h.levelOf t) ++ [t])).setTask t
          (fun x => { x with queued := true })).showQueues)) ∧
      ((h.engine e.val).mode = .parked →
        let halt := h.on (LE_CTL_HALT e.val)
        gives (.parkRelease e) (((h.spend e.val (h.now * 5 / 2 - (h.engine e.val).parkTick * 5 / 2)).setEngine e.val
          (fun g => { g with parkTick := h.now })).setEngine e.val
            (fun g => { g with mode := if halt then .halted else .running, held := halt, released := false }))) ∧
      ((h.engine e.val).mode = .running →
        gives (.parkRelease e) (h.setEngine e.val (fun g => { g with released := true })))

/-- The oldest entry in planning becomes ready; a publishing master sends its record or marks it skipped; a follower whose publication is
too old goes into holdover with its speed frozen, and after HOLD ms is lost. (R267, R284, R285, R288.) -/
def Obligations.MovesAndMastersGoOn : Prop :=
  ∀ s : State, s.runs →
    let h := s.head
    let gives (c : Instr) (h' : Head) : Prop := exec c s = .next (s.setHead h')
    (∀ (n : Fin 128) (done rest : List MoveEntry) (x : MoveEntry), (h.mot n.val).queue = done ++ x :: rest →
        (∀ y ∈ done, y.ready.isSome = true) → x.ready = none →
        gives (.movePlanned n) (h.setMot n.val (fun m => { m with queue := done ++ { x with ready := some h.bellNo } :: rest }))) ∧
      (∀ v : Fin 8, h.on (VM_CFG_PUB v.val) = true → h.substitute = false → h.bell.running = true →
        h.bellNo % max 1 (h.fld (VM_PUB_PUB_DIV v.val)) = 0 →
        let due := h.forward h.bell.edge
        let noted := if (h.vm v.val).unsent then due.bump (VM_PUB_SKIP v.val) else due
        let q := ((h.vm v.val).pubSeq + 1) % 65536
        let st := stampOf h.bell.instant 0
        let m := toBits 64 (h.vm v.val).m
        let record : List Nat := [h.headNo * 2 ^ 24 + min 3 (h.fld (VM_STAT_STATE v.val)) * 65536 + h.bellTicks % 65536,
          st % 2 ^ 32, st / 2 ^ 32, m % 2 ^ 32, m / 2 ^ 32, toBits 32 (h.vm v.val).v, toBits 32 (h.vm v.val).a, h.rd (VM_MCYC v.val)]
        gives (.masterPub v true) (noted.setVm v.val (fun x => { x with unsent := true })) ∧
          gives (.masterPub v false) ((noted.setVm v.val (fun x => { x with unsent := false, pubSeq := q })).sendLine 0xD false
            (mirrorWord 0x40 v.val q :: record.map (BitVec.ofNat 32)))) ∧
      (∀ v : Fin 8, h.fld (VM_CFG_SRC v.val) = 3 → (h.vm v.val).loose = false → h.lineLate v.val = true →
        gives (.vmLineLoss v)
          ((h.setVm v.val (fun x => { x with loose := true, a := 0, holdover := some h.bellNo })).raise 5 0 v.val)) ∧
      (∀ (v : Fin 8) (b : Nat), h.fld (VM_CFG_SRC v.val) = 3 → (h.vm v.val).loose = true → (h.vm v.val).holdover = some b →
        h.bellsOfMs (h.fld (VM_LINE_HOLD v.val)) < bellsSince h.bellNo b →
        gives (.lineLost v) (h.setVm v.val (fun x => { x with lost := true })))

/-- An edge that has stood FILT ticks is counted by its mode, with its faults; a Z edge latches count and stamp, and clears the counter
when armed; a capture edge is stamped, counted, queued (or marked OVR), told to tasks and to every axis. (R300, R301, R302, R303, R304,
R306.) -/
def Obligations.EdgesAreCountedAndStamped : Prop :=
  ∀ (s : State) (tick stable : Nat), s.runs →
    let h := s.head
    let gives (c : Instr) (h' : Head) : Prop := exec c s = .next (s.setHead h')
    (∀ (k : Fin 4) (a b : Bool),
        let x := h.enc k.val
        let mode := h.fld (ENC_CFG_MODE k.val)
        let soon (t : Option Nat) : Bool := t.any (fun t => tick - t < h.fld (ENC_CFG_MIN_EDGE k.val))
        let changed := if x.b = b then x.lastB else some tick
        let before := if x.b = b then x.bBefore else x.b
        let setup := mode == 4 && !x.a && a && soon changed
        let st := encStep mode x.a x.b a b (if setup then before else b)
        let seen := (h.forward (tick + h.fld (ENC_CFG_FILT k.val) + 2)).setEnc k.val (fun x => { x with bBefore := before, a := a, b := b, lastEdge := some tick, lastB := changed })
        let faulted (bad : Bool) (code : Nat) (h' : Head) : Head := if bad then h'.encFault k.val code else h'
        let checked := faulted setup 10 (faulted (soon x.lastEdge) 9 (faulted st.2 8 seen))
        let d := if checked.on (ENC_CFG_INV k.val) then -st.1 else st.1
        (h.fld (ENC_CFG_FILT k.val) > stable ∨ (x.a = a ∧ x.b = b) → gives (.encoderEdge k a b tick stable) h) ∧
        (h.fld (ENC_CFG_FILT k.val) ≤ stable → x.a ≠ a ∨ x.b ≠ b →
          (mode = 0 ∨ 5 < mode → gives (.encoderEdge k a b tick stable) seen) ∧
          (1 ≤ mode → mode ≤ 5 →
            gives (.encoderEdge k a b tick stable) (if d = 0 then checked else checked.encCount k.val d tick)))) ∧
      (∀ k : Fin 4, h.fld (ENC_CFG_FILT k.val) ≤ stable →
        let first := h.forward (tick + h.fld (ENC_CFG_FILT k.val) + 2)
        let latched := ((first.wr (ENC_Z_CNT k.val) (h.rd (ENC_CNT k.val))).wrPair (ENC_Z_NS k.val) (h.stampAt tick)).put (ENC_STAT_Z_SEEN k.val) 1
        (h.fld (ENC_CFG_Z_MODE k.val) = 1 → gives (.zEdge k tick stable) latched) ∧
          (h.fld (ENC_CFG_Z_MODE k.val) = 2 → h.on (ENC_STAT_Z_ARMED k.val) = true →
            gives (.zEdge k tick stable) ((latched.wr (ENC_CNT k.val) 0).put (ENC_STAT_Z_ARMED k.val) 0)) ∧
          (h.fld (ENC_CFG_Z_MODE k.val) = 2 → h.on (ENC_STAT_Z_ARMED k.val) = false → gives (.zEdge k tick stable) first)) ∧
      (∀ (k : Fin 8) (rising : Bool),
        let latch := h.fld (CAP_CFG_LATCH k.val)
        let cnt := if latch < 4 then h.rd (ENC_CNT latch) else 0
        let st := h.stampAt tick
        let entry : Word × Word × Word := (BitVec.ofNat 32 st, BitVec.ofNat 32 (st / 2 ^ 32), BitVec.ofNat 32 cnt)
        let counted := (h.forward (tick + h.fld (CAP_CFG_FILT k.val) + 2)).wr (CAP_TOTAL k.val) (h.rd (CAP_TOTAL k.val) + 1)
        let kept := if (h.cap k.val).fifo.length < 4
          then (counted.setCap k.val (fun c => { c with fifo := c.fifo ++ [entry] })).capShow k.val else counted.put (CAP_STAT_OVR k.val) 1
        let told := (kept.setCap k.val (fun c => { c with lastEdge := some tick })).unitEvent 2 k.val
        h.fld (CAP_CFG_FILT k.val) ≤ stable → bit (h.fld (CAP_CFG_EDGE k.val)) (if rising then 0 else 1) = true →
        gives (.captureEdge k rising tick stable) (told.allAxes.foldl (fun (h' : Head) n => h'.captureAxis k.val tick n) told))

/-- A pass falls on the next whole millisecond, counts skipped ones, takes the event snapshot and fires the first transition whose
condition holds, entering its state and restarting the timer; a forced state is entered instead; without a table running nothing fires.
(R325, R329, R331, R335.) -/
def Obligations.TablePassesRun : Prop :=
  ∀ s : State, s.runs →
    let h := s.head
    let came := h.forward h.passTick
    let due : Head := { came with mst := { h.mst with lastMs := came.now } }
    let missed := if h.mst.lastPass = 0 ∨ h.mst.firstPass = true then 0 else (due.now - h.mst.lastPass + 100000) / 200000 - 1
    let counted := (({ due with mst := { due.mst with events := [], lastPass := due.now } } : Head).bumpBy MST_CNT_SKIP missed).bumpBy MST_TIMER (missed + 1)
    let enter (x : Head) (st : Nat) : Head :=
      ((x.put MST_STAT_STATE st).put MST_STAT_CO_SAFE (bits (x.rd (MST_STATES (2 * st))) 30 30)).wr MST_TIMER 0
    let passes (h' : Head) : Prop := exec .mstPass s = .next (s.setHead h')
    (h.tableRuns = false → passes { due with mst := { due.mst with lastPass := 0 } }) ∧
      (h.tableRuns = true → h.mst.firstPass = false → h.mst.force = none →
        ((∀ i : Fin 512, counted.fires h.mst.events i.val = false) → passes counted) ∧
        (∀ i : Fin 512, (∀ j : Fin 512, j < i → counted.fires h.mst.events j.val = false) → counted.fires h.mst.events i.val = true →
          let st := bits (counted.trWord i.val 0) 25 20
          bits (counted.trWord i.val 3) 6 0 = 0 → bits (counted.rd (MST_STATES (2 * st + 1))) 6 0 = 0 →
          passes (enter ((counted.put MST_STAT_LAST_TR i.val).bump MST_CNT_TR) st))) ∧
      (∀ st : Nat, h.tableRuns = true → h.mst.firstPass = false → h.mst.force = some st →
        bits (counted.rd (MST_STATES (2 * st + 1))) 6 0 = 0 →
        passes (enter { counted with mst := { counted.mst with force := none } } st))

/-- A due sample is taken at its offset; a closed record arms the next segment with its dead time when AUTO and a segment allow it,
otherwise the engine is DONE. (R415, R418, R424.) -/
def Obligations.AcquisitionSamplesAndCloses : Prop :=
  ∀ s : State, s.runs →
    let h := s.head
    let gives (c : Instr) (h' : Head) : Prop := exec c s = .next (s.setHead h')
    (∀ pins : Word, h.bell.running = true → h.acq.armPending = false → h.acqState = 1 ∨ h.acqState = 2 →
        (h.bellNo + 2 ^ 32 - h.acq.armBell) % 2 ^ 32 % max 1 (h.fld ACQ_RATE_DIV) = 0 →
        let due := h.forward (h.instantTick (h.fld ACQ_RATE_OFS))
        let vals := due.probes.map (fun k => (k, due.probeValue pins.toNat k))
        gives (.acqSample pins) ((due.acqTake vals).acqAfter vals)) ∧
      (∀ tick : Nat, h.acqState = 3 →
        let closed := (h.forward tick).acqClose
        let seg := closed.fld ACQ_STAT_SEG + 1
        let again := closed.on ACQ_CFG_AUTO = true ∧ (seg < closed.acqSegs ∨ closed.on ACQ_CFG_RING = true) ∧ closed.acq.thenDone = false
        let dead := min (2 ^ 32 - 1) ((closed.now - closed.acq.deadFrom.getD closed.now) * 5)
        (again → gives (.recordClose tick)
          (((closed.wr ACQ_DEAD dead).wr ACQ_DEAD_MAX (max dead (closed.rd ACQ_DEAD_MAX))).acqSegment (seg % closed.acqSegs) dead)) ∧
        (¬ again → gives (.recordClose tick) ((closed.setAcqState 4).setAcq (fun q => { q with thenDone := false }))))

/-- A paired head sends its heartbeat at HB_T or, before Bells, every 125 µs with a change of HBT_OUT; HBT_IN counts for its Bell; at
HB_DUE the silent paths are counted and a partner unheard for two Bells is declared failed. (R400, R401, R410.) -/
def Obligations.HeartbeatsAreSentAndJudged : Prop :=
  ∀ s : State, s.runs → s.head.paired = true →
    let h := s.head
    let gives (c : Instr) (h' : Head) : Prop := exec c s = .next (s.setHead h')
    let beat (h' : Head) : Head := h'.sendLine 0xC true [
      BitVec.ofNat 32 (h'.ownEpoch * 65536 + h'.ring * 256 + h'.role * 16 + h'.redState), BitVec.ofNat 32 h'.bellNo,
      BitVec.ofNat 32 (h'.rd RED_HEALTH)]
    (∀ c, h.bell.running = true → h.bell.rollcall = false → h.content? = some c →
        gives .heartbeatSend (beat (h.forward (h.instantTick c.hbT)))) ∧
      (h.bell.running = false →
        let due := h.forward ((h.now / period125 + 1) * period125)
        let toggled : Head := { due with pins := { due.pins with hbtOut := !h.pins.hbtOut } }
        gives .heartbeatSend (beat (toggled.wr RED_HEALTH toggled.healthWord))) ∧
      (∀ tick : Nat,
        let at_ := h.forward (tick + 2)
        let due := at_.instantTick (h.fld RED_HB_DUE_HB_DUE)
        let next := at_.instantTick (if h.bell.rollcall then 25000 else h.bellTicks)
        (h.bell.running = false ∨ tick ≤ due → gives (.hbtIn tick) (at_.setRed (fun r => { r with heardPin := true }))) ∧
        (h.bell.running = true → due < tick → next ≤ tick + 100 → gives (.hbtIn tick) (at_.setRed (fun r => { r with pinEarly := true }))) ∧
        (h.bell.running = true → due < tick → tick + 100 < next → gives (.hbtIn tick) at_)) ∧
      (h.bell.running = true → h.red.checkedBell ≠ some h.bellNo →
        let due := (h.forward (h.instantTick (h.fld RED_HB_DUE_HB_DUE))).setRed (fun r => { r with checkedBell := some h.bellNo })
        (h.red.heardLL = true → h.red.heardPin = true → gives .hbDueCheck due) ∧
        (h.red.heardLL = true → h.red.heardPin = false → gives .hbDueCheck ((due.bump RED_MISS_HBT).pathEvent 1)) ∧
        (h.red.heardLL = false → h.red.heardPin = true → gives .hbDueCheck ((due.bump RED_MISS_LL).pathEvent 0)) ∧
        (h.red.heardLL = false → h.red.heardPin = false →
          let missed := (due.bump RED_MISS_LL).bump RED_MISS_HBT
          (h.red.heardLLPrev = true ∨ h.red.heardPinPrev = true → gives .hbDueCheck missed) ∧
          (h.red.heardLLPrev = false → h.red.heardPinPrev = false → gives .hbDueCheck missed.partnerFailed)))

/-- After listening a head with a running partner becomes Substitute, otherwise it claims; the newer epoch wins and the loser waits 1 to 8
Bells (a free draw, log entry 75); a Substitute joins its stations; the active head sends its mirror records. (R398, R402, R404, R405,
R408, R410.) -/
def Obligations.PairTakesItsRoles : Prop :=
  ∀ s : State, s.runs →
    let h := s.head
    let gives (c : Instr) (h' : Head) : Prop := exec c s = .next (s.setHead h')
    let claims (h₀ : Head) : Head :=
      let h' : Head := { h₀ with bell := { h₀.bell with running := false } }
      (((h'.claimEpoch.put RED_STAT_STATE 2).put RED_STAT_ROLE 0).put SYS_STATUS_STATE 3).setRed (fun r => { r with
        listenUntil := none, backoffUntil := none, lostUntil := none, claimRival := none, claimUntil := some (h'.now + 8 * period125) })
    (∀ t, h.red.listenUntil = some t →
        let due := (h.forward t).setRed (fun r => { r with listenUntil := none, backoffUntil := none })
        (h.partnerState = 3 ∨ h.partnerState = 7 → gives .listenEnd due.becomeSubstitute) ∧
          (h.partnerState ≠ 3 → h.partnerState ≠ 7 → gives .listenEnd (claims due))) ∧
      (∀ t, h.red.backoffUntil = some t →
        let due := (h.forward t).setRed (fun r => { r with listenUntil := none, backoffUntil := none })
        (h.partnerState = 3 ∨ h.partnerState = 7 → gives .backoffEnd due.becomeSubstitute) ∧
          (h.partnerState ≠ 3 → h.partnerState ≠ 7 → gives .backoffEnd (claims due))) ∧
      (∀ t, h.red.lostUntil = some t → gives .partnerLost (claims (h.forward t))) ∧
      (∀ t, h.red.claimUntil = some t →
        let due := ((h.forward t).privFlag 24).setRed (fun r => { r with claimUntil := none })
        let lost := h.red.claimRival.any (fun r => epochNewer r.1 h.ownEpoch || (r.1 == h.ownEpoch && decide (r.2 > h.ring)))
        let wait := 1 + (Config.freeBackoff h.draws).toNat % 8
        (lost = false → gives .claimEnd ((due.put RED_STAT_ROLE 1).put RED_STAT_STATE 3).rollCallStart) ∧
          (lost = true → gives .claimEnd ((due.draw.put RED_STAT_STATE 6).setRed (fun r =>
            { r with backoffUntil := some (due.now + wait * due.bellTicks) })))) ∧
      (∀ st : Nat, let r := h.joinRound
        h.substitute = true → h.ownLane st ≠ 15 → (∀ a ∈ r.joinOrder.takeWhile (· != st), (r.joinRun a).settled = true) →
        (r.joinRun st).settled = false → (r.joinRun st).step = 0 →
        gives (.join st) ((r.setJoin st (fun _ => { JoinRun.initial 0 with step := 1 })).queueTxn .join st 0 4 0 0 [])) ∧
      (h.activePair = true →
        (∀ (i : Byte) (addr : Nat) (v : Word) (b : Nat) (more : List (Nat × Word × Nat)), h.red.writesOut = (addr, v, b) :: more →
          gives (.mirrorSend 0x0C i) ((h.setRed (fun r => { r with writesOut := more })).sendMirror 0xC i.toNat true
            [BitVec.ofNat 32 b, BitVec.ofNat 32 addr, v])) ∧
        (∀ i : Byte, gives (.mirrorSend 6 i) (h.sendQueue i.toNat)) ∧
        (∀ (i : Byte) (slot b : Nat), h.red.reloadOut = some (slot, b) →
          gives (.mirrorSend 0x0D i) ((h.setRed (fun r => { r with reloadOut := none })).sendMirror 0xD 0 true
            [BitVec.ofNat 32 b, BitVec.ofNat 32 slot])) ∧
        (∀ typ i : Byte, typ.toNat ≠ 6 → typ.toNat ≠ 0xC → typ.toNat ≠ 0xD →
          (∀ r, h.red.waiting.find? (fun r => r.typ == typ.toNat && r.index == i.toNat) = some r →
            gives (.mirrorSend typ i) ((h.setRed (fun x => { x with waiting := x.waiting.erase r })).sendMirror typ.toNat i.toNat true r.words)) ∧
          (h.red.waiting.find? (fun r => r.typ == typ.toNat && r.index == i.toNat) = none →
            gives (.mirrorSend typ i) (h.sendMirror typ.toNat i.toNat true (h.itemWords typ.toNat i.toNat)))))

/-- Power-on, the end of an SS1 count, a discrepancy, a supply sag, test pulses, reset presses and a keep-alive drop change the island as
its rules say, and nothing outside it. (R364, R369, R370, R372, R373, R377, R380, R381, R385, R387.) -/
def Obligations.IslandActsByItself : Prop :=
  ∀ s : State,
    let i := s.island
    let gives (c : Instr) (i' : Island) : Prop := exec c s = .next { s with island := i' }
    let off (x : Island) (n : Nat) : Island :=
      (if (x.out n).on then x.say 2 n else x).setOut n (fun o => { o with on := false, ball := false, req := 2, ss1 := none })
    let fresh : Island := { Island.off with powered := true, tested := true }
    (gives (.islandPowerOn 0) fresh) ∧
      (∀ code : Fin 8, 0 < code.val → gives (.islandPowerOn code) ({ fresh with
        fault := code.val, outs := fresh.outs.map (fun (o : SafeOut) => { o with lock := if o.lock = 0 then 4 else o.lock }) }.say 11 code.val)) ∧
      (∀ n : Fin 4, (i.out n.val).ss1.isSome = true → gives (.ss1Expiry n) (off i n.val)) ∧
      (∀ k : Fin 4, i.pairAt (2 * k.val) = true → (i.inp (2 * k.val)).level ≠ (i.inp (2 * k.val + 1)).level →
        gives (.inputDisc k) ((i.inFault (2 * k.val) 3).inFault (2 * k.val + 1) 3)) ∧
      (i.fsSag = true →
        let stopped := if i.supplyStop then i else ({ i with supplyStop := true }).say 7 0
        gives .fsStop (off (off (off (off stopped 0) 1) 2) 3)) ∧
      (∀ (slot : Fin 8) (n : Fin 4) (ps : List SafeSample), slot.val = nth [0, 2, 4, 6] n.val →
        i.param.isSome = true → i.serves = true → (i.out n.val).ball = true → i.slotDue slot.val = true →
        let done : Island := { i with slotsDone := setBit i.slotsDone slot.val }
        (i.fsSag = true → gives (.testPulse slot ps) { done with skipped := (i.skipped + 1) % 65536 }) ∧
        (i.fsSag = false →
          gives (.testPulse slot ps) (({ done with testDone := (i.testDone + 1) % 65536 } : Island).outPulse n.val (i.pulseSamples ps)))) ∧
      (∀ (slot : Fin 8) (t : Fin 2) (ps : List SafeSample), slot.val = 1 + 2 * t.val →
        i.param.isSome = true → i.serves = true → i.fsSag = false → i.slotDue slot.val = true →
        let seen := i.pulseSamples ps
        gives (.testPulse slot ps) ((List.range 8).foldl (fun (x : Island) k => x.sptInput t.val (seen.drop (seen.length - 3)) k)
          { i with testDone := (i.testDone + 1) % 65536, slotsDone := setBit i.slotsDone slot.val })) ∧
      (∀ (slot : Fin 8) (ps : List SafeSample), i.slotDue slot.val = false → gives (.testPulse slot ps) i) ∧
      (∀ samples : Nat, i.powered = true →
        let us := samples * 188 / 19
        (100000 ≤ us → us ≤ 2000000 → gives (.safetyReset samples) { i with press := some 0 }) ∧
        (3000000 ≤ us → us ≤ 5000000 → gives (.safetyReset samples) { i with press := some 1 }) ∧
        (us < 100000 ∨ (2000000 < us ∧ us < 3000000) ∨ 5000000 < us →
          gives (.safetyReset samples) { i with ignored := (i.ignored + 1) % 65536 })) ∧
      (∀ n : Fin 4, gives (.keepaliveDrop n) (i.setOut n.val (fun o => { o with ball := false })))

/-- An evaluation of a powered island counts itself, keeps its set and role, makes a record of 16 words, and leaves output n driven only
if it is used, not locked out, not asked off early, the island serves and holds no island fault. (R366, R376, R384, R385, R389.) -/
def Obligations.EvaluationDrivesTheOutputs : Prop :=
  ∀ (s : State) (x : EvalIn), s.island.powered = true →
    ∃ i : Island, exec (.evaluationCycle x) s = .next { s with island := i, wires := { s.wires with wdDropped := false } } ∧
      i.seq = (s.island.seq + 1) % 2 ^ 32 ∧ i.wdOut = s.island.wdOut + 1 ∧ i.param = s.island.param ∧ i.role = s.island.role ∧
      i.record.length = 16 ∧
      ∀ n : Fin 4, (i.out n.val).ball = true →
        (i.out n.val).lock = 0 ∧ i.used n.val = true ∧ i.serves = true ∧ bit s.wires.early n.val = false ∧ i.fault = 0

/-- The core's watchdog line changes only while re-armed; a new parameter set is offered with its CRC judged; a record is taken or counted
as bad; early off is asked after 16 Bells of standstill; the island's line is timed; its silence and the loss of VDD_SAFE stop every axis.
(R36, R378, R382, R384, R386, R387.) -/
def Obligations.CoreAndIslandExchange : Prop :=
  ∀ s : State, s.inReset = false →
    let h := s.head
    (exec (.watchdogToggle false) s = .next s ∧
        exec (.watchdogToggle true) s = .next { s with
          head := { h with time := { h.time with wdLevel := !h.time.wdLevel } }
          wires := { s.wires with wdChanges := s.wires.wdChanges + 1 } }) ∧
      (∀ (r : Recipe) (sound : Bool), h.boot.recipe = some r → ¬ (s.island.param.isSome = true ∧ s.island.sig = r.safeSig) →
        let good := sound && crc32 (r.safety.flatMap (fun w => leBytes 4 w.toNat)) == r.safeSig
        exec (.paramTransfer sound) s = .next { s with island := s.island.take r.safety r.safeSig (h.on SYS_STRAP_ROLE) good }) ∧
      (s.island.powered = true → s.island.record ≠ [] →
        exec (.islandRecord false) s = .next (s.setHead h.badRecord) ∧
        let taken := h.takeRecord s.island.record s.island.events
        exec (.islandRecord true) s = .next { s with
          head := taken, island := { s.island with events := [] }
          wires := { s.wires with
            ack := taken.ackOuts, early := band s.wires.early taken.ss1Outs, askOff := s.wires.askOff && taken.on SAFE_CORE_ISLAND_CLOCK } }) ∧
      (∀ (n : Fin 4) (r : Recipe), h.boot.recipe = some r → r.early n.val = true → nth h.core.codes n.val = 1 → 16 ≤ nth h.core.still n.val →
        exec (.earlyOff n) s = .next { s with wires := { s.wires with early := setBit s.wires.early n.val } }) ∧
      (∀ tick : Nat, s.island.powered = true →
        exec (.islandWdChange tick) s = .next { s with
          head := h.wdInterval tick, wires := { s.wires with askOff := (h.wdInterval tick).on SAFE_CORE_ISLAND_CLOCK } }) ∧
      (h.boot.want = 0 →
        exec .islandLoss s = .next (s.setHead ((h.forward (h.core.lastChange.getD 0 + 200000)).loseIsland)) ∧
        exec .vddSafeLoss s = .next { s with
          head := (((List.range 4).foldl (fun (h : Head) k => h.commitCode k 2) h).loopsStop.setCore
            (fun x => { x with lastChange := none, badIvl := 0 })).loseIsland
          island := .off, wires := { s.wires with early := 0, ack := 0, askOff := false } })
end

