-- ==== Sys2Proof/Laws/Bits.lean ====
section
/-! SUPPORT. Laws of bit fields: reading back what was put, and that a put leaves the other bits. -/

namespace Sys2Proof.Machine

@[simp] theorem b2n_true : b2n true = 1 := rfl
@[simp] theorem b2n_false : b2n false = 0 := rfl
@[simp] theorem b2n_ne_zero (b : Bool) : (b2n b != 0) = b := by cases b <;> rfl
theorem b2n_le (b : Bool) : b2n b ≤ 1 := by cases b <;> decide

theorem bits_lt (w hi lo : Nat) : bits w hi lo < 2 ^ (hi + 1 - lo) := Nat.mod_lt _ (Nat.two_pow_pos _)

theorem bits_mul_le (w hi lo : Nat) : bits w hi lo * 2 ^ lo ≤ w := by
  unfold bits
  calc w / 2 ^ lo % 2 ^ (hi + 1 - lo) * 2 ^ lo ≤ w / 2 ^ lo * 2 ^ lo := Nat.mul_le_mul_right _ (Nat.mod_le _ _)
    _ ≤ w := Nat.div_mul_le_self _ _

/-- A word cut at a field: the bits above it, the field, the bits below it. -/
theorem bits_split (w hi lo : Nat) (h : lo ≤ hi + 1) :
    w = w / 2 ^ (hi + 1) * 2 ^ (hi + 1) + bits w hi lo * 2 ^ lo + w % 2 ^ lo := by
  have e : 2 ^ (hi + 1) = 2 ^ lo * 2 ^ (hi + 1 - lo) := by rw [← pow_add]; congr 1; omega
  have h1 : w / 2 ^ (hi + 1) = w / 2 ^ lo / 2 ^ (hi + 1 - lo) := by rw [e, Nat.div_div_eq_div_mul]
  have h2 := Nat.div_add_mod w (2 ^ lo)
  have h3 := Nat.div_add_mod (w / 2 ^ lo) (2 ^ (hi + 1 - lo))
  unfold bits
  rw [h1, e]
  generalize w / 2 ^ lo / 2 ^ (hi + 1 - lo) = a at *
  generalize w / 2 ^ lo % 2 ^ (hi + 1 - lo) = b at *
  rw [← h3] at h2
  nlinarith [h2]

/-- A digit and what stands below it. -/
theorem digit_lt {a c p q : Nat} (ha : a < q) (hc : c < p) : a * p + c < p * q := by
  have h : (a + 1) * p ≤ q * p := Nat.mul_le_mul_right p ha
  rw [Nat.add_mul, Nat.one_mul] at h
  rw [Nat.mul_comm p q]
  omega

/-- A put as the sum of the bits above, the value and the bits below. -/
theorem putBits_eq (w hi lo v : Nat) (h : lo ≤ hi + 1) :
    putBits w hi lo v = w / 2 ^ (hi + 1) * 2 ^ (hi + 1) + v % 2 ^ (hi + 1 - lo) * 2 ^ lo + w % 2 ^ lo := by
  have hs := bits_split w hi lo h
  unfold putBits
  omega

@[simp] theorem bits_putBits (w hi lo v : Nat) (h : lo ≤ hi + 1) : bits (putBits w hi lo v) hi lo = v % 2 ^ (hi + 1 - lo) := by
  have e : 2 ^ (hi + 1) = 2 ^ lo * 2 ^ (hi + 1 - lo) := by rw [← pow_add]; congr 1; omega
  rw [putBits_eq w hi lo v h, bits, e]
  have p := Nat.two_pow_pos lo
  have q := Nat.mod_lt w p
  have r : (w / (2 ^ lo * 2 ^ (hi + 1 - lo)) * (2 ^ lo * 2 ^ (hi + 1 - lo)) + v % 2 ^ (hi + 1 - lo) * 2 ^ lo + w % 2 ^ lo) / 2 ^ lo =
      w / (2 ^ lo * 2 ^ (hi + 1 - lo)) * 2 ^ (hi + 1 - lo) + v % 2 ^ (hi + 1 - lo) := by
    have s : w / (2 ^ lo * 2 ^ (hi + 1 - lo)) * (2 ^ lo * 2 ^ (hi + 1 - lo)) + v % 2 ^ (hi + 1 - lo) * 2 ^ lo + w % 2 ^ lo =
        w % 2 ^ lo + 2 ^ lo * (w / (2 ^ lo * 2 ^ (hi + 1 - lo)) * 2 ^ (hi + 1 - lo) + v % 2 ^ (hi + 1 - lo)) := by ring
    rw [s, Nat.add_mul_div_left _ _ p, Nat.div_eq_of_lt q, Nat.zero_add]
  rw [r, Nat.add_comm, Nat.add_mul_mod_self_right, Nat.mod_mod]

theorem putBits_lt (w hi lo v n : Nat) (h : lo ≤ hi + 1) (hn : hi < n) (hw : w < 2 ^ n) : putBits w hi lo v < 2 ^ n := by
  rw [putBits_eq w hi lo v h]
  have e : 2 ^ (hi + 1) = 2 ^ lo * 2 ^ (hi + 1 - lo) := by rw [← pow_add]; congr 1; omega
  have e2 : 2 ^ n = 2 ^ (hi + 1) * 2 ^ (n - (hi + 1)) := by rw [← pow_add]; congr 1; omega
  have h1 : w / 2 ^ (hi + 1) < 2 ^ (n - (hi + 1)) := by rw [Nat.div_lt_iff_lt_mul (Nat.two_pow_pos _), Nat.mul_comm, ← e2]; exact hw
  have h2 := Nat.mod_lt v (Nat.two_pow_pos (hi + 1 - lo))
  have h3 := Nat.mod_lt w (Nat.two_pow_pos lo)
  rw [e2]
  have h4 : v % 2 ^ (hi + 1 - lo) * 2 ^ lo + w % 2 ^ lo < 2 ^ (hi + 1) := by rw [e]; exact digit_lt h2 h3
  rw [Nat.add_assoc]
  exact digit_lt h1 h4

/-- A field above the one that was put keeps its value. -/
theorem bits_putBits_above (w hi lo v hi' lo' : Nat) (h : lo ≤ hi + 1) (ha : hi < lo') : bits (putBits w hi lo v) hi' lo' = bits w hi' lo' := by
  have e : 2 ^ lo' = 2 ^ (hi + 1) * 2 ^ (lo' - (hi + 1)) := by rw [← pow_add]; congr 1; omega
  have k (x : Nat) : x / 2 ^ lo' = x / 2 ^ (hi + 1) / 2 ^ (lo' - (hi + 1)) := by rw [e, Nat.div_div_eq_div_mul]
  unfold bits
  rw [k, k]
  congr 2
  rw [putBits_eq w hi lo v h, Nat.div_eq_iff (Nat.two_pow_pos _)]
  have e' : 2 ^ (hi + 1) = 2 ^ lo * 2 ^ (hi + 1 - lo) := by rw [← pow_add]; congr 1; omega
  have h2 := Nat.mod_lt v (Nat.two_pow_pos (hi + 1 - lo))
  have h3 := Nat.mod_lt w (Nat.two_pow_pos lo)
  have h4 : v % 2 ^ (hi + 1 - lo) * 2 ^ lo + w % 2 ^ lo < 2 ^ (hi + 1) := by rw [e']; exact digit_lt h2 h3
  constructor <;> omega

/-- A field below the one that was put keeps its value. -/
theorem bits_putBits_below (w hi lo v hi' lo' : Nat) (h : lo ≤ hi + 1) (hb : hi' < lo) : bits (putBits w hi lo v) hi' lo' = bits w hi' lo' := by
  have low (x : Nat) : bits x hi' lo' = x % 2 ^ (hi' + 1) / 2 ^ lo' := by
    unfold bits
    by_cases hl : lo' ≤ hi' + 1
    · have e : 2 ^ (hi' + 1) = 2 ^ lo' * 2 ^ (hi' + 1 - lo') := by rw [← pow_add]; congr 1; omega
      rw [e, Nat.mod_mul_right_div_self]
    · have z : hi' + 1 - lo' = 0 := by omega
      rw [z, pow_zero, Nat.mod_one, Nat.div_eq_of_lt]
      exact lt_of_lt_of_le (Nat.mod_lt _ (Nat.two_pow_pos _)) (Nat.pow_le_pow_right (by omega) (by omega))
  have e : 2 ^ lo = 2 ^ (hi' + 1) * 2 ^ (lo - (hi' + 1)) := by rw [← pow_add]; congr 1; omega
  have e' : 2 ^ (hi + 1) = 2 ^ lo * 2 ^ (hi + 1 - lo) := by rw [← pow_add]; congr 1; omega
  rw [low, low]
  congr 1
  have m : putBits w hi lo v % 2 ^ lo = w % 2 ^ lo := by
    rw [putBits_eq w hi lo v h, e']
    have : w / (2 ^ lo * 2 ^ (hi + 1 - lo)) * (2 ^ lo * 2 ^ (hi + 1 - lo)) + v % 2 ^ (hi + 1 - lo) * 2 ^ lo + w % 2 ^ lo =
        w % 2 ^ lo + 2 ^ lo * (w / (2 ^ lo * 2 ^ (hi + 1 - lo)) * 2 ^ (hi + 1 - lo) + v % 2 ^ (hi + 1 - lo)) := by ring
    rw [this, Nat.add_mul_mod_self_left, Nat.mod_mod]
  have d : 2 ^ (hi' + 1) ∣ 2 ^ lo := ⟨_, e⟩
  rw [← Nat.mod_mod_of_dvd (putBits w hi lo v) d, m, Nat.mod_mod_of_dvd _ d]

/-- A bit is a field of one bit. -/
theorem bit_eq_bits (w k : Nat) : bit w k = (bits w k k == 1) := by simp [bit, bits]

end Sys2Proof.Machine
end

