-- ==== Sys2Proof/Laws/Tbl.lean ====
section
/-! SUPPORT. Laws of the sparse tables: a read after a write, and that every operation keeps the canonical form. -/

namespace Sys2Proof.Machine

variable {α : Type}

@[simp] theorem Tbl.get_nil (d : Nat → α) (k : Nat) : Tbl.get d [] k = d k := rfl

theorem Tbl.get_ins (d : Nat → α) (t : Tbl α) (k j : Nat) (v : α) :
    (t.ins k v).get d j = if j = k then v else t.get d j := by
  induction t with
  | nil => simp [Tbl.ins, Tbl.get]
  | cons e t ih =>
    obtain ⟨k', v'⟩ := e
    simp only [Tbl.ins]
    by_cases h1 : k < k'
    · simp only [if_pos h1, Tbl.get]
    · by_cases h2 : k = k'
      · subst h2; by_cases hj : j = k <;> simp [Tbl.get, hj]
      · simp only [if_neg h1, if_neg h2, Tbl.get, ih]; split_ifs <;> first | rfl | omega

theorem Tbl.get_del (d : Nat → α) (t : Tbl α) (k j : Nat) :
    (t.del k).get d j = if j = k then d j else t.get d j := by
  induction t with
  | nil => simp [Tbl.del, Tbl.get]
  | cons e t ih =>
    obtain ⟨k', v'⟩ := e
    simp only [Tbl.del]
    split_ifs with h1 h2 h2
    · rw [ih, if_pos h2]
    · subst h1; simp [ih, Tbl.get, h2]
    · subst h2; simp [Tbl.get, ih, h1]
    · simp [Tbl.get, ih, h2]

/-- A read after a write. -/
@[simp] theorem Tbl.get_set [DecidableEq α] (d : Nat → α) (t : Tbl α) (k j : Nat) (v : α) :
    (t.set d k v).get d j = if j = k then v else t.get d j := by
  unfold Tbl.set
  split_ifs with h1 h2 h2
  · subst h2; simp [Tbl.get_del, h1]
  · simp [Tbl.get_del, h2]
  · simp [Tbl.get_ins, h2]
  · simp [Tbl.get_ins, h2]

theorem Tbl.get_setList [DecidableEq α] (d : Nat → α) (t : Tbl α) (k j : Nat) (vs : List α) :
    (t.setList d k vs).get d j = if k ≤ j ∧ j < k + vs.length then vs.getD (j - k) (d j) else t.get d j := by
  induction vs generalizing t k with
  | nil => simp [Tbl.setList]
  | cons v vs ih =>
    simp only [Tbl.setList, ih, Tbl.get_set, List.length_cons]
    by_cases h : j = k
    · subst h; simp
    · by_cases h2 : k ≤ j
      · obtain ⟨m, rfl⟩ : ∃ m, j = k + 1 + m := ⟨j - k - 1, by omega⟩
        have e1 : k + 1 + m - k = m + 1 := by omega
        have e2 : k + 1 + m - (k + 1) = m := by omega
        simp only [e1, e2, List.getD_cons_succ, h, if_false]
        split_ifs <;> first | rfl | omega
      · rw [if_neg (by omega), if_neg h, if_neg (by omega)]

/-! ## Canonical form -/

theorem Tbl.risingFrom_mono {b c : Nat} {t : Tbl α} (h : t.risingFrom c = true) (hb : b ≤ c) : t.risingFrom b = true := by
  cases t with
  | nil => rfl
  | cons e t => simp only [Tbl.risingFrom, Bool.and_eq_true, decide_eq_true_eq] at *; exact ⟨by omega, h.2⟩

theorem Tbl.risingFrom_ins {b k : Nat} {t : Tbl α} (v : α) (h : t.risingFrom b = true) (hk : b ≤ k) :
    (t.ins k v).risingFrom b = true := by
  induction t generalizing b with
  | nil => simp [Tbl.ins, Tbl.risingFrom, hk]
  | cons e t ih =>
    obtain ⟨k', v'⟩ := e
    simp only [Tbl.risingFrom, Bool.and_eq_true, decide_eq_true_eq] at h
    simp only [Tbl.ins]
    split_ifs with h1 h2
    · simp only [Tbl.risingFrom, Bool.and_eq_true, decide_eq_true_eq]
      exact ⟨hk, by omega, h.2⟩
    · subst h2; simp only [Tbl.risingFrom, Bool.and_eq_true, decide_eq_true_eq]; exact ⟨hk, h.2⟩
    · simp only [Tbl.risingFrom, Bool.and_eq_true, decide_eq_true_eq]; exact ⟨h.1, ih h.2 (by omega)⟩

theorem Tbl.risingFrom_del {b : Nat} {t : Tbl α} (k : Nat) (h : t.risingFrom b = true) : (t.del k).risingFrom b = true := by
  induction t generalizing b with
  | nil => rfl
  | cons e t ih =>
    obtain ⟨k', v'⟩ := e
    simp only [Tbl.risingFrom, Bool.and_eq_true, decide_eq_true_eq] at h
    simp only [Tbl.del]
    split_ifs
    · exact Tbl.risingFrom_mono (ih h.2) (by omega)
    · simp only [Tbl.risingFrom, Bool.and_eq_true, decide_eq_true_eq]; exact ⟨h.1, ih h.2⟩

theorem Tbl.mem_ins {e : Nat × α} {k : Nat} {v : α} {t : Tbl α} (h : e ∈ t.ins k v) : e = (k, v) ∨ e ∈ t := by
  induction t with
  | nil => simpa [Tbl.ins] using h
  | cons a t ih =>
    obtain ⟨k', v'⟩ := a
    simp only [Tbl.ins] at h
    split_ifs at h <;> simp only [List.mem_cons] at h ⊢
    · tauto
    · tauto
    · rcases h with h | h
      · tauto
      · rcases ih h with h | h <;> tauto

theorem Tbl.mem_del {e : Nat × α} {k : Nat} {t : Tbl α} (h : e ∈ t.del k) : e ∈ t := by
  induction t with
  | nil => simp [Tbl.del] at h
  | cons a t ih =>
    obtain ⟨k', v'⟩ := a
    simp only [Tbl.del] at h
    split_ifs at h
    · exact List.mem_cons_of_mem _ (ih h)
    · simp only [List.mem_cons] at h ⊢; rcases h with h | h
      · exact .inl h
      · exact .inr (ih h)

/-- A write keeps the canonical form. -/
theorem Tbl.wf_set [DecidableEq α] {d : Nat → α} {t : Tbl α} (k : Nat) (v : α) (h : t.wf d = true) : (t.set d k v).wf d = true := by
  simp only [Tbl.wf, Bool.and_eq_true, List.all_eq_true, decide_eq_true_eq] at h ⊢
  unfold Tbl.set
  split_ifs with hv
  · exact ⟨Tbl.risingFrom_del k h.1, fun e he => h.2 e (Tbl.mem_del he)⟩
  · refine ⟨Tbl.risingFrom_ins v h.1 (by omega), fun e he => ?_⟩
    rcases Tbl.mem_ins he with rfl | he
    · exact hv
    · exact h.2 e he

theorem Tbl.wf_modify [DecidableEq α] {d : Nat → α} {t : Tbl α} (k : Nat) (f : α → α) (h : t.wf d = true) :
    (t.modify d k f).wf d = true := Tbl.wf_set _ _ h

theorem Tbl.wf_setList [DecidableEq α] {d : Nat → α} {t : Tbl α} (k : Nat) (vs : List α) (h : t.wf d = true) :
    (t.setList d k vs).wf d = true := by
  induction vs generalizing t k with
  | nil => exact h
  | cons v vs ih => exact ih _ (Tbl.wf_set _ _ h)

theorem Tbl.wf_nil [DecidableEq α] (d : Nat → α) : Tbl.wf d ([] : Tbl α) = true := rfl

theorem Tbl.risingFrom_filter {b : Nat} {t : Tbl α} (p : Nat × α → Bool) (h : t.risingFrom b = true) :
    Tbl.risingFrom b (t.filter p) = true := by
  induction t generalizing b with
  | nil => rfl
  | cons e t ih =>
    obtain ⟨k', v'⟩ := e
    simp only [Tbl.risingFrom, Bool.and_eq_true, decide_eq_true_eq] at h
    simp only [List.filter_cons]
    split_ifs
    · simp only [Tbl.risingFrom, Bool.and_eq_true, decide_eq_true_eq]; exact ⟨h.1, ih h.2⟩
    · exact Tbl.risingFrom_mono (ih h.2) (by omega)

/-- Dropping entries keeps the canonical form. -/
theorem Tbl.wf_filter [DecidableEq α] {d : Nat → α} {t : Tbl α} (p : Nat × α → Bool) (h : t.wf d = true) :
    Tbl.wf d (t.filter p) = true := by
  simp only [Tbl.wf, Bool.and_eq_true, List.all_eq_true, decide_eq_true_eq] at h ⊢
  exact ⟨Tbl.risingFrom_filter p h.1, fun e he => h.2 e (List.mem_filter.mp he).1⟩

end Sys2Proof.Machine
end

