-- ==== Sys2Proof/Laws/State.lean ====
section
/-! SUPPORT. What each update of the machine leaves alone: one lemma for each field and update. -/

namespace Sys2Proof.Machine

variable (s : State)

/-! ## The head replaced -/

@[simp] theorem State.setHead_head (h : Head) : (s.setHead h).head = h := rfl
@[simp] theorem State.setHead_store (h : Head) : (s.setHead h).store = s.store := rfl
@[simp] theorem State.setHead_island (h : Head) : (s.setHead h).island = s.island := rfl
@[simp] theorem State.setHead_wires (h : Head) : (s.setHead h).wires = s.wires := rfl
@[simp] theorem State.setHead_tap (h : Head) : (s.setHead h).tap = s.tap := rfl
@[simp] theorem State.setHead_inReset (h : Head) : (s.setHead h).inReset = s.inReset := rfl
@[simp] theorem State.setHead_stopped (h : Head) : (s.setHead h).stopped = s.stopped := rfl
@[simp] theorem State.setHead_cause (h : Head) : (s.setHead h).cause = s.cause := rfl
@[simp] theorem State.setHead_pending (h : Head) : (s.setHead h).pending = s.pending := rfl

/-! ## The island replaced -/

@[simp] theorem State.onIsland_head (f : Island → Island) : (s.onIsland f).head = s.head := rfl
@[simp] theorem State.onIsland_store (f : Island → Island) : (s.onIsland f).store = s.store := rfl
@[simp] theorem State.onIsland_island (f : Island → Island) : (s.onIsland f).island = f s.island := rfl
@[simp] theorem State.onIsland_wires (f : Island → Island) : (s.onIsland f).wires = s.wires := rfl
@[simp] theorem State.onIsland_tap (f : Island → Island) : (s.onIsland f).tap = s.tap := rfl
@[simp] theorem State.onIsland_inReset (f : Island → Island) : (s.onIsland f).inReset = s.inReset := rfl
@[simp] theorem State.onIsland_stopped (f : Island → Island) : (s.onIsland f).stopped = s.stopped := rfl
@[simp] theorem State.onIsland_cause (f : Island → Island) : (s.onIsland f).cause = s.cause := rfl
@[simp] theorem State.onIsland_pending (f : Island → Island) : (s.onIsland f).pending = s.pending := rfl

/-! ## A flash operation cut short, and the fall into reset -/

@[simp] theorem State.tear_island (a n : Nat) : (s.tear a n).island = s.island := rfl
@[simp] theorem State.tear_wires (a n : Nat) : (s.tear a n).wires = s.wires := rfl
@[simp] theorem State.tear_tap (a n : Nat) : (s.tear a n).tap = s.tap := rfl
@[simp] theorem State.tear_inReset (a n : Nat) : (s.tear a n).inReset = s.inReset := rfl
@[simp] theorem State.tear_stopped (a n : Nat) : (s.tear a n).stopped = s.stopped := rfl
@[simp] theorem State.tear_cause (a n : Nat) : (s.tear a n).cause = s.cause := rfl
@[simp] theorem State.tear_pending (a n : Nat) : (s.tear a n).pending = s.pending := rfl
@[simp] theorem State.tear_key (a n : Nat) : (s.tear a n).store.key = s.store.key := rfl
@[simp] theorem State.tear_trim (a n : Nat) : (s.tear a n).store.trim = s.store.trim := rfl
@[simp] theorem State.tear_uid (a n : Nat) : (s.tear a n).store.uid = s.store.uid := rfl

@[simp] theorem Store.erase_key (t : Store) (a n : Nat) : (t.erase a n).key = t.key := rfl
@[simp] theorem Store.erase_trim (t : Store) (a n : Nat) : (t.erase a n).trim = t.trim := rfl
@[simp] theorem Store.erase_uid (t : Store) (a n : Nat) : (t.erase a n).uid = t.uid := rfl
@[simp] theorem Store.program_key (t : Store) (a : Nat) (b : List Nat) : (t.program a b).key = t.key := rfl
@[simp] theorem Store.program_trim (t : Store) (a : Nat) (b : List Nat) : (t.program a b).trim = t.trim := rfl
@[simp] theorem Store.program_uid (t : Store) (a : Nat) (b : List Nat) : (t.program a b).uid = t.uid := rfl
@[simp] theorem Store.perform_key (t : Store) (x : FlashOp) : (t.perform x).key = t.key := by cases x <;> rfl
@[simp] theorem Store.perform_trim (t : Store) (x : FlashOp) : (t.perform x).trim = t.trim := by cases x <;> rfl
@[simp] theorem Store.perform_uid (t : Store) (x : FlashOp) : (t.perform x).uid = t.uid := by cases x <;> rfl

@[simp] theorem State.cutFlash_island : s.cutFlash.island = s.island := by
  unfold State.cutFlash; split <;> dsimp only <;> split <;> rfl
@[simp] theorem State.cutFlash_wires : s.cutFlash.wires = s.wires := by
  unfold State.cutFlash; split <;> dsimp only <;> split <;> rfl
@[simp] theorem State.cutFlash_tap : s.cutFlash.tap = s.tap := by
  unfold State.cutFlash; split <;> dsimp only <;> split <;> rfl
@[simp] theorem State.cutFlash_inReset : s.cutFlash.inReset = s.inReset := by
  unfold State.cutFlash; split <;> dsimp only <;> split <;> rfl
@[simp] theorem State.cutFlash_stopped : s.cutFlash.stopped = s.stopped := by
  unfold State.cutFlash; split <;> dsimp only <;> split <;> rfl
@[simp] theorem State.cutFlash_cause : s.cutFlash.cause = s.cause := by
  unfold State.cutFlash; split <;> dsimp only <;> split <;> rfl
@[simp] theorem State.cutFlash_pending : s.cutFlash.pending = s.pending := by
  unfold State.cutFlash; split <;> dsimp only <;> split <;> rfl
@[simp] theorem State.cutFlash_key : s.cutFlash.store.key = s.store.key := by
  unfold State.cutFlash; split <;> dsimp only <;> split <;> simp
@[simp] theorem State.cutFlash_trim : s.cutFlash.store.trim = s.store.trim := by
  unfold State.cutFlash; split <;> dsimp only <;> split <;> simp
@[simp] theorem State.cutFlash_uid : s.cutFlash.store.uid = s.store.uid := by
  unfold State.cutFlash; split <;> dsimp only <;> split <;> simp

@[simp] theorem State.enterReset_inReset (c : Nat) : (s.enterReset c).inReset = true := rfl
@[simp] theorem State.enterReset_stopped (c : Nat) : (s.enterReset c).stopped = false := rfl
@[simp] theorem State.enterReset_cause (c : Nat) : (s.enterReset c).cause = c := rfl
@[simp] theorem State.enterReset_head (c : Nat) : (s.enterReset c).head = { Head.initial with draws := s.cutFlash.head.draws } := rfl
@[simp] theorem State.enterReset_store (c : Nat) : (s.enterReset c).store = s.cutFlash.store := rfl
@[simp] theorem State.enterReset_island (c : Nat) : (s.enterReset c).island = s.island := s.cutFlash_island
@[simp] theorem State.enterReset_tap (c : Nat) : (s.enterReset c).tap = s.tap := s.cutFlash_tap
@[simp] theorem State.enterReset_pending (c : Nat) : (s.enterReset c).pending = s.pending := s.cutFlash_pending

/-! ## Key programming, trim commit, and what follows a command for the head -/

@[simp] theorem State.programKey_island (r : Option (List Word)) : (s.programKey r).island = s.island := by
  unfold State.programKey; split <;> rfl
@[simp] theorem State.retrim_island (t : Tbl Word) (h : Head) : (s.retrim t h).island = s.island := rfl
@[simp] theorem State.commitTrim_island : s.commitTrim.island = s.island := s.retrim_island _ _
@[simp] theorem State.programKey_wires (r : Option (List Word)) : (s.programKey r).wires = s.wires := by
  unfold State.programKey; split <;> rfl
@[simp] theorem State.retrim_wires (t : Tbl Word) (h : Head) : (s.retrim t h).wires = s.wires := rfl
@[simp] theorem State.commitTrim_wires : s.commitTrim.wires = s.wires := s.retrim_wires _ _
@[simp] theorem State.programKey_tap (r : Option (List Word)) : (s.programKey r).tap = s.tap := by
  unfold State.programKey; split <;> rfl
@[simp] theorem State.retrim_tap (t : Tbl Word) (h : Head) : (s.retrim t h).tap = s.tap := rfl
@[simp] theorem State.commitTrim_tap : s.commitTrim.tap = s.tap := s.retrim_tap _ _
@[simp] theorem State.programKey_inReset (r : Option (List Word)) : (s.programKey r).inReset = s.inReset := by
  unfold State.programKey; split <;> rfl
@[simp] theorem State.retrim_inReset (t : Tbl Word) (h : Head) : (s.retrim t h).inReset = s.inReset := rfl
@[simp] theorem State.commitTrim_inReset : s.commitTrim.inReset = s.inReset := s.retrim_inReset _ _
@[simp] theorem State.programKey_stopped (r : Option (List Word)) : (s.programKey r).stopped = s.stopped := by
  unfold State.programKey; split <;> rfl
@[simp] theorem State.retrim_stopped (t : Tbl Word) (h : Head) : (s.retrim t h).stopped = s.stopped := rfl
@[simp] theorem State.commitTrim_stopped : s.commitTrim.stopped = s.stopped := s.retrim_stopped _ _
@[simp] theorem State.programKey_cause (r : Option (List Word)) : (s.programKey r).cause = s.cause := by
  unfold State.programKey; split <;> rfl
@[simp] theorem State.retrim_cause (t : Tbl Word) (h : Head) : (s.retrim t h).cause = s.cause := rfl
@[simp] theorem State.commitTrim_cause : s.commitTrim.cause = s.cause := s.retrim_cause _ _
@[simp] theorem State.programKey_pending (r : Option (List Word)) : (s.programKey r).pending = s.pending := by
  unfold State.programKey; split <;> rfl
@[simp] theorem State.retrim_pending (t : Tbl Word) (h : Head) : (s.retrim t h).pending = s.pending := rfl
@[simp] theorem State.commitTrim_pending : s.commitTrim.pending = s.pending := s.retrim_pending _ _
@[simp] theorem State.retrim_key (t : Tbl Word) (h : Head) : (s.retrim t h).store.key = s.store.key := rfl
@[simp] theorem State.retrim_flash (t : Tbl Word) (h : Head) : (s.retrim t h).store.flash = s.store.flash := rfl
@[simp] theorem State.retrim_uid (t : Tbl Word) (h : Head) : (s.retrim t h).store.uid = s.store.uid := rfl
@[simp] theorem State.retrim_trim (t : Tbl Word) (h : Head) : (s.retrim t h).store.trim = t := rfl
@[simp] theorem State.commitTrim_key : s.commitTrim.store.key = s.store.key := s.retrim_key _ _
@[simp] theorem State.commitTrim_flash : s.commitTrim.store.flash = s.store.flash := s.retrim_flash _ _
@[simp] theorem State.commitTrim_uid : s.commitTrim.store.uid = s.store.uid := s.retrim_uid _ _
@[simp] theorem State.commitTrim_trim : s.commitTrim.store.trim = Tbl.setList zeroWord [] 0 s.head.trimWords := s.retrim_trim _ _
@[simp] theorem State.programKey_flash (r : Option (List Word)) : (s.programKey r).store.flash = s.store.flash := by
  unfold State.programKey; split <;> rfl
@[simp] theorem State.programKey_uid (r : Option (List Word)) : (s.programKey r).store.uid = s.store.uid := by
  unfold State.programKey; split <;> rfl
@[simp] theorem State.programKey_trim (r : Option (List Word)) : (s.programKey r).store.trim = s.store.trim := by
  unfold State.programKey; split <;> rfl

/-- Everything that settling can do. -/
theorem State.settle_cases (r : Option (List Word)) :
    (s.head.boot.want = 0 ∧ s.settle r = s) ∨
    (∃ t : State, t = s.setHead (s.head.setBoot (fun b => { b with want := 0 })) ∧ s.head.boot.want ≠ 0 ∧
      (s.settle r = t.enterReset 4 ∨ s.settle r = t ∨ s.settle r = t.programKey r ∨ s.settle r = t.commitTrim ∨
        s.settle r = (t.programKey r).commitTrim)) := by
  by_cases hw : s.head.boot.want = 0
  · left; simp [State.settle, hw]
  · right
    refine ⟨_, rfl, hw, ?_⟩
    simp only [State.settle, hw, if_false]
    split_ifs <;> simp

@[simp] theorem State.settle_none_want (h : s.head.boot.want = 0) (r : Option (List Word)) : s.settle r = s := by
  simp [State.settle, h]

@[simp] theorem State.settle_island (r : Option (List Word)) : (s.settle r).island = s.island := by
  rcases s.settle_cases r with ⟨_, e⟩ | ⟨t, rfl, _, e | e | e | e | e⟩ <;> simp [e]
@[simp] theorem State.onHeadThen_island (r : Option (List Word)) (f : Head → Head) : (s.onHeadThen r f).island = s.island := by
  unfold State.onHeadThen; split <;> simp
@[simp] theorem State.onHead_island (f : Head → Head) : (s.onHead f).island = s.island := s.onHeadThen_island none f
@[simp] theorem State.settle_tap (r : Option (List Word)) : (s.settle r).tap = s.tap := by
  rcases s.settle_cases r with ⟨_, e⟩ | ⟨t, rfl, _, e | e | e | e | e⟩ <;> simp [e]
@[simp] theorem State.onHeadThen_tap (r : Option (List Word)) (f : Head → Head) : (s.onHeadThen r f).tap = s.tap := by
  unfold State.onHeadThen; split <;> simp
@[simp] theorem State.onHead_tap (f : Head → Head) : (s.onHead f).tap = s.tap := s.onHeadThen_tap none f
@[simp] theorem State.settle_pending (r : Option (List Word)) : (s.settle r).pending = s.pending := by
  rcases s.settle_cases r with ⟨_, e⟩ | ⟨t, rfl, _, e | e | e | e | e⟩ <;> simp [e]
@[simp] theorem State.onHeadThen_pending (r : Option (List Word)) (f : Head → Head) : (s.onHeadThen r f).pending = s.pending := by
  unfold State.onHeadThen; split <;> simp
@[simp] theorem State.onHead_pending (f : Head → Head) : (s.onHead f).pending = s.pending := s.onHeadThen_pending none f

/-- A command for the head that asks for nothing beyond it. -/
theorem State.onHead_eq (f : Head → Head) (hr : s.inReset = false) (hw : (f s.head).boot.want = 0) :
    s.onHead f = s.setHead (f s.head) := by
  simp [State.onHead, State.onHeadThen, hr, hw]

/-- In reset a command for the head does nothing. -/
theorem State.onHead_inReset (f : Head → Head) (hr : s.inReset = true) : s.onHead f = s := by
  simp [State.onHead, State.onHeadThen, hr]

end Sys2Proof.Machine
end

