-- ==== Sys2Proof/Laws/Whole.lean ====
section
/-! SUPPORT. What the operations of the whole machine leave alone: the queue, the island, the stores. -/

namespace Sys2Proof.Machine

variable (s : State)

@[simp] theorem State.eraseLog_pending (d : Directory) (k : Nat) : (s.eraseLog d k).pending = s.pending := rfl
@[simp] theorem State.programLog_pending (d : Directory) (r : LogRec) (n : Nat) : (s.programLog d r n).pending = s.pending := rfl
@[simp] theorem State.eraseLog_island (d : Directory) (k : Nat) : (s.eraseLog d k).island = s.island := rfl
@[simp] theorem State.programLog_island (d : Directory) (r : LogRec) (n : Nat) : (s.programLog d r n).island = s.island := rfl
@[simp] theorem State.eraseLog_inReset (d : Directory) (k : Nat) : (s.eraseLog d k).inReset = s.inReset := rfl
@[simp] theorem State.programLog_inReset (d : Directory) (r : LogRec) (n : Nat) : (s.programLog d r n).inReset = s.inReset := rfl
@[simp] theorem State.eraseLog_tap (d : Directory) (k : Nat) : (s.eraseLog d k).tap = s.tap := rfl
@[simp] theorem State.programLog_tap (d : Directory) (r : LogRec) (n : Nat) : (s.programLog d r n).tap = s.tap := rfl

@[simp] theorem State.logPrepare_pending (d : Directory) : (s.logPrepare d).pending = s.pending := by unfold State.logPrepare; split <;> rfl
@[simp] theorem State.logProgram_pending (d : Directory) (r : LogRec) : (s.logProgram d r).pending = s.pending := rfl
@[simp] theorem State.logAhead_pending (d : Directory) (b : Bool) : (s.logAhead d b).pending = s.pending := by
  unfold State.logAhead; split_ifs <;> rfl
@[simp] theorem State.logPrepare_island (d : Directory) : (s.logPrepare d).island = s.island := by unfold State.logPrepare; split <;> rfl
@[simp] theorem State.logProgram_island (d : Directory) (r : LogRec) : (s.logProgram d r).island = s.island := rfl
@[simp] theorem State.logAhead_island (d : Directory) (b : Bool) : (s.logAhead d b).island = s.island := by
  unfold State.logAhead; split_ifs <;> rfl
@[simp] theorem State.logPrepare_inReset (d : Directory) : (s.logPrepare d).inReset = s.inReset := by unfold State.logPrepare; split <;> rfl
@[simp] theorem State.logProgram_inReset (d : Directory) (r : LogRec) : (s.logProgram d r).inReset = s.inReset := rfl
@[simp] theorem State.logAhead_inReset (d : Directory) (b : Bool) : (s.logAhead d b).inReset = s.inReset := by
  unfold State.logAhead; split_ifs <;> rfl
@[simp] theorem State.logPrepare_tap (d : Directory) : (s.logPrepare d).tap = s.tap := by unfold State.logPrepare; split <;> rfl
@[simp] theorem State.logProgram_tap (d : Directory) (r : LogRec) : (s.logProgram d r).tap = s.tap := rfl
@[simp] theorem State.logAhead_tap (d : Directory) (b : Bool) : (s.logAhead d b).tap = s.tap := by
  unfold State.logAhead; split_ifs <;> rfl
@[simp] theorem State.logRecordWrite_pending (b : LogEnd) : (s.logRecordWrite b).pending = s.pending := by
  unfold State.logRecordWrite; split_ifs <;> (try split) <;> simp
@[simp] theorem State.logRecordWrite_island (b : LogEnd) : (s.logRecordWrite b).island = s.island := by
  unfold State.logRecordWrite; split_ifs <;> (try split) <;> simp
@[simp] theorem State.logResume_pending : s.logResume.pending = s.pending := by
  simp [State.logResume]
@[simp] theorem State.logResume_island : s.logResume.island = s.island := by
  simp [State.logResume]
@[simp] theorem State.dropOut_pending (n : Option Nat) (c : Nat) : (s.dropOut n c).pending = s.pending := by
  unfold State.dropOut; split <;> (try split_ifs) <;> simp
@[simp] theorem State.dropOut_island (n : Option Nat) (c : Nat) : (s.dropOut n c).island = s.island := by
  unfold State.dropOut; split <;> (try split_ifs) <;> simp
@[simp] theorem State.sequence_pending (m : Nat) (r v o : Bool) : (s.sequence m r v o).pending = s.pending := by
  unfold State.sequence; split_ifs <;> simp
@[simp] theorem State.sequence_island (m : Nat) (r v o : Bool) : (s.sequence m r v o).island = s.island := by
  unfold State.sequence; split_ifs <;> simp
@[simp] theorem State.recipeLoad_pending (c : Content) (r : Option Nat) (f : Bool) (u : Nat) : (s.recipeLoad c r f u).pending = s.pending := by
  simp [State.recipeLoad]
@[simp] theorem State.recipeLoad_island (c : Content) (r : Option Nat) (f : Bool) (u : Nat) : (s.recipeLoad c r f u).island = s.island := by
  simp [State.recipeLoad]
@[simp] theorem State.flashDone_pending (g : Bool) : (s.flashDone g).pending = s.pending := by
  unfold State.flashDone; split_ifs <;> (try split) <;> simp
@[simp] theorem State.flashDone_island (g : Bool) : (s.flashDone g).island = s.island := by
  unfold State.flashDone; split_ifs <;> (try split) <;> simp
@[simp] theorem State.svcEnSeen_pending (b : Bool) : (s.svcEnSeen b).pending = s.pending := by
  unfold State.svcEnSeen; split_ifs <;> simp
@[simp] theorem State.svcEnSeen_island (b : Bool) : (s.svcEnSeen b).island = s.island := by
  unfold State.svcEnSeen; split_ifs <;> simp
@[simp] theorem State.testPort_pending (o : TapOp) (b c : Nat) : (s.testPort o b c).pending = s.pending := by
  unfold State.testPort; dsimp only; split <;> simp
@[simp] theorem State.testPort_island (o : TapOp) (b c : Nat) : (s.testPort o b c).island = s.island := by
  unfold State.testPort; dsimp only; split <;> simp
@[simp] theorem State.watchdogToggle_pending (b : Bool) : (s.watchdogToggle b).pending = s.pending := by
  unfold State.watchdogToggle; split_ifs <;> simp
@[simp] theorem State.watchdogToggle_island (b : Bool) : (s.watchdogToggle b).island = s.island := by
  unfold State.watchdogToggle; split_ifs <;> simp
@[simp] theorem State.paramTransfer_pending (b : Bool) : (s.paramTransfer b).pending = s.pending := by
  unfold State.paramTransfer; split <;> (try split_ifs) <;> simp
@[simp] theorem State.evaluationCycle_pending (x : EvalIn) : (s.evaluationCycle x).pending = s.pending := by
  rfl
@[simp] theorem State.islandRecord_pending (b : Bool) : (s.islandRecord b).pending = s.pending := by
  unfold State.islandRecord; split_ifs <;> simp
@[simp] theorem State.earlyOff_pending (n : Nat) : (s.earlyOff n).pending = s.pending := by
  unfold State.earlyOff; split_ifs <;> simp
@[simp] theorem State.earlyOff_island (n : Nat) : (s.earlyOff n).island = s.island := by
  unfold State.earlyOff; split_ifs <;> simp
@[simp] theorem State.islandWdChange_pending (t : Nat) : (s.islandWdChange t).pending = s.pending := by
  unfold State.islandWdChange; split_ifs <;> simp
@[simp] theorem State.islandWdChange_island (t : Nat) : (s.islandWdChange t).island = s.island := by
  unfold State.islandWdChange; split_ifs <;> simp
@[simp] theorem State.islandLoss_pending  : (s.islandLoss ).pending = s.pending := by
  simp [State.islandLoss]
@[simp] theorem State.islandLoss_island  : (s.islandLoss ).island = s.island := by
  simp [State.islandLoss]
@[simp] theorem State.vddSafeLoss_pending  : (s.vddSafeLoss ).pending = s.pending := by
  simp [State.vddSafeLoss]
@[simp] theorem State.write_pending (w : List (Nat × Nat)) : (s.write w).pending = s.pending := by
  simp [State.write]
@[simp] theorem State.write_island (w : List (Nat × Nat)) : (s.write w).island = s.island := by
  simp [State.write]
@[simp] theorem State.writeField_pending (f : Fld) (v : Nat) : (s.writeField f v).pending = s.pending := by
  simp [State.writeField]
@[simp] theorem State.writeField_island (f : Fld) (v : Nat) : (s.writeField f v).island = s.island := by
  simp [State.writeField]
@[simp] theorem State.read_pending (a : List Nat) : (s.read a).pending = s.pending := by
  simp [State.read]
@[simp] theorem State.read_island (a : List Nat) : (s.read a).island = s.island := by
  simp [State.read]
@[simp] theorem State.issue_pending (e : Fin 16) (i : LInstr) : (s.issue e i).pending = s.pending := by
  simp [State.issue]
@[simp] theorem State.issue_island (e : Fin 16) (i : LInstr) : (s.issue e i).island = s.island := by
  simp [State.issue]

end Sys2Proof.Machine
end

