-- ==== Sys2Proof/Laws/Stores.lean ====
section
/-! SUPPORT. The stores: every operation keeps their canonical form; which operations touch the key, the trim store and the flash. -/

namespace Sys2Proof.Machine

/-! ## Canonical form -/

theorem Store.wf_iff (t : Store) : t.wf = true ↔ Tbl.wf erased t.flash = true ∧ Tbl.wf zeroWord t.trim = true := by
  simp [Store.wf]

theorem Store.wf_erase {t : Store} (a n : Nat) (h : t.wf = true) : (t.erase a n).wf = true := by
  rw [Store.wf_iff] at *; exact ⟨Tbl.wf_filter _ h.1, h.2⟩

/-- Programming bytes keeps the canonical form. -/
theorem Tbl.wf_program {f : Tbl Byte} (a : Nat) (bs : List (Nat × Nat)) (h : Tbl.wf erased f = true) :
    Tbl.wf erased (bs.foldl (fun (f : Tbl Byte) b => f.set erased (a + b.2) (f.get erased (a + b.2) &&& BitVec.ofNat 8 b.1)) f) = true := by
  induction bs generalizing f with
  | nil => exact h
  | cons b bs ih => exact ih (Tbl.wf_set _ _ h)

theorem Store.wf_program {t : Store} (a : Nat) (b : List Nat) (h : t.wf = true) : (t.program a b).wf = true := by
  rw [Store.wf_iff] at *; exact ⟨Tbl.wf_program _ _ h.1, h.2⟩

theorem Store.wf_perform {t : Store} (x : FlashOp) (h : t.wf = true) : (t.perform x).wf = true := by
  cases x with
  | erase a => exact Store.wf_erase _ _ h
  | program a d => exact Store.wf_program _ _ h
  | read a => exact h
  | directory c b => exact Store.wf_program _ _ (Store.wf_erase _ _ h)

variable {s : State}

theorem State.wf_tear (a n : Nat) (h : s.store.wf = true) : (s.tear a n).store.wf = true := by
  rw [Store.wf_iff] at *; exact ⟨Tbl.wf_setList _ _ h.1, h.2⟩

theorem State.wf_cutFlash (h : s.store.wf = true) : s.cutFlash.store.wf = true := by
  have key (u : State) (hu : u.store.wf = true) : (match u.head.boot.dirOp with
      | some (.directory copyB _) => { u with store := u.store.erase (if copyB then 0x1000 else 0) 4096 }
      | _ => u).store.wf = true := by
    split
    · exact Store.wf_erase _ _ hu
    · exact hu
  unfold State.cutFlash
  split
  · exact key _ (State.wf_tear _ _ h)
  · exact key _ (State.wf_tear _ _ h)
  · exact key _ h

theorem State.wf_enterReset (c : Nat) (h : s.store.wf = true) : (s.enterReset c).store.wf = true := State.wf_cutFlash h

theorem State.wf_programKey (r : Option (List Word)) (h : s.store.wf = true) : (s.programKey r).store.wf = true := by
  rw [Store.wf_iff] at *; simpa [State.programKey_trim] using h

theorem State.wf_commitTrim (h : s.store.wf = true) : s.commitTrim.store.wf = true := by
  rw [Store.wf_iff] at *
  rw [s.commitTrim_trim, s.commitTrim_flash]
  exact ⟨h.1, Tbl.wf_setList _ _ (Tbl.wf_nil _)⟩

theorem State.wf_settle (r : Option (List Word)) (h : s.store.wf = true) : (s.settle r).store.wf = true := by
  have h' (x : Head) : (s.setHead x).store.wf = true := h
  rcases s.settle_cases r with ⟨_, e⟩ | ⟨t, rfl, _, e | e | e | e | e⟩ <;> rw [e]
  · exact h
  · exact State.wf_enterReset _ (h' _)
  · exact h' _
  · exact State.wf_programKey _ (h' _)
  · exact State.wf_commitTrim (h' _)
  · exact State.wf_commitTrim (State.wf_programKey _ (h' _))

theorem State.wf_onHeadThen (r : Option (List Word)) (f : Head → Head) (h : s.store.wf = true) : (s.onHeadThen r f).store.wf = true := by
  unfold State.onHeadThen
  split_ifs
  · exact h
  · exact State.wf_settle r h

theorem State.wf_onHead (f : Head → Head) (h : s.store.wf = true) : (s.onHead f).store.wf = true := State.wf_onHeadThen none f h

theorem State.wf_eraseLog (d : Directory) (k : Nat) (h : s.store.wf = true) : (s.eraseLog d k).store.wf = true := Store.wf_erase _ _ h

theorem State.wf_programLog (d : Directory) (r : LogRec) (n : Nat) (h : s.store.wf = true) : (s.programLog d r n).store.wf = true :=
  Store.wf_program _ _ h

theorem State.wf_logPrepare (d : Directory) (h : s.store.wf = true) : (s.logPrepare d).store.wf = true := by
  unfold State.logPrepare; split
  · exact State.wf_eraseLog _ _ h
  · exact h

theorem State.wf_logAhead (d : Directory) (b : Bool) (h : s.store.wf = true) : (s.logAhead d b).store.wf = true := by
  unfold State.logAhead; split_ifs
  · exact h
  · exact State.wf_eraseLog _ _ h
  · exact h

theorem State.wf_logRecordWrite (b : LogEnd) (h : s.store.wf = true) : (s.logRecordWrite b).store.wf = true := by
  unfold State.logRecordWrite
  by_cases hr : s.inReset = true ∨ (!s.head.logFree) = true
  · rw [if_pos hr]; exact h
  · rw [if_neg hr]
    split
    · split_ifs
      · exact h
      · exact State.wf_logPrepare _ h
      · exact State.wf_logAhead _ _ (State.wf_programLog _ _ _ (State.wf_logPrepare _ h))
    · exact h

theorem State.wf_dropOut (n : Option Nat) (c : Nat) (h : s.store.wf = true) : (s.dropOut n c).store.wf = true := by
  unfold State.dropOut
  refine State.wf_enterReset (c := c) ?_
  split
  · split_ifs
    · exact h
    · exact State.wf_programLog _ _ _ (State.wf_logPrepare _ h)
  · exact h

theorem State.wf_flashDone (g : Bool) (h : s.store.wf = true) : (s.flashDone g).store.wf = true := by
  have fin (x : FlashOp) (u : Head) : ({ s with head := u, store := if g then s.store.perform x else s.store } : State).store.wf = true := by
    cases g
    · exact h
    · exact Store.wf_perform _ h
  unfold State.flashDone
  by_cases hr : s.inReset = true
  · rw [if_pos hr]; exact h
  · rw [if_neg hr]
    split
    · exact fin _ _
    · exact fin _ _
    · exact h

end Sys2Proof.Machine
end

