-- ==== Sys2Proof/Laws/Exec.lean ====
section
/-! SUPPORT. What a command can do to the machine as a whole, said once: act on the head, step the island, or be one of the commands
that reach further. -/

namespace Sys2Proof.Machine

/-- Commands whose meaning is neither a command for the head nor a step of the island alone. -/
def wideCommand : Instr → Bool
  | .logRecordWrite _ | .testPortInstruction _ _ _ | .flashOperationDone _ | .watchdogToggle _ | .paramTransfer _ | .evaluationCycle _
  | .islandRecord _ | .earlyOff _ | .islandWdChange _ | .vddSafeLoss | .porstAssert _ | .mainRailLoss _ | .resetSequence _ _ _ _ => true
  | _ => false

/-- The outcome is that of a command for the head. -/
def HeadOutcome (s : State) (o : Host.Outcome State Fault Refusal) : Prop := ∃ r f, o = .next (s.onHeadThen r f)

theorem headOutcome_onHeadThen (s : State) (r : Option (List Word)) (f : Head → Head) : HeadOutcome s (.next (s.onHeadThen r f)) :=
  ⟨r, f, rfl⟩
theorem headOutcome_onHead (s : State) (f : Head → Head) : HeadOutcome s (.next (s.onHead f)) := ⟨none, f, rfl⟩
theorem headOutcome_write (s : State) (ws : List (Nat × Nat)) : HeadOutcome s (.next (s.write ws)) := headOutcome_onHead s _
theorem headOutcome_writeField (s : State) (f : Fld) (v : Nat) : HeadOutcome s (.next (s.writeField f v)) := headOutcome_onHead s _
theorem headOutcome_read (s : State) (a : List Nat) : HeadOutcome s (.next (s.read a)) := headOutcome_onHead s _
theorem headOutcome_issue (s : State) (e : Fin 16) (i : LInstr) : HeadOutcome s (.next (s.issue e i)) := headOutcome_onHead s _
theorem headOutcome_logResume (s : State) : HeadOutcome s (.next s.logResume) := headOutcome_onHead s _
theorem headOutcome_recipeLoad (s : State) (c : Content) (r : Option Nat) (f : Bool) (u : Nat) :
    HeadOutcome s (.next (s.recipeLoad c r f u)) := headOutcome_onHead s _
theorem headOutcome_islandLoss (s : State) : HeadOutcome s (.next s.islandLoss) := headOutcome_onHead s _

/-- Everything a command can do. -/
theorem exec_cases (c : Instr) (s : State) :
    HeadOutcome s (exec c s) ∨ (islandCommand c = true ∧ ∃ f, exec c s = .next (s.onIsland f)) ∨ wideCommand c = true := by
  cases c
  case lineTimeSet w => cases w <;> exact .inl (headOutcome_write s _)
  case sysSwrst | hostLoadStart | bootHlData | bootReloadReq | bootSlotUpdate | flashErase | flashProgram | flashRead
      | lowerWordWrite | upperWordWrite | w1cClear | registerWrite | trgArm | mtAddendWrite | schedEnSet
      | schedFlagSet | motorDataDerive | ptStart | axPosSet | axCamSel | camSegmentWrite | mstForce | nodeRawsw
      | engResp => exact .inl (headOutcome_write s _)
  case bootRelease | hostLoadAbort | trimCommit | nodeRelease | nodeRcFull | leRun | leStep | leHalt | axEnable | axClr
      | clrBridge | ctrlWrite | ptAbort | ptApply | push | mvStop | qstop | resume | flush | vmRun | vmStop | vmQstop
      | stopAt | vmSet | resync | engage | disengage | zArm | clrCnt | plModeWrite | plCommit | tune | tuneAbort
      | plApply | plClr | plManWrite | clrLock | clrFail | handoff | arm | force | acqStop | hostFlush
      | engClose => exact .inl (headOutcome_writeField s _ _)
  case lowerWordRead | upperWordRead | counterReadClear | capFifoPop | mstNotifyRead => exact .inl (headOutcome_read s _)
  case load | prod | pacc | psub | prod2 | pacc2 | pdif | paccd | ppair | ppacc | prodn | paccn | addk | subk | fmax | fmin
      | zero | copy | add | sub | neg | absS | clip | round | shl | shr | shv | scale | cmp | maxS | minS | limit
      | getg | putg | andK | orK | xorK | quot | mLoad | mStore | ldi16 | ldi24 | move | goto | call | ret | rep
      | repn | endTask | commit | park | trap | ssRecon | clarkePark | dqPi | ipark | svmShift | dtComp | observer
      | plaus | focStd | focExpPrep | focExpClose | speed | position | camEval | pz2 | pz3 | fopdt | stepperV | sinCos
      | sqrtLaw | recip | atan2 => exact .inl (headOutcome_issue s _ _)
  case logResume => exact .inl (headOutcome_logResume s)
  case recipeLoad => exact .inl (headOutcome_recipeLoad s _ _ _ _)
  case islandLoss => exact .inl (headOutcome_islandLoss s)
  case svcEnLow | engReq | hostLoadTimeout | laneSignalQualified | cdrLocked | commaAligned | laneUp | syncLoss | signalLoss
      | cdrLockLoss | idleInsertDelete | llForward | frameRefused | reportReceive | recessRequest | recessResponse
      | recessResponseMissing | bellEdge | slotDeparture | motionDeadline | rxWindowClose | segmentLoss | rejoinEcho
      | resyncStart | probationEnd | rollcallStart | rollcallRequest | rollcallAnswer | rollcallNoAnswer
      | rollcallStartup | rollcallRestart | steeringSample | timeHoldover | lineSync | lineFollow | linkEcho
      | ppsOutRise | ppsOutFall | ppsIn | trgFire | trgPulseEnd | trgInputEdge | taskDispatch | privEnqueue
      | parkRelease | budgetFault | movePlanned | masterPub | masterPubReceive | vmLineLoss | lineLost | encoderEdge
      | zEdge | captureEdge | mstPass | nodeConfigWrite | clrLockTimeout | heartbeatSend | heartbeatReceive | hbtIn
      | hbDueCheck | listenEnd | claimEnd | backoffEnd | partnerLost | join | mirrorSend | mirrorReceive | acqSample
      | recordClose | rd | rdf | wr | wrf | nrd | nwr | nex | fetch | fetchr | rel | map | badOp | transactionAbort
      | engIdleClose | challengeExpiry | scrubStep | telemetry | recalibration | logCheckpoint | engineerLockExpiry => exact .inl (headOutcome_onHead s _)
  case bootKeyProg | requestCommit => exact .inl (headOutcome_onHeadThen s _ _)
  case islandPowerOn | ss1Expiry | inputDisc | fsStop | testPulse | safetyReset | keepaliveDrop => exact .inr (.inl ⟨rfl, _, rfl⟩)
  all_goals exact .inr (.inr rfl)

/-- One answer has one next state. -/
theorem next_inj {a b : State} (h : (Host.Outcome.next a : Host.Outcome State Fault Refusal) = .next b) : b = a := by cases h; rfl

end Sys2Proof.Machine
end

