-- ==== Sys2Proof/Laws/Engine.lean ====
section
/-! SUPPORT. One instruction of a Loop Engine, said once: what the head makes of an instruction that runs to its end. -/

namespace Sys2Proof.Machine

theorem Head.engine_eq (h : Head) (e : Fin 16) : h.engine e.val = h.engines[e] := by
  simp [Head.engine]

/-- The engine that was set. -/
@[simp] theorem Head.engine_setEngine_same (h : Head) (e : Fin 16) (f : Engine → Engine) :
    (h.setEngine e.val f).engine e.val = f (h.engine e.val) := by
  simp [Head.engine, Head.setEngine]

/-- Every other engine. -/
theorem Head.engine_setEngine_other (h : Head) (e k : Nat) (f : Engine → Engine) (hk : k ≠ e) :
    (h.setEngine e f).engine k = h.engine k := by
  simp only [Head.engine, Head.setEngine, List.getD_eq_getElem?_getD, Vector.toList]
  by_cases hl : k < 16
  · simp [hl, hk]
  · simp [hl]

@[simp] theorem Head.spend_engine (h : Head) (e n k : Nat) : (h.spend e n).engine k = h.engine k := rfl
@[simp] theorem Head.spend_boot (h : Head) (e n : Nat) : (h.spend e n).boot = h.boot := rfl

/-- The ends of loops depend on the call level and the loop cache alone. -/
theorem loopBack_congr {a b : Engine} (n : Nat) (ls : List HwLoop) (h1 : a.calls = b.calls) (h2 : a.cache = b.cache) :
    loopBack a n ls = loopBack b n ls := by
  induction ls with
  | nil => rfl
  | cons l ls ih => simp only [loopBack, h1, h2, ih]

/-- The cycle count of an engine and the errors that a store removes have nothing to do with each other. -/
theorem Engine.mended_cycles (g f : Engine) (i : LInstr) (n : Nat) : { g.mended f i with cycles := n } = { g with cycles := n }.mended f i := by
  unfold Engine.mended; split <;> rfl

/-- An instruction that completes without an event and below the budget, on words without an uncorrectable error. -/
theorem Head.issue_ok (h : Head) (e : Fin 16) (i : LInstr) (g : Engine) (n : Nat) (hm : (h.engine e.val).mode = .running)
    (hw : (h.engine e.val).readable i = true) (hs : instrStep (h.engine e.val) (h.ports e.val) i = .ok g n .none)
    (hb : ∀ b, (h.engine e.val).budget = some b → (h.engine e.val).cycles + n < b) :
    h.issue e.val i = ((h.countEcc e.val (wordsRead (h.engine e.val) i)).setEngine e.val
      (fun _ => { g with cycles := (h.engine e.val).cycles + n }.mended (h.engine e.val) i)).spend e.val n := by
  simp only [Engine.readable, Bool.not_eq_true'] at hw
  unfold Head.issue
  simp only [hm, ne_eq, not_true, if_false, hw, Bool.false_eq_true, hs, Option.elim, Nat.add_zero]
  rw [if_neg]
  · simp only [Head.instrEvent, Engine.mended_cycles]
  · cases hbb : (h.engine e.val).budget with
    | none => simp
    | some b => have := hb b hbb; simp; omega

/-- The part of the engine that an instruction's own effect leaves to the going on. -/
def KeepsFlow (f : Engine → Engine) (g : Engine) : Prop :=
  (f g).pc = g.pc ∧ (f g).loops = g.loops ∧ (f g).calls = g.calls ∧ (f g).cache = g.cache

/-- An instruction that may run, whose body goes on behind it with the effect `f`. -/
theorem State.issue_ran (s : State) (e : Fin 16) (i : LInstr) (cost : Nat) (f : Engine → Engine) (hr : s.mayRun e i cost)
    (hl : legalLE i = true) (hf : KeepsFlow f (s.head.engine e.val))
    (hs : instrBody (s.head.engine e.val) (s.head.ports e.val) i = goOn (f (s.head.engine e.val)) cost .none) :
    s.issue e i = s.ran e i cost f := by
  obtain ⟨⟨hr1, hr2⟩, hm, hw, hb⟩ := hr
  obtain ⟨h1, h2, h3, h4⟩ := hf
  have hst : instrStep (s.head.engine e.val) (s.head.ports e.val) i =
      .ok { f (s.head.engine e.val) with
        pc := (loopBack (s.head.engine e.val) ((s.head.engine e.val).pc + 1) (s.head.engine e.val).loops).1
        loops := (loopBack (s.head.engine e.val) ((s.head.engine e.val).pc + 1) (s.head.engine e.val).loops).2.1
        hazard := leavesLE i } ((s.head.engine e.val).takes i cost) .none := by
    unfold instrStep
    rw [if_pos hl, hs]
    simp only [goOn, h1, h2, loopBack_congr _ _ h3 h4, Engine.takes]
  have hi := s.head.issue_ok e i _ _ hm hw hst hb
  unfold State.issue
  rw [State.onHead_eq _ _ hr1 (by rw [hi]; exact hr2), hi]
  rfl

/-- The effect of an instruction matters on its engine alone. -/
theorem State.ran_congr (s : State) (e : Fin 16) (i : LInstr) (cost : Nat) (f f' : Engine → Engine)
    (h : f (s.head.engine e.val) = f' (s.head.engine e.val)) : s.ran e i cost f = s.ran e i cost f' := by
  simp only [State.ran, Engine.after, h]

/-- The result of a P-class operation on the registers of an engine. -/
def Engine.resultP (g : Engine) (op : POp) (d : Fin 4) (i j : Fin 8) : PResult :=
  aluP op g.sum[d] g.sum[pairSum d] g.k[i] g.k[j] g.k[pairK i] g.k[pairK j] j (g.rnd.getLsbD 0) (g.rnd.getLsbD 1)

/-- A P-class instruction whose moves reach their words: its result, then its moves (R186). -/
theorem State.issue_p (s : State) (e : Fin 16) (op : POp) (d : Fin 4) (i j : Fin 8) (mv : Moves) (loads : List (Fin 8 × W24))
   (steps : List (Fin 8 × BitVec 16))
   (hm : s.movesReach e mv loads steps) (hr : s.mayRun e (.p op d i j mv) 1) (hl : legalLE (.p op d i j mv) = true) :
   s.issue e (.p op d i j mv) = s.ran e (.p op d i j mv) 1 (fun g => applyMoves (applyP g d (g.resultP op d i j)) loads steps) := by
  obtain ⟨_, x, y, c, hx, hy, hc, rfl, rfl⟩ := hm
  apply State.issue_ran _ _ _ _ _ hr hl
  · simp only [KeepsFlow, applyMoves, applyP]
    repeat' constructor
    all_goals (split <;> split <;> split <;> split <;> rfl)
  · simp only [instrBody, hx, hy, hc, Engine.resultP]

/-- A P-class instruction is legal when its unused fields are 0 and its moves load different registers (R186, R187). -/
theorem legal_p (op : POp) (d : Fin 4) (i j : Fin 8) (mv : Moves) (hd : movesDistinct mv = true) 
   (h : (match op with
      | .load => d.val == 0 && i.val == 0 && j.val == 0
      | .addk | .subk => j.val == 0
      | .fmax | .fmin => j.val / 2 == 0
      | _ => true) = true) : legalLE (.p op d i j mv) = true := by
  unfold legalLE; rw [Bool.and_eq_true]; exact ⟨h, hd⟩

/-- The result of a class-A operation on the registers of an engine. -/
def Engine.resultA (g : Engine) (op : AOp) (d : Fin 4) (k : Fin 8) (imm : Nat) : AResult :=
  aluA op g.sum[d] (g.sum[f4 k.val]) g.k[k] imm (g.rnd.getLsbD 0)

/-- The core cycles of a class-A operation (Table 08-12). -/
def costA (op : AOp) : Nat := if op = .quot then 26 else 1

/-- A legal class-A instruction: its result (R188). -/
theorem State.issue_a (s : State) (e : Fin 16) (op : AOp) (d : Fin 4) (k : Fin 8) (imm : Nat) (hr : s.mayRun e (.a op d k imm) (costA op))
    (hl : legalLE (.a op d k imm) = true) :
    s.issue e (.a op d k imm) = s.ran e (.a op d k imm) (costA op) (fun g => applyA g d k (g.resultA op d k imm)) := by
  apply State.issue_ran _ _ _ _ _ hr hl
  · simp only [KeepsFlow, applyA]
    repeat' constructor
    all_goals (split <;> split <;> split <;> rfl)
  · simp only [instrBody, Engine.resultA, costA]

end Sys2Proof.Machine
end

