-- ==== Sys2Proof/Laws/Head.lean ====
section
/-! SUPPORT. Registers and parts of the head: a read after a write, and what each update leaves alone. -/

namespace Sys2Proof.Machine

variable (h : Head)

/-! ## Registers -/

/-- A read of a register after a write of a register. -/
theorem Head.rd_wr (a b v : Nat) : (h.wr a v).rd b = if b = a then v % 2 ^ 32 else h.rd b := by
  simp only [Head.rd, Head.wr, Tbl.get_set]
  split_ifs <;> simp

@[simp] theorem Head.rd_wr_same (a v : Nat) : (h.wr a v).rd a = v % 2 ^ 32 := by simp [Head.rd_wr]
theorem Head.rd_wr_other {a b : Nat} (v : Nat) (hb : b ≠ a) : (h.wr a v).rd b = h.rd b := by simp [Head.rd_wr, hb]

theorem Head.rd_lt (a : Nat) : h.rd a < 2 ^ 32 := by unfold Head.rd; exact BitVec.isLt _

/-- A register other than the field's keeps its word. -/
theorem Head.rd_put_other {f : Fld} {b : Nat} (v : Nat) (hb : b ≠ f.addr) : (h.put f v).rd b = h.rd b := h.rd_wr_other _ hb

/-- The register of a field after the field has been put. -/
theorem Head.rd_put_same (f : Fld) (v : Nat) (hl : f.lo ≤ f.hi + 1) (hh : f.hi < 32) :
    (h.put f v).rd f.addr = putBits (h.rd f.addr) f.hi f.lo v := by
  rw [Head.put, Head.rd_wr_same, Nat.mod_eq_of_lt (putBits_lt _ _ _ _ 32 hl hh (h.rd_lt _))]

/-- A field reads as what was put. -/
theorem Head.fld_put_same (f : Fld) (v : Nat) (hl : f.lo ≤ f.hi + 1) (hh : f.hi < 32) :
    (h.put f v).fld f = v % 2 ^ (f.hi + 1 - f.lo) := by
  rw [Head.fld, h.rd_put_same f v hl hh, bits_putBits _ _ _ _ hl]

/-- A field of another register keeps its value. -/
theorem Head.fld_put_other {f g : Fld} (v : Nat) (hb : g.addr ≠ f.addr) : (h.put f v).fld g = h.fld g := by
  simp [Head.fld, h.rd_put_other v hb]

theorem Head.fld_wr_other {g : Fld} {a : Nat} (v : Nat) (hb : g.addr ≠ a) : (h.wr a v).fld g = h.fld g := by
  simp [Head.fld, h.rd_wr_other v hb]

/-- A field of the same register that does not overlap keeps its value. -/
theorem Head.fld_put_apart {f g : Fld} (v : Nat) (ha : g.addr = f.addr) (hl : f.lo ≤ f.hi + 1) (hh : f.hi < 32)
    (hd : f.hi < g.lo ∨ g.hi < f.lo) : (h.put f v).fld g = h.fld g := by
  rw [Head.fld, ha, h.rd_put_same f v hl hh, Head.fld, ha]
  rcases hd with hd | hd
  · exact bits_putBits_above _ _ _ _ _ _ hl hd
  · exact bits_putBits_below _ _ _ _ _ _ hl hd

theorem Head.wrPair_lo (a v : Nat) : (h.wrPair a v).rd a = v % 2 ^ 32 := by
  unfold Head.wrPair; rw [Head.rd_wr_other _ _ (by omega), Head.rd_wr_same, Nat.mod_mod]

theorem Head.wrPair_hi (a v : Nat) : (h.wrPair a v).rd (a + 4) = v / 2 ^ 32 % 2 ^ 32 := by
  unfold Head.wrPair; rw [Head.rd_wr_same, Nat.mod_mod]

theorem Head.wrPair_other {a b : Nat} (v : Nat) (h1 : b ≠ a) (h2 : b ≠ a + 4) : (h.wrPair a v).rd b = h.rd b := by
  unfold Head.wrPair; rw [Head.rd_wr_other _ _ h2, Head.rd_wr_other _ _ h1]

/-! ## What a register write leaves alone -/

@[simp] theorem Head.wr_now (a v : Nat) : (h.wr a v).now = h.now := id rfl
@[simp] theorem Head.wr_latches (a v : Nat) : (h.wr a v).latches = h.latches := id rfl
@[simp] theorem Head.wr_holds (a v : Nat) : (h.wr a v).holds = h.holds := id rfl
@[simp] theorem Head.wr_shadows (a v : Nat) : (h.wr a v).shadows = h.shadows := id rfl
@[simp] theorem Head.wr_draws (a v : Nat) : (h.wr a v).draws = h.draws := id rfl
@[simp] theorem Head.wr_pins (a v : Nat) : (h.wr a v).pins = h.pins := id rfl
@[simp] theorem Head.wr_boot (a v : Nat) : (h.wr a v).boot = h.boot := id rfl
@[simp] theorem Head.wr_bell (a v : Nat) : (h.wr a v).bell = h.bell := id rfl
@[simp] theorem Head.wr_time (a v : Nat) : (h.wr a v).time = h.time := id rfl
@[simp] theorem Head.wr_net (a v : Nat) : (h.wr a v).net = h.net := id rfl
@[simp] theorem Head.wr_sched (a v : Nat) : (h.wr a v).sched = h.sched := id rfl
@[simp] theorem Head.wr_engines (a v : Nat) : (h.wr a v).engines = h.engines := id rfl
@[simp] theorem Head.wr_mailbox (a v : Nat) : (h.wr a v).mailbox = h.mailbox := id rfl
@[simp] theorem Head.wr_axes (a v : Nat) : (h.wr a v).axes = h.axes := id rfl
@[simp] theorem Head.wr_motion (a v : Nat) : (h.wr a v).motion = h.motion := id rfl
@[simp] theorem Head.wr_vms (a v : Nat) : (h.wr a v).vms = h.vms := id rfl
@[simp] theorem Head.wr_follow (a v : Nat) : (h.wr a v).follow = h.follow := id rfl
@[simp] theorem Head.wr_encs (a v : Nat) : (h.wr a v).encs = h.encs := id rfl
@[simp] theorem Head.wr_caps (a v : Nat) : (h.wr a v).caps = h.caps := id rfl
@[simp] theorem Head.wr_cams (a v : Nat) : (h.wr a v).cams = h.cams := id rfl
@[simp] theorem Head.wr_loops (a v : Nat) : (h.wr a v).loops = h.loops := id rfl
@[simp] theorem Head.wr_mst (a v : Nat) : (h.wr a v).mst = h.mst := id rfl
@[simp] theorem Head.wr_dcb (a v : Nat) : (h.wr a v).dcb = h.dcb := id rfl
@[simp] theorem Head.wr_core (a v : Nat) : (h.wr a v).core = h.core := id rfl
@[simp] theorem Head.wr_red (a v : Nat) : (h.wr a v).red = h.red := id rfl
@[simp] theorem Head.wr_acq (a v : Nat) : (h.wr a v).acq = h.acq := id rfl
@[simp] theorem Head.wr_host (a v : Nat) : (h.wr a v).host = h.host := id rfl
@[simp] theorem Head.wr_log (a v : Nat) : (h.wr a v).log = h.log := id rfl
@[simp] theorem Head.put_now (f : Fld) (v : Nat) : (h.put f v).now = h.now := id rfl
@[simp] theorem Head.put_latches (f : Fld) (v : Nat) : (h.put f v).latches = h.latches := id rfl
@[simp] theorem Head.put_holds (f : Fld) (v : Nat) : (h.put f v).holds = h.holds := id rfl
@[simp] theorem Head.put_shadows (f : Fld) (v : Nat) : (h.put f v).shadows = h.shadows := id rfl
@[simp] theorem Head.put_draws (f : Fld) (v : Nat) : (h.put f v).draws = h.draws := id rfl
@[simp] theorem Head.put_pins (f : Fld) (v : Nat) : (h.put f v).pins = h.pins := id rfl
@[simp] theorem Head.put_boot (f : Fld) (v : Nat) : (h.put f v).boot = h.boot := id rfl
@[simp] theorem Head.put_bell (f : Fld) (v : Nat) : (h.put f v).bell = h.bell := id rfl
@[simp] theorem Head.put_time (f : Fld) (v : Nat) : (h.put f v).time = h.time := id rfl
@[simp] theorem Head.put_net (f : Fld) (v : Nat) : (h.put f v).net = h.net := id rfl
@[simp] theorem Head.put_sched (f : Fld) (v : Nat) : (h.put f v).sched = h.sched := id rfl
@[simp] theorem Head.put_engines (f : Fld) (v : Nat) : (h.put f v).engines = h.engines := id rfl
@[simp] theorem Head.put_mailbox (f : Fld) (v : Nat) : (h.put f v).mailbox = h.mailbox := id rfl
@[simp] theorem Head.put_axes (f : Fld) (v : Nat) : (h.put f v).axes = h.axes := id rfl
@[simp] theorem Head.put_motion (f : Fld) (v : Nat) : (h.put f v).motion = h.motion := id rfl
@[simp] theorem Head.put_vms (f : Fld) (v : Nat) : (h.put f v).vms = h.vms := id rfl
@[simp] theorem Head.put_follow (f : Fld) (v : Nat) : (h.put f v).follow = h.follow := id rfl
@[simp] theorem Head.put_encs (f : Fld) (v : Nat) : (h.put f v).encs = h.encs := id rfl
@[simp] theorem Head.put_caps (f : Fld) (v : Nat) : (h.put f v).caps = h.caps := id rfl
@[simp] theorem Head.put_cams (f : Fld) (v : Nat) : (h.put f v).cams = h.cams := id rfl
@[simp] theorem Head.put_loops (f : Fld) (v : Nat) : (h.put f v).loops = h.loops := id rfl
@[simp] theorem Head.put_mst (f : Fld) (v : Nat) : (h.put f v).mst = h.mst := id rfl
@[simp] theorem Head.put_dcb (f : Fld) (v : Nat) : (h.put f v).dcb = h.dcb := id rfl
@[simp] theorem Head.put_core (f : Fld) (v : Nat) : (h.put f v).core = h.core := id rfl
@[simp] theorem Head.put_red (f : Fld) (v : Nat) : (h.put f v).red = h.red := id rfl
@[simp] theorem Head.put_acq (f : Fld) (v : Nat) : (h.put f v).acq = h.acq := id rfl
@[simp] theorem Head.put_host (f : Fld) (v : Nat) : (h.put f v).host = h.host := id rfl
@[simp] theorem Head.put_log (f : Fld) (v : Nat) : (h.put f v).log = h.log := id rfl
@[simp] theorem Head.putBit_now (f : Fld) (b : Bool) : (h.putBit f b).now = h.now := id rfl
@[simp] theorem Head.putBit_latches (f : Fld) (b : Bool) : (h.putBit f b).latches = h.latches := id rfl
@[simp] theorem Head.putBit_holds (f : Fld) (b : Bool) : (h.putBit f b).holds = h.holds := id rfl
@[simp] theorem Head.putBit_shadows (f : Fld) (b : Bool) : (h.putBit f b).shadows = h.shadows := id rfl
@[simp] theorem Head.putBit_draws (f : Fld) (b : Bool) : (h.putBit f b).draws = h.draws := id rfl
@[simp] theorem Head.putBit_pins (f : Fld) (b : Bool) : (h.putBit f b).pins = h.pins := id rfl
@[simp] theorem Head.putBit_boot (f : Fld) (b : Bool) : (h.putBit f b).boot = h.boot := id rfl
@[simp] theorem Head.putBit_bell (f : Fld) (b : Bool) : (h.putBit f b).bell = h.bell := id rfl
@[simp] theorem Head.putBit_time (f : Fld) (b : Bool) : (h.putBit f b).time = h.time := id rfl
@[simp] theorem Head.putBit_net (f : Fld) (b : Bool) : (h.putBit f b).net = h.net := id rfl
@[simp] theorem Head.putBit_sched (f : Fld) (b : Bool) : (h.putBit f b).sched = h.sched := id rfl
@[simp] theorem Head.putBit_engines (f : Fld) (b : Bool) : (h.putBit f b).engines = h.engines := id rfl
@[simp] theorem Head.putBit_mailbox (f : Fld) (b : Bool) : (h.putBit f b).mailbox = h.mailbox := id rfl
@[simp] theorem Head.putBit_axes (f : Fld) (b : Bool) : (h.putBit f b).axes = h.axes := id rfl
@[simp] theorem Head.putBit_motion (f : Fld) (b : Bool) : (h.putBit f b).motion = h.motion := id rfl
@[simp] theorem Head.putBit_vms (f : Fld) (b : Bool) : (h.putBit f b).vms = h.vms := id rfl
@[simp] theorem Head.putBit_follow (f : Fld) (b : Bool) : (h.putBit f b).follow = h.follow := id rfl
@[simp] theorem Head.putBit_encs (f : Fld) (b : Bool) : (h.putBit f b).encs = h.encs := id rfl
@[simp] theorem Head.putBit_caps (f : Fld) (b : Bool) : (h.putBit f b).caps = h.caps := id rfl
@[simp] theorem Head.putBit_cams (f : Fld) (b : Bool) : (h.putBit f b).cams = h.cams := id rfl
@[simp] theorem Head.putBit_loops (f : Fld) (b : Bool) : (h.putBit f b).loops = h.loops := id rfl
@[simp] theorem Head.putBit_mst (f : Fld) (b : Bool) : (h.putBit f b).mst = h.mst := id rfl
@[simp] theorem Head.putBit_dcb (f : Fld) (b : Bool) : (h.putBit f b).dcb = h.dcb := id rfl
@[simp] theorem Head.putBit_core (f : Fld) (b : Bool) : (h.putBit f b).core = h.core := id rfl
@[simp] theorem Head.putBit_red (f : Fld) (b : Bool) : (h.putBit f b).red = h.red := id rfl
@[simp] theorem Head.putBit_acq (f : Fld) (b : Bool) : (h.putBit f b).acq = h.acq := id rfl
@[simp] theorem Head.putBit_host (f : Fld) (b : Bool) : (h.putBit f b).host = h.host := id rfl
@[simp] theorem Head.putBit_log (f : Fld) (b : Bool) : (h.putBit f b).log = h.log := id rfl
@[simp] theorem Head.bumpBy_now (a n : Nat) : (h.bumpBy a n).now = h.now := id rfl
@[simp] theorem Head.bumpBy_shadows (a n : Nat) : (h.bumpBy a n).shadows = h.shadows := id rfl
@[simp] theorem Head.bumpBy_draws (a n : Nat) : (h.bumpBy a n).draws = h.draws := id rfl
@[simp] theorem Head.bumpBy_pins (a n : Nat) : (h.bumpBy a n).pins = h.pins := id rfl
@[simp] theorem Head.bumpBy_boot (a n : Nat) : (h.bumpBy a n).boot = h.boot := id rfl
@[simp] theorem Head.bumpBy_bell (a n : Nat) : (h.bumpBy a n).bell = h.bell := id rfl
@[simp] theorem Head.bumpBy_time (a n : Nat) : (h.bumpBy a n).time = h.time := id rfl
@[simp] theorem Head.bumpBy_net (a n : Nat) : (h.bumpBy a n).net = h.net := id rfl
@[simp] theorem Head.bumpBy_sched (a n : Nat) : (h.bumpBy a n).sched = h.sched := id rfl
@[simp] theorem Head.bumpBy_engines (a n : Nat) : (h.bumpBy a n).engines = h.engines := id rfl
@[simp] theorem Head.bumpBy_axes (a n : Nat) : (h.bumpBy a n).axes = h.axes := id rfl
@[simp] theorem Head.bumpBy_loops (a n : Nat) : (h.bumpBy a n).loops = h.loops := id rfl
@[simp] theorem Head.bumpBy_mst (a n : Nat) : (h.bumpBy a n).mst = h.mst := id rfl
@[simp] theorem Head.bumpBy_dcb (a n : Nat) : (h.bumpBy a n).dcb = h.dcb := id rfl
@[simp] theorem Head.bumpBy_core (a n : Nat) : (h.bumpBy a n).core = h.core := id rfl
@[simp] theorem Head.bumpBy_red (a n : Nat) : (h.bumpBy a n).red = h.red := id rfl
@[simp] theorem Head.bumpBy_acq (a n : Nat) : (h.bumpBy a n).acq = h.acq := id rfl
@[simp] theorem Head.bumpBy_host (a n : Nat) : (h.bumpBy a n).host = h.host := id rfl
@[simp] theorem Head.bumpBy_log (a n : Nat) : (h.bumpBy a n).log = h.log := id rfl
@[simp] theorem Head.bump_now (a : Nat) : (h.bump a).now = h.now := id rfl
@[simp] theorem Head.bump_latches (a : Nat) : (h.bump a).latches = h.latches := id rfl
@[simp] theorem Head.bump_holds (a : Nat) : (h.bump a).holds = h.holds := id rfl
@[simp] theorem Head.bump_shadows (a : Nat) : (h.bump a).shadows = h.shadows := id rfl
@[simp] theorem Head.bump_draws (a : Nat) : (h.bump a).draws = h.draws := id rfl
@[simp] theorem Head.bump_pins (a : Nat) : (h.bump a).pins = h.pins := id rfl
@[simp] theorem Head.bump_boot (a : Nat) : (h.bump a).boot = h.boot := id rfl
@[simp] theorem Head.bump_bell (a : Nat) : (h.bump a).bell = h.bell := id rfl
@[simp] theorem Head.bump_time (a : Nat) : (h.bump a).time = h.time := id rfl
@[simp] theorem Head.bump_net (a : Nat) : (h.bump a).net = h.net := id rfl
@[simp] theorem Head.bump_sched (a : Nat) : (h.bump a).sched = h.sched := id rfl
@[simp] theorem Head.bump_engines (a : Nat) : (h.bump a).engines = h.engines := id rfl
@[simp] theorem Head.bump_mailbox (a : Nat) : (h.bump a).mailbox = h.mailbox := id rfl
@[simp] theorem Head.bump_axes (a : Nat) : (h.bump a).axes = h.axes := id rfl
@[simp] theorem Head.bump_motion (a : Nat) : (h.bump a).motion = h.motion := id rfl
@[simp] theorem Head.bump_vms (a : Nat) : (h.bump a).vms = h.vms := id rfl
@[simp] theorem Head.bump_follow (a : Nat) : (h.bump a).follow = h.follow := id rfl
@[simp] theorem Head.bump_encs (a : Nat) : (h.bump a).encs = h.encs := id rfl
@[simp] theorem Head.bump_caps (a : Nat) : (h.bump a).caps = h.caps := id rfl
@[simp] theorem Head.bump_cams (a : Nat) : (h.bump a).cams = h.cams := id rfl
@[simp] theorem Head.bump_loops (a : Nat) : (h.bump a).loops = h.loops := id rfl
@[simp] theorem Head.bump_mst (a : Nat) : (h.bump a).mst = h.mst := id rfl
@[simp] theorem Head.bump_dcb (a : Nat) : (h.bump a).dcb = h.dcb := id rfl
@[simp] theorem Head.bump_core (a : Nat) : (h.bump a).core = h.core := id rfl
@[simp] theorem Head.bump_red (a : Nat) : (h.bump a).red = h.red := id rfl
@[simp] theorem Head.bump_acq (a : Nat) : (h.bump a).acq = h.acq := id rfl
@[simp] theorem Head.bump_host (a : Nat) : (h.bump a).host = h.host := id rfl
@[simp] theorem Head.bump_log (a : Nat) : (h.bump a).log = h.log := id rfl
@[simp] theorem Head.bumpFld_now (f : Fld) : (h.bumpFld f).now = h.now := id rfl
@[simp] theorem Head.bumpFld_shadows (f : Fld) : (h.bumpFld f).shadows = h.shadows := id rfl
@[simp] theorem Head.bumpFld_draws (f : Fld) : (h.bumpFld f).draws = h.draws := id rfl
@[simp] theorem Head.bumpFld_pins (f : Fld) : (h.bumpFld f).pins = h.pins := id rfl
@[simp] theorem Head.bumpFld_boot (f : Fld) : (h.bumpFld f).boot = h.boot := id rfl
@[simp] theorem Head.bumpFld_bell (f : Fld) : (h.bumpFld f).bell = h.bell := id rfl
@[simp] theorem Head.bumpFld_time (f : Fld) : (h.bumpFld f).time = h.time := id rfl
@[simp] theorem Head.bumpFld_net (f : Fld) : (h.bumpFld f).net = h.net := id rfl
@[simp] theorem Head.bumpFld_sched (f : Fld) : (h.bumpFld f).sched = h.sched := id rfl
@[simp] theorem Head.bumpFld_engines (f : Fld) : (h.bumpFld f).engines = h.engines := id rfl
@[simp] theorem Head.bumpFld_axes (f : Fld) : (h.bumpFld f).axes = h.axes := id rfl
@[simp] theorem Head.bumpFld_loops (f : Fld) : (h.bumpFld f).loops = h.loops := id rfl
@[simp] theorem Head.bumpFld_mst (f : Fld) : (h.bumpFld f).mst = h.mst := id rfl
@[simp] theorem Head.bumpFld_dcb (f : Fld) : (h.bumpFld f).dcb = h.dcb := id rfl
@[simp] theorem Head.bumpFld_core (f : Fld) : (h.bumpFld f).core = h.core := id rfl
@[simp] theorem Head.bumpFld_red (f : Fld) : (h.bumpFld f).red = h.red := id rfl
@[simp] theorem Head.bumpFld_acq (f : Fld) : (h.bumpFld f).acq = h.acq := id rfl
@[simp] theorem Head.bumpFld_host (f : Fld) : (h.bumpFld f).host = h.host := id rfl
@[simp] theorem Head.bumpFld_log (f : Fld) : (h.bumpFld f).log = h.log := id rfl
@[simp] theorem Head.orReg_now (a v : Nat) : (h.orReg a v).now = h.now := id rfl
@[simp] theorem Head.orReg_latches (a v : Nat) : (h.orReg a v).latches = h.latches := id rfl
@[simp] theorem Head.orReg_holds (a v : Nat) : (h.orReg a v).holds = h.holds := id rfl
@[simp] theorem Head.orReg_shadows (a v : Nat) : (h.orReg a v).shadows = h.shadows := id rfl
@[simp] theorem Head.orReg_draws (a v : Nat) : (h.orReg a v).draws = h.draws := id rfl
@[simp] theorem Head.orReg_pins (a v : Nat) : (h.orReg a v).pins = h.pins := id rfl
@[simp] theorem Head.orReg_boot (a v : Nat) : (h.orReg a v).boot = h.boot := id rfl
@[simp] theorem Head.orReg_bell (a v : Nat) : (h.orReg a v).bell = h.bell := id rfl
@[simp] theorem Head.orReg_time (a v : Nat) : (h.orReg a v).time = h.time := id rfl
@[simp] theorem Head.orReg_net (a v : Nat) : (h.orReg a v).net = h.net := id rfl
@[simp] theorem Head.orReg_sched (a v : Nat) : (h.orReg a v).sched = h.sched := id rfl
@[simp] theorem Head.orReg_engines (a v : Nat) : (h.orReg a v).engines = h.engines := id rfl
@[simp] theorem Head.orReg_mailbox (a v : Nat) : (h.orReg a v).mailbox = h.mailbox := id rfl
@[simp] theorem Head.orReg_axes (a v : Nat) : (h.orReg a v).axes = h.axes := id rfl
@[simp] theorem Head.orReg_motion (a v : Nat) : (h.orReg a v).motion = h.motion := id rfl
@[simp] theorem Head.orReg_vms (a v : Nat) : (h.orReg a v).vms = h.vms := id rfl
@[simp] theorem Head.orReg_follow (a v : Nat) : (h.orReg a v).follow = h.follow := id rfl
@[simp] theorem Head.orReg_encs (a v : Nat) : (h.orReg a v).encs = h.encs := id rfl
@[simp] theorem Head.orReg_caps (a v : Nat) : (h.orReg a v).caps = h.caps := id rfl
@[simp] theorem Head.orReg_cams (a v : Nat) : (h.orReg a v).cams = h.cams := id rfl
@[simp] theorem Head.orReg_loops (a v : Nat) : (h.orReg a v).loops = h.loops := id rfl
@[simp] theorem Head.orReg_mst (a v : Nat) : (h.orReg a v).mst = h.mst := id rfl
@[simp] theorem Head.orReg_dcb (a v : Nat) : (h.orReg a v).dcb = h.dcb := id rfl
@[simp] theorem Head.orReg_core (a v : Nat) : (h.orReg a v).core = h.core := id rfl
@[simp] theorem Head.orReg_red (a v : Nat) : (h.orReg a v).red = h.red := id rfl
@[simp] theorem Head.orReg_acq (a v : Nat) : (h.orReg a v).acq = h.acq := id rfl
@[simp] theorem Head.orReg_host (a v : Nat) : (h.orReg a v).host = h.host := id rfl
@[simp] theorem Head.orReg_log (a v : Nat) : (h.orReg a v).log = h.log := id rfl
@[simp] theorem Head.wrPair_now (a v : Nat) : (h.wrPair a v).now = h.now := id rfl
@[simp] theorem Head.wrPair_latches (a v : Nat) : (h.wrPair a v).latches = h.latches := id rfl
@[simp] theorem Head.wrPair_holds (a v : Nat) : (h.wrPair a v).holds = h.holds := id rfl
@[simp] theorem Head.wrPair_shadows (a v : Nat) : (h.wrPair a v).shadows = h.shadows := id rfl
@[simp] theorem Head.wrPair_draws (a v : Nat) : (h.wrPair a v).draws = h.draws := id rfl
@[simp] theorem Head.wrPair_pins (a v : Nat) : (h.wrPair a v).pins = h.pins := id rfl
@[simp] theorem Head.wrPair_boot (a v : Nat) : (h.wrPair a v).boot = h.boot := id rfl
@[simp] theorem Head.wrPair_bell (a v : Nat) : (h.wrPair a v).bell = h.bell := id rfl
@[simp] theorem Head.wrPair_time (a v : Nat) : (h.wrPair a v).time = h.time := id rfl
@[simp] theorem Head.wrPair_net (a v : Nat) : (h.wrPair a v).net = h.net := id rfl
@[simp] theorem Head.wrPair_sched (a v : Nat) : (h.wrPair a v).sched = h.sched := id rfl
@[simp] theorem Head.wrPair_engines (a v : Nat) : (h.wrPair a v).engines = h.engines := id rfl
@[simp] theorem Head.wrPair_mailbox (a v : Nat) : (h.wrPair a v).mailbox = h.mailbox := id rfl
@[simp] theorem Head.wrPair_axes (a v : Nat) : (h.wrPair a v).axes = h.axes := id rfl
@[simp] theorem Head.wrPair_motion (a v : Nat) : (h.wrPair a v).motion = h.motion := id rfl
@[simp] theorem Head.wrPair_vms (a v : Nat) : (h.wrPair a v).vms = h.vms := id rfl
@[simp] theorem Head.wrPair_follow (a v : Nat) : (h.wrPair a v).follow = h.follow := id rfl
@[simp] theorem Head.wrPair_encs (a v : Nat) : (h.wrPair a v).encs = h.encs := id rfl
@[simp] theorem Head.wrPair_caps (a v : Nat) : (h.wrPair a v).caps = h.caps := id rfl
@[simp] theorem Head.wrPair_cams (a v : Nat) : (h.wrPair a v).cams = h.cams := id rfl
@[simp] theorem Head.wrPair_loops (a v : Nat) : (h.wrPair a v).loops = h.loops := id rfl
@[simp] theorem Head.wrPair_mst (a v : Nat) : (h.wrPair a v).mst = h.mst := id rfl
@[simp] theorem Head.wrPair_dcb (a v : Nat) : (h.wrPair a v).dcb = h.dcb := id rfl
@[simp] theorem Head.wrPair_core (a v : Nat) : (h.wrPair a v).core = h.core := id rfl
@[simp] theorem Head.wrPair_red (a v : Nat) : (h.wrPair a v).red = h.red := id rfl
@[simp] theorem Head.wrPair_acq (a v : Nat) : (h.wrPair a v).acq = h.acq := id rfl
@[simp] theorem Head.wrPair_host (a v : Nat) : (h.wrPair a v).host = h.host := id rfl
@[simp] theorem Head.wrPair_log (a v : Nat) : (h.wrPair a v).log = h.log := id rfl

/-! ## What a change of a part leaves alone -/

@[simp] theorem Head.setBoot_now (f : Boot → Boot) : (h.setBoot f).now = h.now := id rfl
@[simp] theorem Head.setBoot_regs (f : Boot → Boot) : (h.setBoot f).regs = h.regs := id rfl
@[simp] theorem Head.setBoot_shadows (f : Boot → Boot) : (h.setBoot f).shadows = h.shadows := id rfl
@[simp] theorem Head.setBoot_bell (f : Boot → Boot) : (h.setBoot f).bell = h.bell := id rfl
@[simp] theorem Head.setBoot_time (f : Boot → Boot) : (h.setBoot f).time = h.time := id rfl
@[simp] theorem Head.setBoot_net (f : Boot → Boot) : (h.setBoot f).net = h.net := id rfl
@[simp] theorem Head.setBoot_sched (f : Boot → Boot) : (h.setBoot f).sched = h.sched := id rfl
@[simp] theorem Head.setBoot_engines (f : Boot → Boot) : (h.setBoot f).engines = h.engines := id rfl
@[simp] theorem Head.setBoot_axes (f : Boot → Boot) : (h.setBoot f).axes = h.axes := id rfl
@[simp] theorem Head.setBoot_motion (f : Boot → Boot) : (h.setBoot f).motion = h.motion := id rfl
@[simp] theorem Head.setBoot_core (f : Boot → Boot) : (h.setBoot f).core = h.core := id rfl
@[simp] theorem Head.setBoot_red (f : Boot → Boot) : (h.setBoot f).red = h.red := id rfl
@[simp] theorem Head.setBoot_acq (f : Boot → Boot) : (h.setBoot f).acq = h.acq := id rfl
@[simp] theorem Head.setBoot_host (f : Boot → Boot) : (h.setBoot f).host = h.host := id rfl
@[simp] theorem Head.setBoot_log (f : Boot → Boot) : (h.setBoot f).log = h.log := id rfl
@[simp] theorem Head.setBoot_holds (f : Boot → Boot) : (h.setBoot f).holds = h.holds := id rfl
@[simp] theorem Head.setBoot_draws (f : Boot → Boot) : (h.setBoot f).draws = h.draws := id rfl
@[simp] theorem Head.rd_setBoot (f : Boot → Boot) (x : Nat) : (h.setBoot f).rd x = h.rd x := id rfl
@[simp] theorem Head.fld_setBoot (f : Boot → Boot) (x : Fld) : (h.setBoot f).fld x = h.fld x := id rfl
@[simp] theorem Head.setHost_now (f : HostPort → HostPort) : (h.setHost f).now = h.now := id rfl
@[simp] theorem Head.setHost_regs (f : HostPort → HostPort) : (h.setHost f).regs = h.regs := id rfl
@[simp] theorem Head.setHost_shadows (f : HostPort → HostPort) : (h.setHost f).shadows = h.shadows := id rfl
@[simp] theorem Head.setHost_boot (f : HostPort → HostPort) : (h.setHost f).boot = h.boot := id rfl
@[simp] theorem Head.setHost_bell (f : HostPort → HostPort) : (h.setHost f).bell = h.bell := id rfl
@[simp] theorem Head.setHost_time (f : HostPort → HostPort) : (h.setHost f).time = h.time := id rfl
@[simp] theorem Head.setHost_net (f : HostPort → HostPort) : (h.setHost f).net = h.net := id rfl
@[simp] theorem Head.setHost_sched (f : HostPort → HostPort) : (h.setHost f).sched = h.sched := id rfl
@[simp] theorem Head.setHost_engines (f : HostPort → HostPort) : (h.setHost f).engines = h.engines := id rfl
@[simp] theorem Head.setHost_axes (f : HostPort → HostPort) : (h.setHost f).axes = h.axes := id rfl
@[simp] theorem Head.setHost_motion (f : HostPort → HostPort) : (h.setHost f).motion = h.motion := id rfl
@[simp] theorem Head.setHost_core (f : HostPort → HostPort) : (h.setHost f).core = h.core := id rfl
@[simp] theorem Head.setHost_red (f : HostPort → HostPort) : (h.setHost f).red = h.red := id rfl
@[simp] theorem Head.setHost_acq (f : HostPort → HostPort) : (h.setHost f).acq = h.acq := id rfl
@[simp] theorem Head.setHost_log (f : HostPort → HostPort) : (h.setHost f).log = h.log := id rfl
@[simp] theorem Head.setHost_holds (f : HostPort → HostPort) : (h.setHost f).holds = h.holds := id rfl
@[simp] theorem Head.setHost_draws (f : HostPort → HostPort) : (h.setHost f).draws = h.draws := id rfl
@[simp] theorem Head.rd_setHost (f : HostPort → HostPort) (x : Nat) : (h.setHost f).rd x = h.rd x := id rfl
@[simp] theorem Head.fld_setHost (f : HostPort → HostPort) (x : Fld) : (h.setHost f).fld x = h.fld x := id rfl
@[simp] theorem Head.setLog_now (f : Log → Log) : (h.setLog f).now = h.now := id rfl
@[simp] theorem Head.setLog_regs (f : Log → Log) : (h.setLog f).regs = h.regs := id rfl
@[simp] theorem Head.setLog_shadows (f : Log → Log) : (h.setLog f).shadows = h.shadows := id rfl
@[simp] theorem Head.setLog_boot (f : Log → Log) : (h.setLog f).boot = h.boot := id rfl
@[simp] theorem Head.setLog_bell (f : Log → Log) : (h.setLog f).bell = h.bell := id rfl
@[simp] theorem Head.setLog_time (f : Log → Log) : (h.setLog f).time = h.time := id rfl
@[simp] theorem Head.setLog_net (f : Log → Log) : (h.setLog f).net = h.net := id rfl
@[simp] theorem Head.setLog_sched (f : Log → Log) : (h.setLog f).sched = h.sched := id rfl
@[simp] theorem Head.setLog_engines (f : Log → Log) : (h.setLog f).engines = h.engines := id rfl
@[simp] theorem Head.setLog_axes (f : Log → Log) : (h.setLog f).axes = h.axes := id rfl
@[simp] theorem Head.setLog_motion (f : Log → Log) : (h.setLog f).motion = h.motion := id rfl
@[simp] theorem Head.setLog_core (f : Log → Log) : (h.setLog f).core = h.core := id rfl
@[simp] theorem Head.setLog_red (f : Log → Log) : (h.setLog f).red = h.red := id rfl
@[simp] theorem Head.setLog_acq (f : Log → Log) : (h.setLog f).acq = h.acq := id rfl
@[simp] theorem Head.setLog_host (f : Log → Log) : (h.setLog f).host = h.host := id rfl
@[simp] theorem Head.setLog_holds (f : Log → Log) : (h.setLog f).holds = h.holds := id rfl
@[simp] theorem Head.setLog_draws (f : Log → Log) : (h.setLog f).draws = h.draws := id rfl
@[simp] theorem Head.rd_setLog (f : Log → Log) (x : Nat) : (h.setLog f).rd x = h.rd x := id rfl
@[simp] theorem Head.fld_setLog (f : Log → Log) (x : Fld) : (h.setLog f).fld x = h.fld x := id rfl
@[simp] theorem Head.setCore_now (f : SafeCore → SafeCore) : (h.setCore f).now = h.now := id rfl
@[simp] theorem Head.setCore_regs (f : SafeCore → SafeCore) : (h.setCore f).regs = h.regs := id rfl
@[simp] theorem Head.setCore_shadows (f : SafeCore → SafeCore) : (h.setCore f).shadows = h.shadows := id rfl
@[simp] theorem Head.setCore_boot (f : SafeCore → SafeCore) : (h.setCore f).boot = h.boot := id rfl
@[simp] theorem Head.setCore_bell (f : SafeCore → SafeCore) : (h.setCore f).bell = h.bell := id rfl
@[simp] theorem Head.setCore_time (f : SafeCore → SafeCore) : (h.setCore f).time = h.time := id rfl
@[simp] theorem Head.setCore_net (f : SafeCore → SafeCore) : (h.setCore f).net = h.net := id rfl
@[simp] theorem Head.setCore_sched (f : SafeCore → SafeCore) : (h.setCore f).sched = h.sched := id rfl
@[simp] theorem Head.setCore_engines (f : SafeCore → SafeCore) : (h.setCore f).engines = h.engines := id rfl
@[simp] theorem Head.setCore_axes (f : SafeCore → SafeCore) : (h.setCore f).axes = h.axes := id rfl
@[simp] theorem Head.setCore_motion (f : SafeCore → SafeCore) : (h.setCore f).motion = h.motion := id rfl
@[simp] theorem Head.setCore_red (f : SafeCore → SafeCore) : (h.setCore f).red = h.red := id rfl
@[simp] theorem Head.setCore_acq (f : SafeCore → SafeCore) : (h.setCore f).acq = h.acq := id rfl
@[simp] theorem Head.setCore_host (f : SafeCore → SafeCore) : (h.setCore f).host = h.host := id rfl
@[simp] theorem Head.setCore_log (f : SafeCore → SafeCore) : (h.setCore f).log = h.log := id rfl
@[simp] theorem Head.setCore_holds (f : SafeCore → SafeCore) : (h.setCore f).holds = h.holds := id rfl
@[simp] theorem Head.setCore_draws (f : SafeCore → SafeCore) : (h.setCore f).draws = h.draws := id rfl
@[simp] theorem Head.rd_setCore (f : SafeCore → SafeCore) (x : Nat) : (h.setCore f).rd x = h.rd x := id rfl
@[simp] theorem Head.fld_setCore (f : SafeCore → SafeCore) (x : Fld) : (h.setCore f).fld x = h.fld x := id rfl
@[simp] theorem Head.setRed_now (f : Red → Red) : (h.setRed f).now = h.now := id rfl
@[simp] theorem Head.setRed_regs (f : Red → Red) : (h.setRed f).regs = h.regs := id rfl
@[simp] theorem Head.setRed_shadows (f : Red → Red) : (h.setRed f).shadows = h.shadows := id rfl
@[simp] theorem Head.setRed_boot (f : Red → Red) : (h.setRed f).boot = h.boot := id rfl
@[simp] theorem Head.setRed_bell (f : Red → Red) : (h.setRed f).bell = h.bell := id rfl
@[simp] theorem Head.setRed_time (f : Red → Red) : (h.setRed f).time = h.time := id rfl
@[simp] theorem Head.setRed_net (f : Red → Red) : (h.setRed f).net = h.net := id rfl
@[simp] theorem Head.setRed_sched (f : Red → Red) : (h.setRed f).sched = h.sched := id rfl
@[simp] theorem Head.setRed_engines (f : Red → Red) : (h.setRed f).engines = h.engines := id rfl
@[simp] theorem Head.setRed_axes (f : Red → Red) : (h.setRed f).axes = h.axes := id rfl
@[simp] theorem Head.setRed_motion (f : Red → Red) : (h.setRed f).motion = h.motion := id rfl
@[simp] theorem Head.setRed_core (f : Red → Red) : (h.setRed f).core = h.core := id rfl
@[simp] theorem Head.setRed_acq (f : Red → Red) : (h.setRed f).acq = h.acq := id rfl
@[simp] theorem Head.setRed_host (f : Red → Red) : (h.setRed f).host = h.host := id rfl
@[simp] theorem Head.setRed_log (f : Red → Red) : (h.setRed f).log = h.log := id rfl
@[simp] theorem Head.setRed_holds (f : Red → Red) : (h.setRed f).holds = h.holds := id rfl
@[simp] theorem Head.setRed_draws (f : Red → Red) : (h.setRed f).draws = h.draws := id rfl
@[simp] theorem Head.rd_setRed (f : Red → Red) (x : Nat) : (h.setRed f).rd x = h.rd x := id rfl
@[simp] theorem Head.fld_setRed (f : Red → Red) (x : Fld) : (h.setRed f).fld x = h.fld x := id rfl
@[simp] theorem Head.setAcq_now (f : Acq → Acq) : (h.setAcq f).now = h.now := id rfl
@[simp] theorem Head.setAcq_regs (f : Acq → Acq) : (h.setAcq f).regs = h.regs := id rfl
@[simp] theorem Head.setAcq_shadows (f : Acq → Acq) : (h.setAcq f).shadows = h.shadows := id rfl
@[simp] theorem Head.setAcq_boot (f : Acq → Acq) : (h.setAcq f).boot = h.boot := id rfl
@[simp] theorem Head.setAcq_bell (f : Acq → Acq) : (h.setAcq f).bell = h.bell := id rfl
@[simp] theorem Head.setAcq_time (f : Acq → Acq) : (h.setAcq f).time = h.time := id rfl
@[simp] theorem Head.setAcq_net (f : Acq → Acq) : (h.setAcq f).net = h.net := id rfl
@[simp] theorem Head.setAcq_sched (f : Acq → Acq) : (h.setAcq f).sched = h.sched := id rfl
@[simp] theorem Head.setAcq_engines (f : Acq → Acq) : (h.setAcq f).engines = h.engines := id rfl
@[simp] theorem Head.setAcq_axes (f : Acq → Acq) : (h.setAcq f).axes = h.axes := id rfl
@[simp] theorem Head.setAcq_motion (f : Acq → Acq) : (h.setAcq f).motion = h.motion := id rfl
@[simp] theorem Head.setAcq_core (f : Acq → Acq) : (h.setAcq f).core = h.core := id rfl
@[simp] theorem Head.setAcq_red (f : Acq → Acq) : (h.setAcq f).red = h.red := id rfl
@[simp] theorem Head.setAcq_host (f : Acq → Acq) : (h.setAcq f).host = h.host := id rfl
@[simp] theorem Head.setAcq_log (f : Acq → Acq) : (h.setAcq f).log = h.log := id rfl
@[simp] theorem Head.setAcq_holds (f : Acq → Acq) : (h.setAcq f).holds = h.holds := id rfl
@[simp] theorem Head.setAcq_draws (f : Acq → Acq) : (h.setAcq f).draws = h.draws := id rfl
@[simp] theorem Head.rd_setAcq (f : Acq → Acq) (x : Nat) : (h.setAcq f).rd x = h.rd x := id rfl
@[simp] theorem Head.fld_setAcq (f : Acq → Acq) (x : Fld) : (h.setAcq f).fld x = h.fld x := id rfl
@[simp] theorem Head.setTicket_now (t : Nat) (f : Ticket → Ticket) : (h.setTicket t f).now = h.now := id rfl
@[simp] theorem Head.setTicket_regs (t : Nat) (f : Ticket → Ticket) : (h.setTicket t f).regs = h.regs := id rfl
@[simp] theorem Head.setTicket_shadows (t : Nat) (f : Ticket → Ticket) : (h.setTicket t f).shadows = h.shadows := id rfl
@[simp] theorem Head.setTicket_boot (t : Nat) (f : Ticket → Ticket) : (h.setTicket t f).boot = h.boot := id rfl
@[simp] theorem Head.setTicket_bell (t : Nat) (f : Ticket → Ticket) : (h.setTicket t f).bell = h.bell := id rfl
@[simp] theorem Head.setTicket_time (t : Nat) (f : Ticket → Ticket) : (h.setTicket t f).time = h.time := id rfl
@[simp] theorem Head.setTicket_net (t : Nat) (f : Ticket → Ticket) : (h.setTicket t f).net = h.net := id rfl
@[simp] theorem Head.setTicket_sched (t : Nat) (f : Ticket → Ticket) : (h.setTicket t f).sched = h.sched := id rfl
@[simp] theorem Head.setTicket_engines (t : Nat) (f : Ticket → Ticket) : (h.setTicket t f).engines = h.engines := id rfl
@[simp] theorem Head.setTicket_axes (t : Nat) (f : Ticket → Ticket) : (h.setTicket t f).axes = h.axes := id rfl
@[simp] theorem Head.setTicket_motion (t : Nat) (f : Ticket → Ticket) : (h.setTicket t f).motion = h.motion := id rfl
@[simp] theorem Head.setTicket_core (t : Nat) (f : Ticket → Ticket) : (h.setTicket t f).core = h.core := id rfl
@[simp] theorem Head.setTicket_red (t : Nat) (f : Ticket → Ticket) : (h.setTicket t f).red = h.red := id rfl
@[simp] theorem Head.setTicket_acq (t : Nat) (f : Ticket → Ticket) : (h.setTicket t f).acq = h.acq := id rfl
@[simp] theorem Head.setTicket_log (t : Nat) (f : Ticket → Ticket) : (h.setTicket t f).log = h.log := id rfl
@[simp] theorem Head.setTicket_holds (t : Nat) (f : Ticket → Ticket) : (h.setTicket t f).holds = h.holds := id rfl
@[simp] theorem Head.setTicket_draws (t : Nat) (f : Ticket → Ticket) : (h.setTicket t f).draws = h.draws := id rfl
@[simp] theorem Head.rd_setTicket (t : Nat) (f : Ticket → Ticket) (x : Nat) : (h.setTicket t f).rd x = h.rd x := id rfl
@[simp] theorem Head.fld_setTicket (t : Nat) (f : Ticket → Ticket) (x : Fld) : (h.setTicket t f).fld x = h.fld x := id rfl
@[simp] theorem Head.setNode_now (k : Nat) (f : Node → Node) : (h.setNode k f).now = h.now := id rfl
@[simp] theorem Head.setNode_regs (k : Nat) (f : Node → Node) : (h.setNode k f).regs = h.regs := id rfl
@[simp] theorem Head.setNode_shadows (k : Nat) (f : Node → Node) : (h.setNode k f).shadows = h.shadows := id rfl
@[simp] theorem Head.setNode_boot (k : Nat) (f : Node → Node) : (h.setNode k f).boot = h.boot := id rfl
@[simp] theorem Head.setNode_bell (k : Nat) (f : Node → Node) : (h.setNode k f).bell = h.bell := id rfl
@[simp] theorem Head.setNode_time (k : Nat) (f : Node → Node) : (h.setNode k f).time = h.time := id rfl
@[simp] theorem Head.setNode_sched (k : Nat) (f : Node → Node) : (h.setNode k f).sched = h.sched := id rfl
@[simp] theorem Head.setNode_engines (k : Nat) (f : Node → Node) : (h.setNode k f).engines = h.engines := id rfl
@[simp] theorem Head.setNode_axes (k : Nat) (f : Node → Node) : (h.setNode k f).axes = h.axes := id rfl
@[simp] theorem Head.setNode_motion (k : Nat) (f : Node → Node) : (h.setNode k f).motion = h.motion := id rfl
@[simp] theorem Head.setNode_core (k : Nat) (f : Node → Node) : (h.setNode k f).core = h.core := id rfl
@[simp] theorem Head.setNode_red (k : Nat) (f : Node → Node) : (h.setNode k f).red = h.red := id rfl
@[simp] theorem Head.setNode_acq (k : Nat) (f : Node → Node) : (h.setNode k f).acq = h.acq := id rfl
@[simp] theorem Head.setNode_host (k : Nat) (f : Node → Node) : (h.setNode k f).host = h.host := id rfl
@[simp] theorem Head.setNode_log (k : Nat) (f : Node → Node) : (h.setNode k f).log = h.log := id rfl
@[simp] theorem Head.setNode_holds (k : Nat) (f : Node → Node) : (h.setNode k f).holds = h.holds := id rfl
@[simp] theorem Head.setNode_draws (k : Nat) (f : Node → Node) : (h.setNode k f).draws = h.draws := id rfl
@[simp] theorem Head.rd_setNode (k : Nat) (f : Node → Node) (x : Nat) : (h.setNode k f).rd x = h.rd x := id rfl
@[simp] theorem Head.fld_setNode (k : Nat) (f : Node → Node) (x : Fld) : (h.setNode k f).fld x = h.fld x := id rfl
@[simp] theorem Head.setTask_now (k : Nat) (f : TaskX → TaskX) : (h.setTask k f).now = h.now := id rfl
@[simp] theorem Head.setTask_regs (k : Nat) (f : TaskX → TaskX) : (h.setTask k f).regs = h.regs := id rfl
@[simp] theorem Head.setTask_shadows (k : Nat) (f : TaskX → TaskX) : (h.setTask k f).shadows = h.shadows := id rfl
@[simp] theorem Head.setTask_boot (k : Nat) (f : TaskX → TaskX) : (h.setTask k f).boot = h.boot := id rfl
@[simp] theorem Head.setTask_bell (k : Nat) (f : TaskX → TaskX) : (h.setTask k f).bell = h.bell := id rfl
@[simp] theorem Head.setTask_time (k : Nat) (f : TaskX → TaskX) : (h.setTask k f).time = h.time := id rfl
@[simp] theorem Head.setTask_net (k : Nat) (f : TaskX → TaskX) : (h.setTask k f).net = h.net := id rfl
@[simp] theorem Head.setTask_engines (k : Nat) (f : TaskX → TaskX) : (h.setTask k f).engines = h.engines := id rfl
@[simp] theorem Head.setTask_axes (k : Nat) (f : TaskX → TaskX) : (h.setTask k f).axes = h.axes := id rfl
@[simp] theorem Head.setTask_motion (k : Nat) (f : TaskX → TaskX) : (h.setTask k f).motion = h.motion := id rfl
@[simp] theorem Head.setTask_core (k : Nat) (f : TaskX → TaskX) : (h.setTask k f).core = h.core := id rfl
@[simp] theorem Head.setTask_red (k : Nat) (f : TaskX → TaskX) : (h.setTask k f).red = h.red := id rfl
@[simp] theorem Head.setTask_acq (k : Nat) (f : TaskX → TaskX) : (h.setTask k f).acq = h.acq := id rfl
@[simp] theorem Head.setTask_host (k : Nat) (f : TaskX → TaskX) : (h.setTask k f).host = h.host := id rfl
@[simp] theorem Head.setTask_log (k : Nat) (f : TaskX → TaskX) : (h.setTask k f).log = h.log := id rfl
@[simp] theorem Head.setTask_holds (k : Nat) (f : TaskX → TaskX) : (h.setTask k f).holds = h.holds := id rfl
@[simp] theorem Head.setTask_draws (k : Nat) (f : TaskX → TaskX) : (h.setTask k f).draws = h.draws := id rfl
@[simp] theorem Head.rd_setTask (k : Nat) (f : TaskX → TaskX) (x : Nat) : (h.setTask k f).rd x = h.rd x := id rfl
@[simp] theorem Head.fld_setTask (k : Nat) (f : TaskX → TaskX) (x : Fld) : (h.setTask k f).fld x = h.fld x := id rfl
@[simp] theorem Head.setEngine_now (k : Nat) (f : Engine → Engine) : (h.setEngine k f).now = h.now := id rfl
@[simp] theorem Head.setEngine_regs (k : Nat) (f : Engine → Engine) : (h.setEngine k f).regs = h.regs := id rfl
@[simp] theorem Head.setEngine_shadows (k : Nat) (f : Engine → Engine) : (h.setEngine k f).shadows = h.shadows := id rfl
@[simp] theorem Head.setEngine_boot (k : Nat) (f : Engine → Engine) : (h.setEngine k f).boot = h.boot := id rfl
@[simp] theorem Head.setEngine_bell (k : Nat) (f : Engine → Engine) : (h.setEngine k f).bell = h.bell := id rfl
@[simp] theorem Head.setEngine_time (k : Nat) (f : Engine → Engine) : (h.setEngine k f).time = h.time := id rfl
@[simp] theorem Head.setEngine_net (k : Nat) (f : Engine → Engine) : (h.setEngine k f).net = h.net := id rfl
@[simp] theorem Head.setEngine_sched (k : Nat) (f : Engine → Engine) : (h.setEngine k f).sched = h.sched := id rfl
@[simp] theorem Head.setEngine_axes (k : Nat) (f : Engine → Engine) : (h.setEngine k f).axes = h.axes := id rfl
@[simp] theorem Head.setEngine_motion (k : Nat) (f : Engine → Engine) : (h.setEngine k f).motion = h.motion := id rfl
@[simp] theorem Head.setEngine_core (k : Nat) (f : Engine → Engine) : (h.setEngine k f).core = h.core := id rfl
@[simp] theorem Head.setEngine_red (k : Nat) (f : Engine → Engine) : (h.setEngine k f).red = h.red := id rfl
@[simp] theorem Head.setEngine_acq (k : Nat) (f : Engine → Engine) : (h.setEngine k f).acq = h.acq := id rfl
@[simp] theorem Head.setEngine_host (k : Nat) (f : Engine → Engine) : (h.setEngine k f).host = h.host := id rfl
@[simp] theorem Head.setEngine_log (k : Nat) (f : Engine → Engine) : (h.setEngine k f).log = h.log := id rfl
@[simp] theorem Head.setEngine_holds (k : Nat) (f : Engine → Engine) : (h.setEngine k f).holds = h.holds := id rfl
@[simp] theorem Head.setEngine_draws (k : Nat) (f : Engine → Engine) : (h.setEngine k f).draws = h.draws := id rfl
@[simp] theorem Head.rd_setEngine (k : Nat) (f : Engine → Engine) (x : Nat) : (h.setEngine k f).rd x = h.rd x := id rfl
@[simp] theorem Head.fld_setEngine (k : Nat) (f : Engine → Engine) (x : Fld) : (h.setEngine k f).fld x = h.fld x := id rfl
@[simp] theorem Head.setMot_now (k : Nat) (f : Motion → Motion) : (h.setMot k f).now = h.now := id rfl
@[simp] theorem Head.setMot_regs (k : Nat) (f : Motion → Motion) : (h.setMot k f).regs = h.regs := id rfl
@[simp] theorem Head.setMot_shadows (k : Nat) (f : Motion → Motion) : (h.setMot k f).shadows = h.shadows := id rfl
@[simp] theorem Head.setMot_boot (k : Nat) (f : Motion → Motion) : (h.setMot k f).boot = h.boot := id rfl
@[simp] theorem Head.setMot_bell (k : Nat) (f : Motion → Motion) : (h.setMot k f).bell = h.bell := id rfl
@[simp] theorem Head.setMot_time (k : Nat) (f : Motion → Motion) : (h.setMot k f).time = h.time := id rfl
@[simp] theorem Head.setMot_net (k : Nat) (f : Motion → Motion) : (h.setMot k f).net = h.net := id rfl
@[simp] theorem Head.setMot_sched (k : Nat) (f : Motion → Motion) : (h.setMot k f).sched = h.sched := id rfl
@[simp] theorem Head.setMot_engines (k : Nat) (f : Motion → Motion) : (h.setMot k f).engines = h.engines := id rfl
@[simp] theorem Head.setMot_axes (k : Nat) (f : Motion → Motion) : (h.setMot k f).axes = h.axes := id rfl
@[simp] theorem Head.setMot_core (k : Nat) (f : Motion → Motion) : (h.setMot k f).core = h.core := id rfl
@[simp] theorem Head.setMot_red (k : Nat) (f : Motion → Motion) : (h.setMot k f).red = h.red := id rfl
@[simp] theorem Head.setMot_acq (k : Nat) (f : Motion → Motion) : (h.setMot k f).acq = h.acq := id rfl
@[simp] theorem Head.setMot_host (k : Nat) (f : Motion → Motion) : (h.setMot k f).host = h.host := id rfl
@[simp] theorem Head.setMot_log (k : Nat) (f : Motion → Motion) : (h.setMot k f).log = h.log := id rfl
@[simp] theorem Head.setMot_holds (k : Nat) (f : Motion → Motion) : (h.setMot k f).holds = h.holds := id rfl
@[simp] theorem Head.setMot_draws (k : Nat) (f : Motion → Motion) : (h.setMot k f).draws = h.draws := id rfl
@[simp] theorem Head.rd_setMot (k : Nat) (f : Motion → Motion) (x : Nat) : (h.setMot k f).rd x = h.rd x := id rfl
@[simp] theorem Head.fld_setMot (k : Nat) (f : Motion → Motion) (x : Fld) : (h.setMot k f).fld x = h.fld x := id rfl
@[simp] theorem Head.setAxis_now (k : Nat) (f : Axis → Axis) : (h.setAxis k f).now = h.now := id rfl
@[simp] theorem Head.setAxis_regs (k : Nat) (f : Axis → Axis) : (h.setAxis k f).regs = h.regs := id rfl
@[simp] theorem Head.setAxis_shadows (k : Nat) (f : Axis → Axis) : (h.setAxis k f).shadows = h.shadows := id rfl
@[simp] theorem Head.setAxis_boot (k : Nat) (f : Axis → Axis) : (h.setAxis k f).boot = h.boot := id rfl
@[simp] theorem Head.setAxis_bell (k : Nat) (f : Axis → Axis) : (h.setAxis k f).bell = h.bell := id rfl
@[simp] theorem Head.setAxis_time (k : Nat) (f : Axis → Axis) : (h.setAxis k f).time = h.time := id rfl
@[simp] theorem Head.setAxis_net (k : Nat) (f : Axis → Axis) : (h.setAxis k f).net = h.net := id rfl
@[simp] theorem Head.setAxis_sched (k : Nat) (f : Axis → Axis) : (h.setAxis k f).sched = h.sched := id rfl
@[simp] theorem Head.setAxis_engines (k : Nat) (f : Axis → Axis) : (h.setAxis k f).engines = h.engines := id rfl
@[simp] theorem Head.setAxis_motion (k : Nat) (f : Axis → Axis) : (h.setAxis k f).motion = h.motion := id rfl
@[simp] theorem Head.setAxis_core (k : Nat) (f : Axis → Axis) : (h.setAxis k f).core = h.core := id rfl
@[simp] theorem Head.setAxis_red (k : Nat) (f : Axis → Axis) : (h.setAxis k f).red = h.red := id rfl
@[simp] theorem Head.setAxis_acq (k : Nat) (f : Axis → Axis) : (h.setAxis k f).acq = h.acq := id rfl
@[simp] theorem Head.setAxis_host (k : Nat) (f : Axis → Axis) : (h.setAxis k f).host = h.host := id rfl
@[simp] theorem Head.setAxis_log (k : Nat) (f : Axis → Axis) : (h.setAxis k f).log = h.log := id rfl
@[simp] theorem Head.setAxis_holds (k : Nat) (f : Axis → Axis) : (h.setAxis k f).holds = h.holds := id rfl
@[simp] theorem Head.setAxis_draws (k : Nat) (f : Axis → Axis) : (h.setAxis k f).draws = h.draws := id rfl
@[simp] theorem Head.rd_setAxis (k : Nat) (f : Axis → Axis) (x : Nat) : (h.setAxis k f).rd x = h.rd x := id rfl
@[simp] theorem Head.fld_setAxis (k : Nat) (f : Axis → Axis) (x : Fld) : (h.setAxis k f).fld x = h.fld x := id rfl
@[simp] theorem Head.setLane_now (k : Nat) (f : Lane → Lane) : (h.setLane k f).now = h.now := id rfl
@[simp] theorem Head.setLane_regs (k : Nat) (f : Lane → Lane) : (h.setLane k f).regs = h.regs := id rfl
@[simp] theorem Head.setLane_shadows (k : Nat) (f : Lane → Lane) : (h.setLane k f).shadows = h.shadows := id rfl
@[simp] theorem Head.setLane_boot (k : Nat) (f : Lane → Lane) : (h.setLane k f).boot = h.boot := id rfl
@[simp] theorem Head.setLane_bell (k : Nat) (f : Lane → Lane) : (h.setLane k f).bell = h.bell := id rfl
@[simp] theorem Head.setLane_time (k : Nat) (f : Lane → Lane) : (h.setLane k f).time = h.time := id rfl
@[simp] theorem Head.setLane_sched (k : Nat) (f : Lane → Lane) : (h.setLane k f).sched = h.sched := id rfl
@[simp] theorem Head.setLane_engines (k : Nat) (f : Lane → Lane) : (h.setLane k f).engines = h.engines := id rfl
@[simp] theorem Head.setLane_axes (k : Nat) (f : Lane → Lane) : (h.setLane k f).axes = h.axes := id rfl
@[simp] theorem Head.setLane_motion (k : Nat) (f : Lane → Lane) : (h.setLane k f).motion = h.motion := id rfl
@[simp] theorem Head.setLane_core (k : Nat) (f : Lane → Lane) : (h.setLane k f).core = h.core := id rfl
@[simp] theorem Head.setLane_red (k : Nat) (f : Lane → Lane) : (h.setLane k f).red = h.red := id rfl
@[simp] theorem Head.setLane_acq (k : Nat) (f : Lane → Lane) : (h.setLane k f).acq = h.acq := id rfl
@[simp] theorem Head.setLane_host (k : Nat) (f : Lane → Lane) : (h.setLane k f).host = h.host := id rfl
@[simp] theorem Head.setLane_log (k : Nat) (f : Lane → Lane) : (h.setLane k f).log = h.log := id rfl
@[simp] theorem Head.setLane_holds (k : Nat) (f : Lane → Lane) : (h.setLane k f).holds = h.holds := id rfl
@[simp] theorem Head.setLane_draws (k : Nat) (f : Lane → Lane) : (h.setLane k f).draws = h.draws := id rfl
@[simp] theorem Head.rd_setLane (k : Nat) (f : Lane → Lane) (x : Nat) : (h.setLane k f).rd x = h.rd x := id rfl
@[simp] theorem Head.fld_setLane (k : Nat) (f : Lane → Lane) (x : Fld) : (h.setLane k f).fld x = h.fld x := id rfl
@[simp] theorem Head.shadow_now (a v : Nat) : (h.shadow a v).now = h.now := id rfl
@[simp] theorem Head.shadow_regs (a v : Nat) : (h.shadow a v).regs = h.regs := id rfl
@[simp] theorem Head.shadow_boot (a v : Nat) : (h.shadow a v).boot = h.boot := id rfl
@[simp] theorem Head.shadow_bell (a v : Nat) : (h.shadow a v).bell = h.bell := id rfl
@[simp] theorem Head.shadow_time (a v : Nat) : (h.shadow a v).time = h.time := id rfl
@[simp] theorem Head.shadow_net (a v : Nat) : (h.shadow a v).net = h.net := id rfl
@[simp] theorem Head.shadow_sched (a v : Nat) : (h.shadow a v).sched = h.sched := id rfl
@[simp] theorem Head.shadow_engines (a v : Nat) : (h.shadow a v).engines = h.engines := id rfl
@[simp] theorem Head.shadow_axes (a v : Nat) : (h.shadow a v).axes = h.axes := id rfl
@[simp] theorem Head.shadow_motion (a v : Nat) : (h.shadow a v).motion = h.motion := id rfl
@[simp] theorem Head.shadow_core (a v : Nat) : (h.shadow a v).core = h.core := id rfl
@[simp] theorem Head.shadow_red (a v : Nat) : (h.shadow a v).red = h.red := id rfl
@[simp] theorem Head.shadow_acq (a v : Nat) : (h.shadow a v).acq = h.acq := id rfl
@[simp] theorem Head.shadow_host (a v : Nat) : (h.shadow a v).host = h.host := id rfl
@[simp] theorem Head.shadow_log (a v : Nat) : (h.shadow a v).log = h.log := id rfl
@[simp] theorem Head.shadow_holds (a v : Nat) : (h.shadow a v).holds = h.holds := id rfl
@[simp] theorem Head.shadow_draws (a v : Nat) : (h.shadow a v).draws = h.draws := id rfl
@[simp] theorem Head.rd_shadow (a v : Nat) (x : Nat) : (h.shadow a v).rd x = h.rd x := id rfl
@[simp] theorem Head.fld_shadow (a v : Nat) (x : Fld) : (h.shadow a v).fld x = h.fld x := id rfl
@[simp] theorem Head.setBoot_boot (f : Boot → Boot) : (h.setBoot f).boot = f h.boot := id rfl
@[simp] theorem Head.setHost_host (f : HostPort → HostPort) : (h.setHost f).host = f h.host := id rfl
@[simp] theorem Head.setLog_log (f : Log → Log) : (h.setLog f).log = f h.log := id rfl
@[simp] theorem Head.setCore_core (f : SafeCore → SafeCore) : (h.setCore f).core = f h.core := id rfl
@[simp] theorem Head.setRed_red (f : Red → Red) : (h.setRed f).red = f h.red := id rfl
@[simp] theorem Head.setAcq_acq (f : Acq → Acq) : (h.setAcq f).acq = f h.acq := id rfl
@[simp] theorem Head.shadow_shadows (a v : Nat) : (h.shadow a v).shadows = h.shadows.filter (fun e => e.1 != a) ++ [(a, BitVec.ofNat 32 v)] := rfl

end Sys2Proof.Machine
end

