-- ==== Sys2Proof/Laws/Raise.lean ====
section
/-! SUPPORT. Operations that write registers alone, said once; what raising an event and adding a record to the log leave alone: all but
the registers, the table's and the acquisition engine's snapshots, and the log. -/

namespace Sys2Proof.Machine

/-- The head with other registers and nothing else changed. -/
def RegsOnly (h g : Head) : Prop := ∃ r e, g = { h with regs := r, ecc := e }

theorem RegsOnly.refl (h : Head) : RegsOnly h h := ⟨h.regs, h.ecc, rfl⟩
theorem RegsOnly.trans {a b c : Head} (h1 : RegsOnly a b) (h2 : RegsOnly b c) : RegsOnly a c := by
  obtain ⟨r, e, rfl⟩ := h1; obtain ⟨r', e', rfl⟩ := h2; exact ⟨r', e', rfl⟩
theorem RegsOnly.ite {h a b : Head} (c : Prop) [Decidable c] (ha : RegsOnly h a) (hb : RegsOnly h b) : RegsOnly h (if c then a else b) := by
  split_ifs <;> assumption
theorem RegsOnly.wr {h g : Head} (hg : RegsOnly h g) (a v : Nat) : RegsOnly h (g.wr a v) := hg.trans ⟨_, _, rfl⟩
theorem RegsOnly.put {h g : Head} (hg : RegsOnly h g) (f : Fld) (v : Nat) : RegsOnly h (g.put f v) := hg.wr _ _
theorem RegsOnly.bump {h g : Head} (hg : RegsOnly h g) (a : Nat) : RegsOnly h (g.bump a) := hg.wr _ _
theorem RegsOnly.orReg {h g : Head} (hg : RegsOnly h g) (a v : Nat) : RegsOnly h (g.orReg a v) := hg.wr _ _
theorem RegsOnly.wrPair {h g : Head} (hg : RegsOnly h g) (a v : Nat) : RegsOnly h (g.wrPair a v) := (hg.wr _ _).wr _ _
theorem RegsOnly.foldl {α : Type} {h : Head} (f : Head → α → Head) (hf : ∀ g a, RegsOnly g (f g a)) (l : List α) : RegsOnly h (l.foldl f h) := by
  induction l generalizing h with
  | nil => exact .refl h
  | cons a l ih => exact (hf h a).trans ih

/-- The head with other registers, snapshots and log, and nothing else changed. -/
def LogOnly (h g : Head) : Prop := ∃ r e m a l, g = { h with regs := r, ecc := e, mst := m, acq := a, log := l }

theorem RegsOnly.toLog {h g : Head} (hg : RegsOnly h g) : LogOnly h g := by
  obtain ⟨r, e, rfl⟩ := hg; exact ⟨r, e, h.mst, h.acq, h.log, rfl⟩
theorem LogOnly.trans {a b c : Head} (h1 : LogOnly a b) (h2 : LogOnly b c) : LogOnly a c := by
  obtain ⟨r, e, m, q, l, rfl⟩ := h1; obtain ⟨r', e', m', q', l', rfl⟩ := h2; exact ⟨r', e', m', q', l', rfl⟩
theorem LogOnly.ite {h a b : Head} (c : Prop) [Decidable c] (ha : LogOnly h a) (hb : LogOnly h b) : LogOnly h (if c then a else b) := by
  split_ifs <;> assumption

/-! ## Events and records -/

variable (h : Head)

theorem Head.report_regsOnly (a b e : Nat) : RegsOnly h (h.report a b e) :=
  RegsOnly.trans ((((RegsOnly.refl h).put _ _).wrPair _ _).bump _)
    (RegsOnly.trans (RegsOnly.ite _ ((RegsOnly.refl _).orReg _ _) (.refl _))
      (RegsOnly.trans (RegsOnly.ite _ ((RegsOnly.refl _).put _ _) (.refl _)) (RegsOnly.ite _ ((RegsOnly.refl _).put _ _) (.refl _))))
theorem Head.tell_logOnly (e : Nat) : LogOnly h (h.tell e) := ⟨_, _, _, _, _, rfl⟩
theorem Head.signal_logOnly (e : Nat) : LogOnly h (h.signal e) := ⟨_, _, _, _, _, rfl⟩
theorem Head.logPut_logOnly (r : LogRec) : LogOnly h (h.logPut r) := ⟨_, _, _, _, _, rfl⟩
theorem Head.logRepeat_logOnly (t c : Nat) : LogOnly h (h.logRepeat t c) := ⟨_, _, _, _, _, rfl⟩
theorem Head.logLost_logOnly : LogOnly h h.logLost :=
  (RegsOnly.toLog (((RegsOnly.refl h).bump _).trans (Head.report_regsOnly _ _ _ _))).trans (Head.signal_logOnly _ _)
theorem Head.logAdd_logOnly (a b c d : Nat) : LogOnly h (h.logAdd a b c d) :=
  LogOnly.ite _ (h.logRepeat_logOnly _ _) (LogOnly.ite _ (h.logPut_logOnly _) h.logLost_logOnly)
theorem Head.raise_logOnly (a b c : Nat) : LogOnly h (h.raise a b c) :=
  ((h.signal_logOnly _).trans (Head.report_regsOnly _ _ _ _).toLog).trans (LogOnly.ite _ (Head.logAdd_logOnly _ _ _ _ _) (RegsOnly.refl _).toLog)

theorem RegsOnly.now {h g : Head} (hg : RegsOnly h g) : g.now = h.now := by obtain ⟨r, e, rfl⟩ := hg; rfl
theorem LogOnly.now {h g : Head} (hg : LogOnly h g) : g.now = h.now := by obtain ⟨r, e, m, a, l, rfl⟩ := hg; rfl
@[simp] theorem Head.logAdd_now (a b c d : Nat) : (h.logAdd a b c d).now = h.now := (h.logAdd_logOnly a b c d).now
@[simp] theorem Head.raise_now (a b c : Nat) : (h.raise a b c).now = h.now := (h.raise_logOnly a b c).now
theorem RegsOnly.boot {h g : Head} (hg : RegsOnly h g) : g.boot = h.boot := by obtain ⟨r, e, rfl⟩ := hg; rfl
theorem LogOnly.boot {h g : Head} (hg : LogOnly h g) : g.boot = h.boot := by obtain ⟨r, e, m, a, l, rfl⟩ := hg; rfl
@[simp] theorem Head.logAdd_boot (a b c d : Nat) : (h.logAdd a b c d).boot = h.boot := (h.logAdd_logOnly a b c d).boot
@[simp] theorem Head.raise_boot (a b c : Nat) : (h.raise a b c).boot = h.boot := (h.raise_logOnly a b c).boot
theorem RegsOnly.bell {h g : Head} (hg : RegsOnly h g) : g.bell = h.bell := by obtain ⟨r, e, rfl⟩ := hg; rfl
theorem LogOnly.bell {h g : Head} (hg : LogOnly h g) : g.bell = h.bell := by obtain ⟨r, e, m, a, l, rfl⟩ := hg; rfl
@[simp] theorem Head.logAdd_bell (a b c d : Nat) : (h.logAdd a b c d).bell = h.bell := (h.logAdd_logOnly a b c d).bell
@[simp] theorem Head.raise_bell (a b c : Nat) : (h.raise a b c).bell = h.bell := (h.raise_logOnly a b c).bell
theorem RegsOnly.time {h g : Head} (hg : RegsOnly h g) : g.time = h.time := by obtain ⟨r, e, rfl⟩ := hg; rfl
theorem LogOnly.time {h g : Head} (hg : LogOnly h g) : g.time = h.time := by obtain ⟨r, e, m, a, l, rfl⟩ := hg; rfl
@[simp] theorem Head.logAdd_time (a b c d : Nat) : (h.logAdd a b c d).time = h.time := (h.logAdd_logOnly a b c d).time
@[simp] theorem Head.raise_time (a b c : Nat) : (h.raise a b c).time = h.time := (h.raise_logOnly a b c).time
theorem RegsOnly.net {h g : Head} (hg : RegsOnly h g) : g.net = h.net := by obtain ⟨r, e, rfl⟩ := hg; rfl
theorem LogOnly.net {h g : Head} (hg : LogOnly h g) : g.net = h.net := by obtain ⟨r, e, m, a, l, rfl⟩ := hg; rfl
@[simp] theorem Head.logAdd_net (a b c d : Nat) : (h.logAdd a b c d).net = h.net := (h.logAdd_logOnly a b c d).net
@[simp] theorem Head.raise_net (a b c : Nat) : (h.raise a b c).net = h.net := (h.raise_logOnly a b c).net
theorem RegsOnly.sched {h g : Head} (hg : RegsOnly h g) : g.sched = h.sched := by obtain ⟨r, e, rfl⟩ := hg; rfl
theorem LogOnly.sched {h g : Head} (hg : LogOnly h g) : g.sched = h.sched := by obtain ⟨r, e, m, a, l, rfl⟩ := hg; rfl
@[simp] theorem Head.logAdd_sched (a b c d : Nat) : (h.logAdd a b c d).sched = h.sched := (h.logAdd_logOnly a b c d).sched
@[simp] theorem Head.raise_sched (a b c : Nat) : (h.raise a b c).sched = h.sched := (h.raise_logOnly a b c).sched
theorem RegsOnly.engines {h g : Head} (hg : RegsOnly h g) : g.engines = h.engines := by obtain ⟨r, e, rfl⟩ := hg; rfl
theorem LogOnly.engines {h g : Head} (hg : LogOnly h g) : g.engines = h.engines := by obtain ⟨r, e, m, a, l, rfl⟩ := hg; rfl
@[simp] theorem Head.logAdd_engines (a b c d : Nat) : (h.logAdd a b c d).engines = h.engines := (h.logAdd_logOnly a b c d).engines
@[simp] theorem Head.raise_engines (a b c : Nat) : (h.raise a b c).engines = h.engines := (h.raise_logOnly a b c).engines
theorem RegsOnly.axes {h g : Head} (hg : RegsOnly h g) : g.axes = h.axes := by obtain ⟨r, e, rfl⟩ := hg; rfl
theorem LogOnly.axes {h g : Head} (hg : LogOnly h g) : g.axes = h.axes := by obtain ⟨r, e, m, a, l, rfl⟩ := hg; rfl
@[simp] theorem Head.logAdd_axes (a b c d : Nat) : (h.logAdd a b c d).axes = h.axes := (h.logAdd_logOnly a b c d).axes
@[simp] theorem Head.raise_axes (a b c : Nat) : (h.raise a b c).axes = h.axes := (h.raise_logOnly a b c).axes
theorem RegsOnly.motion {h g : Head} (hg : RegsOnly h g) : g.motion = h.motion := by obtain ⟨r, e, rfl⟩ := hg; rfl
theorem LogOnly.motion {h g : Head} (hg : LogOnly h g) : g.motion = h.motion := by obtain ⟨r, e, m, a, l, rfl⟩ := hg; rfl
@[simp] theorem Head.logAdd_motion (a b c d : Nat) : (h.logAdd a b c d).motion = h.motion := (h.logAdd_logOnly a b c d).motion
@[simp] theorem Head.raise_motion (a b c : Nat) : (h.raise a b c).motion = h.motion := (h.raise_logOnly a b c).motion
theorem RegsOnly.core {h g : Head} (hg : RegsOnly h g) : g.core = h.core := by obtain ⟨r, e, rfl⟩ := hg; rfl
theorem LogOnly.core {h g : Head} (hg : LogOnly h g) : g.core = h.core := by obtain ⟨r, e, m, a, l, rfl⟩ := hg; rfl
@[simp] theorem Head.logAdd_core (a b c d : Nat) : (h.logAdd a b c d).core = h.core := (h.logAdd_logOnly a b c d).core
@[simp] theorem Head.raise_core (a b c : Nat) : (h.raise a b c).core = h.core := (h.raise_logOnly a b c).core
theorem RegsOnly.red {h g : Head} (hg : RegsOnly h g) : g.red = h.red := by obtain ⟨r, e, rfl⟩ := hg; rfl
theorem LogOnly.red {h g : Head} (hg : LogOnly h g) : g.red = h.red := by obtain ⟨r, e, m, a, l, rfl⟩ := hg; rfl
@[simp] theorem Head.logAdd_red (a b c d : Nat) : (h.logAdd a b c d).red = h.red := (h.logAdd_logOnly a b c d).red
@[simp] theorem Head.raise_red (a b c : Nat) : (h.raise a b c).red = h.red := (h.raise_logOnly a b c).red
theorem RegsOnly.host {h g : Head} (hg : RegsOnly h g) : g.host = h.host := by obtain ⟨r, e, rfl⟩ := hg; rfl
theorem LogOnly.host {h g : Head} (hg : LogOnly h g) : g.host = h.host := by obtain ⟨r, e, m, a, l, rfl⟩ := hg; rfl
@[simp] theorem Head.logAdd_host (a b c d : Nat) : (h.logAdd a b c d).host = h.host := (h.logAdd_logOnly a b c d).host
@[simp] theorem Head.raise_host (a b c : Nat) : (h.raise a b c).host = h.host := (h.raise_logOnly a b c).host
theorem RegsOnly.shadows {h g : Head} (hg : RegsOnly h g) : g.shadows = h.shadows := by obtain ⟨r, e, rfl⟩ := hg; rfl
theorem LogOnly.shadows {h g : Head} (hg : LogOnly h g) : g.shadows = h.shadows := by obtain ⟨r, e, m, a, l, rfl⟩ := hg; rfl
@[simp] theorem Head.logAdd_shadows (a b c d : Nat) : (h.logAdd a b c d).shadows = h.shadows := (h.logAdd_logOnly a b c d).shadows
@[simp] theorem Head.raise_shadows (a b c : Nat) : (h.raise a b c).shadows = h.shadows := (h.raise_logOnly a b c).shadows
theorem RegsOnly.draws {h g : Head} (hg : RegsOnly h g) : g.draws = h.draws := by obtain ⟨r, e, rfl⟩ := hg; rfl
theorem LogOnly.draws {h g : Head} (hg : LogOnly h g) : g.draws = h.draws := by obtain ⟨r, e, m, a, l, rfl⟩ := hg; rfl
@[simp] theorem Head.logAdd_draws (a b c d : Nat) : (h.logAdd a b c d).draws = h.draws := (h.logAdd_logOnly a b c d).draws
@[simp] theorem Head.raise_draws (a b c : Nat) : (h.raise a b c).draws = h.draws := (h.raise_logOnly a b c).draws
theorem RegsOnly.holds {h g : Head} (hg : RegsOnly h g) : g.holds = h.holds := by obtain ⟨r, e, rfl⟩ := hg; rfl
theorem LogOnly.holds {h g : Head} (hg : LogOnly h g) : g.holds = h.holds := by obtain ⟨r, e, m, a, l, rfl⟩ := hg; rfl
@[simp] theorem Head.logAdd_holds (a b c d : Nat) : (h.logAdd a b c d).holds = h.holds := (h.logAdd_logOnly a b c d).holds
@[simp] theorem Head.raise_holds (a b c : Nat) : (h.raise a b c).holds = h.holds := (h.raise_logOnly a b c).holds
theorem RegsOnly.loops {h g : Head} (hg : RegsOnly h g) : g.loops = h.loops := by obtain ⟨r, e, rfl⟩ := hg; rfl
theorem LogOnly.loops {h g : Head} (hg : LogOnly h g) : g.loops = h.loops := by obtain ⟨r, e, m, a, l, rfl⟩ := hg; rfl
@[simp] theorem Head.logAdd_loops (a b c d : Nat) : (h.logAdd a b c d).loops = h.loops := (h.logAdd_logOnly a b c d).loops
@[simp] theorem Head.raise_loops (a b c : Nat) : (h.raise a b c).loops = h.loops := (h.raise_logOnly a b c).loops
theorem RegsOnly.vms {h g : Head} (hg : RegsOnly h g) : g.vms = h.vms := by obtain ⟨r, e, rfl⟩ := hg; rfl
theorem LogOnly.vms {h g : Head} (hg : LogOnly h g) : g.vms = h.vms := by obtain ⟨r, e, m, a, l, rfl⟩ := hg; rfl
@[simp] theorem Head.logAdd_vms (a b c d : Nat) : (h.logAdd a b c d).vms = h.vms := (h.logAdd_logOnly a b c d).vms
@[simp] theorem Head.raise_vms (a b c : Nat) : (h.raise a b c).vms = h.vms := (h.raise_logOnly a b c).vms
theorem RegsOnly.follow {h g : Head} (hg : RegsOnly h g) : g.follow = h.follow := by obtain ⟨r, e, rfl⟩ := hg; rfl
theorem LogOnly.follow {h g : Head} (hg : LogOnly h g) : g.follow = h.follow := by obtain ⟨r, e, m, a, l, rfl⟩ := hg; rfl
@[simp] theorem Head.logAdd_follow (a b c d : Nat) : (h.logAdd a b c d).follow = h.follow := (h.logAdd_logOnly a b c d).follow
@[simp] theorem Head.raise_follow (a b c : Nat) : (h.raise a b c).follow = h.follow := (h.raise_logOnly a b c).follow

end Sys2Proof.Machine
end

