-- ==== Sys2Proof/Laws/Writes.lean ====
section
/-! SUPPORT. A register write, said once: what the head makes of one accepted word. -/

namespace Sys2Proof.Machine

/-- A register of one word, with no W1C bits, that a view may write. -/
def plainWord (engineer : Bool) (a : Nat) : Bool :=
  (addrFault [a]).isNone && !writeDenied engineer a && clearable1 a == 0 &&
    (writable a true != 0 || decide (0x200000 ≤ a) || a == TIME_MT_ADDEND) && halfOf a == .one

/-- What the Operator view may write, the Engineer view may. -/
theorem plainWord_view {a : Nat} (h : plainWord false a = true) (e : Bool) : plainWord e a = true := by
  cases e
  · exact h
  · simp only [plainWord, writeDenied, Bool.and_eq_true, Bool.not_eq_true', Bool.or_eq_false_iff, Bool.not_true, Bool.not_false,
      Bool.and_true, Bool.and_false] at h ⊢
    obtain ⟨⟨⟨⟨h1, h2⟩, h3⟩, h4⟩, h5⟩ := h
    refine ⟨⟨⟨⟨h1, ?_⟩, h3⟩, h4⟩, h5⟩
    simp_all

/-- A plain word goes to its block. -/
theorem Head.writeWord_plain (h : Head) (key : List Nat) (a v : Nat) (e : Bool) (hp : plainWord e a = true) (hb : h.blockBusy a = false) :
    h.writeWord key a v e = h.writeBlock key a v e := by
  simp only [plainWord, Bool.and_eq_true, Bool.or_eq_true, decide_eq_true_eq, beq_iff_eq, bne_iff_ne] at hp
  obtain ⟨⟨⟨_, h3⟩, h4⟩, h5⟩ := hp
  unfold Head.writeWord
  rw [if_neg (fun hc => by rcases h4 with (h4 | h4) | h4 <;> [exact h4 hc.2.2.2.2.2; omega; exact hc.2.2.2.1 h4])]
  simp only [h3, h5, hb, ne_eq, not_true_eq_false, if_false, Bool.false_eq_true, ite_self]

/-- A bit of a word with a field replaced. -/
theorem testBit_putBits (w hi lo v k : Nat) (h : lo ≤ hi) :
    (putBits w hi lo v).testBit k = if lo ≤ k ∧ k ≤ hi then v.testBit (k - lo) else w.testBit k := by
  have hb : ∀ x, bits x k k = (x.testBit k).toNat := by
    intro x
    simp only [bits, show k + 1 - k = 1 by omega, pow_one]
    exact (Nat.toNat_testBit x k).symm
  by_cases hin : lo ≤ k ∧ k ≤ hi
  · rw [if_pos hin]
    have hx := congrArg (fun x => x.testBit (k - lo)) (bits_putBits w hi lo v (by omega))
    simp only [bits, Nat.testBit_mod_two_pow, Nat.testBit_div_two_pow, show k - lo + lo = k by omega,
      show k - lo < hi + 1 - lo by omega, decide_true, Bool.true_and] at hx
    exact hx
  · rw [if_neg hin]
    have : bits (putBits w hi lo v) k k = bits w k k := by
      rcases Nat.lt_or_ge k lo with hk | hk
      · exact bits_putBits_below w hi lo v k k (by omega) hk
      · exact bits_putBits_above w hi lo v k k (by omega) (by omega)
    rw [hb, hb] at this
    cases h1 : (putBits w hi lo v).testBit k <;> cases h2 : w.testBit k <;> simp_all

theorem testBit_band (a b k : Nat) : (band a b).testBit k = (decide (k < 32) && a.testBit k && b.testBit k) := by
  simp only [band, BitVec.toNat_and, BitVec.toNat_ofNat, Nat.testBit_and, Nat.testBit_mod_two_pow]
  cases decide (k < 32) <;> cases a.testBit k <;> simp

theorem band_lt (a b : Nat) : band a b < 2 ^ 32 := (BitVec.isLt _)

/-- The bits of a field. -/
def Fld.mask (f : Fld) : Nat := putBits 0 f.hi f.lo (2 ^ 32 - 1)

/-- A field, and the RW fields beside it, lie within the bits a view may write. -/
def Fld.within (f : Fld) (engineer : Bool) : Bool :=
  decide (f.lo ≤ f.hi) && decide (f.hi < 32) && bandNot (bor (stored f.addr) f.mask) (writable f.addr engineer) == 0

theorem Head.fieldWord_lt (h : Head) (f : Fld) (v : Nat) (h1 : f.lo ≤ f.hi) (h2 : f.hi < 32) : h.fieldWord f v < 2 ^ 32 :=
  putBits_lt _ _ _ _ _ (by omega) h2 (band_lt _ _)

/-- The word of a field write lies within the bits the view may write. -/
theorem Head.band_fieldWord (h : Head) (f : Fld) (v : Nat) (e : Bool) (hf : f.within e = true) :
    band (h.fieldWord f v) (writable f.addr e) = h.fieldWord f v := by
  simp only [Fld.within, Bool.and_eq_true, decide_eq_true_eq, beq_iff_eq] at hf
  obtain ⟨⟨h1, h2⟩, h3⟩ := hf
  have hin : ∀ k < 32, ((stored f.addr).testBit k = true ∨ f.lo ≤ k ∧ k ≤ f.hi) → (writable f.addr e).testBit k = true := by
    intro k hk hs
    have hx := congrArg (fun x => x.testBit k) h3
    simp only [bandNot, bor, Fld.mask, BitVec.toNat_and, BitVec.toNat_or, BitVec.toNat_not, BitVec.toNat_ofNat,
      Nat.testBit_and, Nat.testBit_or, Nat.testBit_mod_two_pow, Nat.zero_testBit, hk, decide_true, Bool.true_and] at hx
    rw [testBit_putBits _ _ _ _ _ h1] at hx
    rw [show (2 ^ 32 - 1 - writable f.addr e % 2 ^ 32) = (2 ^ 32 - (writable f.addr e % 2 ^ 32 + 1)) by omega,
      Nat.testBit_two_pow_sub_succ (Nat.mod_lt _ (by norm_num))] at hx
    simp only [Nat.testBit_mod_two_pow, hk, decide_true, Bool.true_and] at hx
    by_contra hc
    simp only [Bool.not_eq_true] at hc
    rw [hc] at hx
    rcases hs with hs | hs
    · simp [hs] at hx
    · rw [if_pos hs, show (2 ^ 32 - 1 : Nat) = 2 ^ 32 - (0 + 1) by norm_num, Nat.testBit_two_pow_sub_succ (by norm_num)] at hx
      simp [show k - f.lo < 32 by omega] at hx
  apply Nat.eq_of_testBit_eq
  intro k
  rw [testBit_band]
  by_cases hk : k < 32
  · simp only [hk, decide_true, Bool.true_and]
    by_cases hb : (h.fieldWord f v).testBit k = true
    · rw [hb, Bool.true_and]
      refine hin k hk ?_
      by_cases hr : f.lo ≤ k ∧ k ≤ f.hi
      · exact .inr hr
      · unfold Head.fieldWord at hb
        rw [testBit_putBits _ _ _ _ _ h1, if_neg hr, testBit_band] at hb
        simp only [Bool.and_eq_true] at hb
        exact .inl hb.2
    · simp only [Bool.not_eq_true] at hb; simp [hb]
  · simp only [hk, decide_false, Bool.false_and]
    exact (Nat.testBit_lt_two_pow (lt_of_lt_of_le (h.fieldWord_lt f v h1 h2) (Nat.pow_le_pow_right (by norm_num) (by omega)))).symm

/-- One accepted word. -/
theorem State.write_one (s : State) (a w : Nat) (h' : Head) (hs : s.serves) (hp : plainWord s.head.engineer a = true) (hw : w < 2 ^ 32)
    (hb : s.head.writeBlock s.key a w s.head.engineer = (h', 0)) (hq : h'.boot.want = 0) :
    s.write [(a, w)] = s.accepted h' [(a, BitVec.ofNat 32 w)] := by
  obtain ⟨⟨hr, h0⟩, hl, hu⟩ := hs
  have hbusy : s.head.blockBusy a = false := by simp [Head.blockBusy, hl, hu]
  have hww := Head.writeWord_plain s.head s.key a w s.head.engineer hp hbusy
  rw [hb] at hww
  simp only [plainWord, Bool.and_eq_true, Option.isNone_iff_eq_none, Bool.not_eq_true'] at hp
  obtain ⟨⟨⟨⟨h1, h2⟩, _⟩, _⟩, _⟩ := hp
  have hd : s.head.directWrite s.key [(a, BitVec.ofNat 32 w)] =
      (h'.mirrorWrites [(a, BitVec.ofNat 32 w)]).accepted.setHost (fun p => { p with last := 0 }) := by
    unfold Head.directWrite Head.commitWrite
    simp only [List.map_cons, List.map_nil, h1, List.zipIdx_cons, List.zipIdx_nil, List.find?_cons, h2, List.find?_nil, Head.runWrites,
      List.foldl_cons, List.foldl_nil, BitVec.toNat_ofNat, Nat.mod_eq_of_lt hw, hww, if_true]
  unfold State.write
  rw [State.onHead_eq s _ hr]
  · simp only [List.map_cons, List.map_nil, hd, State.accepted]
  · simp only [List.map_cons, List.map_nil, hd]
    unfold Head.accepted Head.mirrorWrites
    split_ifs <;> exact hq

/-- One accepted field. -/
theorem State.writeField_one (s : State) (f : Fld) (v : Nat) (h' : Head) (hs : s.serves) (hp : plainWord s.head.engineer f.addr = true)
    (hf : f.within s.head.engineer = true) 
    (hb : s.head.writeBlock s.key f.addr (s.head.fieldWord f v) s.head.engineer = (h', 0)) (hq : h'.boot.want = 0) :
    s.writeField f v = s.accepted h' [(f.addr, BitVec.ofNat 32 (s.head.fieldWord f v))] := by
  have hf' := hf
  simp only [Fld.within, Bool.and_eq_true, decide_eq_true_eq, beq_iff_eq] at hf'
  have hw := s.head.fieldWord_lt f v hf'.1.1 hf'.1.2
  rw [← s.write_one f.addr _ h' hs hp hw hb hq]
  simp only [State.writeField, State.write, State.onHead, State.onHeadThen, List.map_cons, List.map_nil]

/-! ## The block of a word -/

theorem Head.writeBlock_ax (h : Head) (key : List Nat) (n off v : Nat) (e : Bool) (hn : n < 128) (ho : off < 0x400) :
    h.writeBlock key (0x80000 + 0x400 * n + off) v e = h.writeAx (0x80000 + 0x400 * n + off) v e := by
  unfold Head.writeBlock
  rw [if_neg (by omega)]
  have : (0x80000 + 0x400 * n + off) / 65536 = 8 ∨ (0x80000 + 0x400 * n + off) / 65536 = 9 := by omega
  rcases this with h | h <;> rw [h] <;> rfl

theorem Head.writeBlock_vm (h : Head) (key : List Nat) (k off v : Nat) (e : Bool) (hk : k < 8) (ho : off < 0x80) :
    h.writeBlock key (0xA0000 + 0x80 * k + off) v e = h.writeVm (0xA0000 + 0x80 * k + off) v e := by
  unfold Head.writeBlock
  rw [if_neg (by omega), show (0xA0000 + 0x80 * k + off) / 65536 = 0xA by omega]
  rfl

theorem Head.writeBlock_pl (h : Head) (key : List Nat) (i off v : Nat) (e : Bool) (hi : i < 32) (ho : off < 0x100) :
    h.writeBlock key (0xB0000 + 0x100 * i + off) v e = h.writePl (0xB0000 + 0x100 * i + off) v e := by
  unfold Head.writeBlock
  rw [if_neg (by omega), show (0xB0000 + 0x100 * i + off) / 65536 = 0xB by omega]
  rfl

theorem Head.writeBlock_fb (h : Head) (key : List Nat) (off v : Nat) (e : Bool) (ho : off < 65536) :
    h.writeBlock key (0xC0000 + off) v e = h.writeFb (0xC0000 + off) v e := by
  unfold Head.writeBlock
  rw [if_neg (by omega), show (0xC0000 + off) / 65536 = 0xC by omega]
  rfl

theorem Head.writeBlock_node (h : Head) (key : List Nat) (off v : Nat) (e : Bool) (ho : off < 65536) :
    h.writeBlock key (0xD0000 + off) v e = h.writeNode (0xD0000 + off) v e := by
  unfold Head.writeBlock
  rw [if_neg (by omega), show (0xD0000 + off) / 65536 = 0xD by omega]
  rfl

theorem Head.writeBlock_boot (h : Head) (key : List Nat) (off v : Nat) (e : Bool) (ho : off < 65536) :
    h.writeBlock key (0x10000 + off) v e = h.writeBoot (0x10000 + off) v := by
  unfold Head.writeBlock
  rw [if_neg (by omega), show (0x10000 + off) / 65536 = 1 by omega]
  rfl

theorem Head.writeBlock_le (h : Head) (key : List Nat) (off v : Nat) (e : Bool) (ho : off < 0x30000) :
    h.writeBlock key (0x50000 + off) v e = h.writeLe (0x50000 + off) v := by
  unfold Head.writeBlock
  rw [if_neg (by omega)]
  have : (0x50000 + off) / 65536 = 5 ∨ (0x50000 + off) / 65536 = 6 ∨ (0x50000 + off) / 65536 = 7 := by omega
  rcases this with h | h | h <;> rw [h] <;> rfl

theorem Head.writeBlock_time (h : Head) (key : List Nat) (off v : Nat) (e : Bool) (ho : off < 65536) :
    h.writeBlock key (0x30000 + off) v e = h.writeTime (0x30000 + off) v e := by
  unfold Head.writeBlock
  rw [if_neg (by omega), show (0x30000 + off) / 65536 = 3 by omega]
  rfl

end Sys2Proof.Machine
end

