-- ==== Sys2Proof/Tests/Slice0.lean ====
section
/-! SUPPORT. Small states with parts of the machine at work; for each obligation a theorem `witness_<its name>` showing states and operands
that meet the hypotheses of its clauses (`test_image_passes` and `image_sound` for the sound image of LoadsAndFlashOperationsEnd); the spec's
worked examples; and the ill-formed commands that WellFormed refuses, each with `wf_`. -/

namespace Sys2Proof.Tests
open Sys2Proof.Machine
set_option Elab.async false

/-- A machine out of reset whose head is `f` of the initial one. -/
def out (f : Head → Head) : State := { State.reset with inReset := false, head := f Head.initial }

/-- A machine whose engine 0 runs with windows of 1024 words, then changed by `f`. -/
def lab (f : Engine → Engine) : State :=
  out (fun h => h.setEngine 0 (fun g => f { g with mode := .running, xWin := (0, 1024), yWin := (0, 1024), cWin := (0, 1024) }))

/-- A move slot that loads register `r` through its first pointer, which it steps by 1. -/
def mvTo (r : Fin 8) : MoveSlot := { dst := r, ptr := false, step := false }

/-- Contents with station 1 (axis 0) on lane 0: a command slot, a report slot, a Recess pair, an express slot, and the tasks 0 (current
task of axis 0), 1 (its motion task), 2 (of no axis, with the slots of station 1) and 960 (privileged). -/
def plan : Content :=
  { regs := [], cmdSlots := [⟨0, 0, 500, 1, 1, 7, false, 0, false, 0⟩, ⟨0, 1, 700, 1, 1, 7, false, 0, true, 600⟩]
    repSlots := [⟨0, 0, 3000, 1, 2, 5, false, 0⟩], laneTables := [⟨0, 10000, 0, [(10000, 11000), (12000, 13000)]⟩]
    positions := [⟨0, 1, true, 0, 100, 0, [], []⟩], stations := [⟨1, 0, 0, [], 3000, 0, [0], [], [(0x50, 7)]⟩], candidates := [1]
    tasks := [(0, []), (1, []), (2, []), (960, [])], reserved := [], code := [], xData := [], yData := [], cData := [], cams := []
    initialState := 0, routes := [], mirror := [], privTasks := [], joinPairs := [], hbT := 2000 }

/-- A recipe with these contents, Bells of 25,000 ticks, lane 0 in use as a line. -/
def recipeOf_ (c : Content) : Recipe :=
  { level := 1, id := 1, ver := 1, wcLoad := 0, bellTicks := 25000, recessTicks := 5000, topoA := 1, topoB := 0, llUsed := false
    netSig := 0, safeSig := 0, safety := [], content := c, fromHost := false, slot := 0 }

/-- The head with the plan in force, in a cyclic Bell, station 1 on lane 0, which is up; the tasks 0, 1, 2 have their descriptors. -/
def planned (h : Head) : Head :=
  let h : Head := { h with
    boot := { h.boot with recipe := some (recipeOf_ plan) }
    bell := { h.bell with running := true, first := false, instant := 125000, edge := 25000 }
    time := { h.time with mt := { h.time.mt with base := 0 } }
    now := 25000 }
  let desc (h : Head) (t : Nat) (ws : List Nat) : Head := ws.zipIdx.foldl (fun h x => h.wr (SCHED_DESC (8 * t + x.2)) x.1) h
  let h := desc h 0 [0, 0, 0, 10000 * 65536, 0]
  let h := desc h 1 [0, 0, 256, 20000 * 65536 + 0xF000, 0xF0000000]
  let h := desc h 2 [0xFFF0 + 0x20000000, 0, 256, 20000 * 65536 + 0x0010, 0]
  let h := desc h 960 [0xFF00 + 0x40000000, 0, 256, 20000 * 65536 + 0xF000, 0xF0000000]
  (((h.put LANE_TOPO_TOPO_A 1).put (LANE_STAT_STATE 0) 4).put (NODE_STAT_LANE_A 1) 0).put (NODE_STAT_LANE_B 1) 15

/-- A running machine with the plan in force, changed by `f`. -/
def plant (f : Head → Head) : State := out (fun h => f (planned h))

/-- A machine with the plan in force, the Engineer view open and no stop asked. -/
def bench (f : Head → Head) : State :=
  plant (fun h => f (((h.put SYS_STATUS_ENG_OPEN 1).put SAFE_CORE_ISLAND_LOSS 0).setCore (fun c => { c with codes := [0, 0, 0, 0] })))

/-- Axis 0 may be enabled: its task is enabled, its station's protection settings agree. -/
def wAxis : State := bench (fun h => (((h.put (SCHED_TSTAT_STATE 0) 1).put (NODE_PROT_CFG_OK 1) 1).put (AX_PT_STAT_RESULT 0) 2).setAxis 0 (fun x =>
  { x with pt := { x.pt with bridge := true } }))
def wMove : State := bench (fun h => ((((h.put (AX_CTL_CTRL 127) 2).put (AX_CTL_EN 127) 1).wr (AX_MV_ACC 127) 1).wr (AX_MV_DEC 127) 1).wr
  (AX_MV_VEL 127) 1 |>.wr (AX_MODULO 127) 1 |>.setMot 127 (fun m => { m with remain := some ⟨⟨0, 0, 0, false, 0, 0, 1, 1, none⟩, 0, 0, none, false, none⟩ }))
def wMaster : State := plant (fun h => (((h.wr (VM_MCYC 7) 100).wr (VM_STOP_POS 7) 99).put (VM_STAT_LINE_OK 7) 1))
def wClutch (clu : Nat) : State := bench (fun h => ((h.put (AX_CTL_CTRL 127) 3).put (AX_CTL_EN 127) 1).put (AX_FOL_STAT_CLU 127) clu)
/-- The same with the clutch open and a STOP that waits for the Bell edge. -/
def wStopWaits : State := (wClutch 0).onHead (fun h => h.shadow (AX_MV_CTL 127) 2)
/-- A cam of one segment at 16383: length 1, STOP 2. -/
def wCam : State := plant (fun h => { h with cams := (h.cams.set zeroWord (8 * 16383 + 6) 1).set zeroWord (8 * 16383 + 7) 2 })
def wLoop (mode : Nat) : State := bench (fun h => ((((((h.put (PL_MODE_MODE 31) mode).put (PL_STAT_RESULT 31) 1).wr (PL_TUNE_HYS 31) 256).put
  (PL_TUNE_TIME_TMO 31) 1).put (PL_TUNE_OUT_AMP 31) 1).put (PL_TUNE_OUT_BIAS 31) 1).put (PL_OUTLIM_OUT_MAX 31) 2 |>.setLoop 31 (fun l =>
    { l with fit := some ⟨.ofInt 0, .ofInt 0, .ofInt 1, .ofInt 0, .ofInt 1, 64⟩ }))
/-- Node 1 detained; its axis 0 disabled, with a fresh report, at rest; the state changeover-safe. -/
def wNode : State := bench (fun h => (((h.put (NODE_STAT_STATE 254) 4).put MST_STAT_RUN 1).put MST_STAT_CO_SAFE 1).setNode 1 (fun x =>
  { x with report := ⟨[0x800000, 0], 0, 0, true, 0⟩ }) |>.put (AX_RATED_N_RPM 0) 3000 |>.put (AX_MOTOR_PP 0) 4)
def dir0 : Directory := ⟨false, 1, 0, 0, 4, 0x2000, 0x10000, 0x100000, 0x10000, 0, 24⟩
/-- A head in state `st`, started from the host, with a directory and a host load of 512 bytes. -/
def wLoad (st : Nat) : State := bench (fun h => (((h.put SYS_STATUS_STATE st).put SYS_STRAP_BOOT_MODE 2).setBoot (fun b =>
  { b with hl := some ⟨512, List.replicate 127 0, 0⟩, dir := some dir0 })).put MST_STAT_RUN 1 |>.put MST_STAT_CO_SAFE 1)
/-- Maintenance mode in the Engineer view, with every key word given and the state 63 valid. -/
def wMaint : State := bench (fun h => (((h.put SYS_STATUS_STATE 7).put SYS_STATUS_KEY_BLANK 1).wr (MST_STATES 126) (2 ^ 31)).setBoot (fun b =>
  { b with keyData := (List.range 9).map (fun k => (k, some 0)) }))
def wHandoff : State := bench (fun h => ((h.put RED_CFG_PAIR 1).put RED_STAT_ROLE 1).put RED_STAT_P_STATE 5)
/-- Free-running machine at time 0, the recipe's mode of Machine Time set by hand. -/
def wTime : State := plant (fun h => h.put TIME_MT_CTL_REF_MODE 2)
/-- The acquisition engine in state `st` with probe 7 on a register. -/
def wAcq (st : Nat) : State := bench (fun h => (((h.put ACQ_STAT_STATE st).put (ACQ_PRB_CTL_EN 7) 1).put (ACQ_PRB_CTL_KIND 7) 1).setHost (fun p =>
  { p with chalTick := some 25000 }) |> fun h => { h with pins := { h.pins with svcEn := true } })
/-- The right answer to the challenge 0 of the unique ID 0 under the key of a part not keyed. -/
def answer0 : Nat := leWord ((hmacSha256 wTime.key (leBytes 4 0 ++ leBytes 4 0)).take 4)
def wPairHeld : State := plant (fun h => { h with
  holds := h.holds.set (fun _ => none) (AX_MV_TGT_LO 127) (some 5), latches := h.latches.set (fun _ => none) BKG_HOURS (some 7) })
def logRec0 : LogRec := ⟨4, 0, 0, 0, 0, 0, 0⟩
/-- A machine with a directory whose log waits to be programmed at record `used` of its sector. -/
def wLog (used : Nat) : State := plant (fun h => (h.setBoot (fun b => { b with dir := some dir0 })).setLog (fun l =>
  { l with resumed := true, used := used, buf := [logRec0] }))
def wResume (st : Store) : State := { plant (fun h => h.setBoot (fun b => { b with dir := some dir0 })) with store := st }
/-- A log whose first sector begins with a record. -/
def usedLog : Store := Store.initial.program 0x100000 (logRec0.bytes 0 0)
/-- The host port is up with ticket `t` reserved; ticket 255 is DONE, ticket 254 waits as the oldest request `r`. -/
def wHost (t : Nat) (r : HostReq) : State := bench (fun h => ((h.setHost (fun p =>
  { p with up := true, reserved := some t, fifo := [254] })).setTicket 255 (fun x => { x with state := 3, data := [5, 6] })).setTicket 254
    (fun x => { x with state := 2, req := some r }) |>.put (NODE_STAT_STATE 1) 1)
/-- A frame received on a lane `off` ticks into the Bell, sound but for what `bad` damages. -/
def rx (lane : Fin 10) (off station kind slot : Nat) (up : Bool) (ws : List Word) : RxFrame :=
  { lane := lane, stamp := (25000 + off) * 25 / 4, badGroup := false, broken := false, ended := true, invalid := 0, freed := 0
    frame := mkFrame (headWord0 station kind ws.length false false up) (headWord1 0 0 slot) ws }
def damaged (r : RxFrame) : RxFrame := { r with frame := { r.frame with crc := r.frame.crc + 1 } }
def report1 : RxFrame := rx 0 3000 1 2 0 true [0, 0, 0, 0, 0]
def response1 : RxFrame := rx 0 11000 1 0xB 0xF0 true [0, 0]
def answer1 : RxFrame := rx 0 11000 255 0xA 0 true [0, 0]
def txn1 : Txn := { src := .host 255, ticket := 255, station := 1, op := 0, rcOp := 0, addr := 0, count := 1, data := [], retries := 0 }
/-- A transaction waits for the first Recess pair of lane 0. -/
def wWaiting : State := plant (fun h => { h with net := { h.net with waiting := [txn1] } })
/-- A transaction with `n` retries behind it flies in the first Recess pair of lane 0. -/
def wFlying (n : Nat) : State := plant (fun h => { h with net := { h.net with flights := [⟨{ txn1 with retries := n }, 0, 0, 0, 0, false⟩] } })
def wRollCall : State := plant (fun h => { h with bell := { h.bell with rollcall := true } })
def wLine : State := plant (fun h => h.put (LANE_STAT_STATE 8) 4)
/-- Lane `n` enabled and aligned in state `st`. -/
def wLane (n st : Nat) : State := plant (fun h => (h.put (LANE_STAT_STATE n) st).setLane n (fun x => { x with enabled := true, aligned := true }))
/-- The plan's tasks 0 to 2 enabled in state `st`, their slots released in this Bell; the axis tasks' BELL matches. -/
def wTasks (st : Nat) (f : Head → Head) : State := plant (fun h => f ([0, 1, 2].foldl (fun (h : Head) t =>
  (h.put (SCHED_TSTAT_STATE t) st).setTask t (fun x => { x with rels := [(25100, 25400, false)] })) h))
/-- A latch record of station 1 is kept, 10 ns late; steering as in the tracking state. -/
def wSteer : State := plant (fun h => (h.put TIME_MT_STAT_STATE 1).setSteer (fun x => { x with
  latch := some (1, [42, 0, 0, 0, 1]), stamps := [⟨0, 0⟩] }))
def wHold (st lost : Nat) (nodes : Nat) : State := plant (fun h => ((h.put TIME_MT_STAT_STATE st).put (NODE_STAT_STATE 1) nodes).setSteer (fun x =>
  { x with lostRun := lost }) |>.put LANE_TOPO_LL_USED 1 |>.put (LANE_STAT_STATE 8) 4)
def sync1 (t : Nat) : RxFrame := rx 8 100 0x300 0xD 3 false [BitVec.ofNat 32 (t * 2 ^ 24), 0]
def wEcho : State := plant (fun h => h.setSteer (fun x => { x with linkSamples := List.replicate 15 100 }))
/-- Station 1 not in cyclic state, for the rejoin, with `resync` under way and `n` failed probations behind it. -/
def wLost (r : Resync) (n miss : Nat) : State := plant (fun h => h.setNode 1 (fun x =>
  { x with resync := r, failedProb := n, rejoin := true, probMiss := miss, missA := 4 }))
def wDown : State := plant (fun h => h.put (LANE_STAT_STATE 0) 3)
/-- Roll Call under way: lane 0 at `step`, `starts` START Bells to send. -/
def wRc (step : RcStep) (sent : Bool) (rep starts : Nat) : State := plant (fun h =>
  { ((h.put SYS_STATUS_STATE 3).put (NODE_STAT_STATE 1) 1).setRc (fun r => { r with active := true, startsLeft := starts }) with
    bell := { h.bell with rollcall := true } }.setRcLane 0 (fun y => { y with step := step, sent := sent, repeats := rep }))
def wRcIdle : State := plant (fun h => (h.put SYS_STATUS_STATE 3).setRc (fun r => { r with restartAt := some 99999 }))
def wReady (t : Nat) : State := plant (fun h => h.put (SCHED_TSTAT_STATE t) 2)
def wParked : State := out (fun h => h.setEngine 15 (fun g => { g with mode := .parked }))
def entry0 : MoveEntry := ⟨0, 0, 0, false, 0, 0, 1, 1, none⟩
def wPlan : State := plant (fun h => h.setMot 127 (fun m => { m with queue := [{ entry0 with ready := some 0 }, entry0] }))
def wPub : State := plant (fun h => (h.put (VM_CFG_PUB 7) 1).put (VM_PUB_PUB_DIV 7) 1)
/-- VM 7 follows the line, its publication `age` seconds old, in holdover since Bell `b`. -/
def wFollow (loose : Bool) (b : Option Nat) : State := plant (fun h => ((((h.put (VM_CFG_SRC 7) 3).put (VM_LINE_TMO 7) 1).setVm 7 (fun x =>
  { x with loose := loose, holdover := b, pub := some ⟨0, 0, 0, 0, 0, 0, 0⟩ })).put TIME_MT_STAT_STEPPED 1).wr TIME_BELL_CNT 700)
def wTable (force : Option Nat) (w1 : Nat) : State := out (fun h => ((((h.put MST_STAT_RUN 1).put SYS_STATUS_STATE 4).wr (MST_TRANS 0)
  (0x80000 + 63 * 2 ^ 20)).wr (MST_TRANS 1) w1) |> fun h => { h with mst := { h.mst with force := force } })
/-- Heads of a pair: the role and the partner's state, what was heard in this Bell and before. -/
def wPair (role pstate : Nat) (f : Red → Red) : State := plant (fun h =>
  (((h.put RED_CFG_PAIR 1).put RED_STAT_ROLE role).put RED_STAT_P_STATE pstate).put RED_HB_DUE_HB_DUE 5000 |>.setRed f)
def wPairIdle : State := out (fun h => h.put RED_CFG_PAIR 1)
def rec0 : MirrorRec := { typ := 0xFF, index := 0xFF, bseq := 0, words := [] }
def wMirror (f : Head → Head) : State := wPair 1 3 (fun r => { r with waiting := [rec0], writesOut := [(0x80000, 5, 9)] }) |> fun s =>
  { s with head := f s.head }
/-- A powered island with a parameter set whose words are all `w`, output 3 on. -/
def isle (w : Word) (sag : Bool) : Island :=
  { Island.off with powered := true, tested := true, param := some (List.replicate 22 w), fsSag := sag
                    outs := Island.off.outs.set 3 { SafeOut.initial with on := true, ball := true, ss1 := some 5 }
                    inputs := Island.off.inputs.set 6 { SafeIn.initial with level := true } }
/-- The same as slot `k` of the test interval begins. -/
def inSlot (k : Nat) (i : Island) : Island := { i with testAge := (k * i.testEvals + 7) / 8 }
def onIsle (i : Island) : State := { State.reset with island := i }
def wRecipe (early still : Nat) : State := plant (fun h => (h.setBoot (fun b => { b with recipe := some { recipeOf_ plan with
    safety := List.replicate 22 (BitVec.ofNat 32 early), safeSig := 0xFFFFFFFF } })).setCore (fun c =>
      { c with codes := [1, 1, 1, 1], still := [still, still, still, still] })) |> fun s =>
  { s with island := { isle 0 false with record := [1] } }
/-- A served island with every output used and nothing against it, the core's line alive. -/
def wServed : State :=
  { onIsle { isle 0 false with param := some (0x800000 :: (List.replicate 17 0 ++ List.replicate 4 1)), paramStop := false } with
    wires := { Wires.initial with wdAlive := true, wdChanges := 1 } }
def eval1 : EvalIn := ⟨Vector.replicate 25 ⟨0, 15⟩, 800, none, 0⟩
/-- An image of 512 bytes with the six required sections, all empty: its header CRC, its section CRCs and its tag (HMAC-SHA-256 under a
key of zero bytes) were computed outside. -/
def image0 : List Word :=
  [0x43524853, 0x1000001, 0x200, 1, 0x1234, 2, 0, 0, 0, 3, 0x138861a8, 1, 0, 6] ++ List.replicate 49 0 ++ [0xf566d6de, 1, 0x160, 0, 0, 5, 0x160, 0, 0, 7, 0x160, 0, 0, 8, 0x160, 0, 0, 0xc, 0x160, 0, 0, 0xf, 0x160] ++ List.replicate 34 0 ++ [0x423ddb5, 0x961d53e5, 0x28fdc840, 0x34443a6c, 0xc982971f, 0xd9ce2471, 0x2884a13, 0x9c046bca]
def bytes0 : List Nat := image0.flatMap (fun w => leBytes 4 w.toNat)
def content0 : Content := { plan with tasks := [], regs := [(MST_STATES 0, 0xC0000000)] }
/-- A part keyed with zero bytes and device ID 0, loading from the host. -/
def wImage (ws : List Word) : State :=
  { out (fun h => ((h.put SYS_STATUS_STATE 1).put SYS_STRAP_BOOT_MODE 2).setBoot (fun b => { b with hostImage := some ws, dir := some dir0 })) with
    store := { Store.initial with key := { Store.initial.key with locked := true } } }
def loaded0 : Recipe := recipeOf bytes0 content0 true 0
def row0 (a : Nat) : RegRow := (regRow? a).getD ⟨"", 0, 0, 0, 0, .one, false, []⟩
/-- The head in holdover of Machine Time. -/
def held1 (h : Head) : Head :=
  if h.fld TIME_MT_STAT_STATE = 3 then h
  else ((h.put TIME_MT_STAT_STATE 3).setSteer (fun x => { x with fNext := none, keptRun := 0, moved := false })).timeEvent 3
/-- The head as a pass of the table begins. -/
def passed1 (h : Head) : Head :=
  let came := h.forward h.passTick
  let due : Head := { came with mst := { h.mst with lastMs := came.now } }
  let missed := if h.mst.lastPass = 0 ∨ h.mst.firstPass = true then 0 else (due.now - h.mst.lastPass + 100000) / 200000 - 1
  (({ due with mst := { due.mst with events := [], lastPass := due.now } } : Head).bumpBy MST_CNT_SKIP missed).bumpBy MST_TIMER (missed + 1)

/-- The head that judges a frame on a field lane, the head that has noted it in the guard interval, and the head that uses it. -/
def judge1 (s : State) (r : RxFrame) : Head := (s.head.arrive r).judgeAt (unitTick (s.head.atBoundary r).stamp)
def seen1 (s : State) (r : RxFrame) : Head := (s.head.arrive r).guardEvent (judge1 s r) r.lane.val (unitTick (s.head.atBoundary r).stamp)
def used1 (s : State) (r : RxFrame) : Head := (((seen1 s r).bank r.lane.val r.frame).seeEpoch (fEpoch r.frame)).yieldTo (fEpoch r.frame)
/-- A star of lane 0; lane `n` with both banks unread; the word 7 latched under address `a`. -/
def wStar : State := plant (fun h => h.put LANE_TOPO_TOPO_A 2)
def full (n : Nat) (s : State) : State := { s with head := s.head.setLane n (fun x => { x with banks := [report1.frame, report1.frame] }) }
def wLat (a : Nat) : State := plant (fun h => { h with latches := h.latches.set (fun _ => none) a (some 7) })
def bLat (a : Nat) (f : Head → Head) : State := bench (fun h => f { h with latches := h.latches.set (fun _ => none) a (some 7) })

/-! ### The image: its checks, the CRC of its header in four parts -/

theorem image_crc_1 : ((bytes0.drop 0).take 63).foldl crcByte (0xFFFFFFFF : Word) = (927619158 : Word) := by decide +kernel
theorem image_crc_2 : ((bytes0.drop 63).take 63).foldl crcByte (927619158 : Word) = (2932643025 : Word) := by decide +kernel
theorem image_crc_3 : ((bytes0.drop 126).take 63).foldl crcByte (2932643025 : Word) = (2019361101 : Word) := by decide +kernel
theorem image_crc_4 : ((bytes0.drop 189).take 63).foldl crcByte (2019361101 : Word) = (177809697 : Word) := by decide +kernel
theorem image_crc : crc32 (bytes0.take 0xFC) = 0xF566D6DE#32 := by
  have h : bytes0.take 0xFC = (bytes0.drop 0).take 63 ++ ((bytes0.drop 63).take 63 ++ ((bytes0.drop 126).take 63 ++
      (bytes0.drop 189).take 63)) := by decide +kernel
  rw [crc32, h, List.foldl_append, List.foldl_append, List.foldl_append, image_crc_1, image_crc_2, image_crc_3, image_crc_4]
  decide
theorem image_header (k : KeyStore) (h : k.locked = true) (h' : k.id = 0) : headerFault bytes0 dir0.slotSize (some 512) k = none := by
  have a : headerMagic bytes0 = true := by decide +kernel
  have b : imgWord bytes0 0xFC = (crc32 (bytes0.take 0xFC)).toNat := by rw [image_crc]; decide +kernel
  have c : imgWord bytes0 8 = 512 := by decide +kernel
  have d : imgWord bytes0 0x0C = 1 := by decide +kernel
  have e : imgWord bytes0 0x30 = 0 := by decide +kernel
  simp [headerFault, a, b, c, d, e, h, h', levelSupported, bits, dir0]
theorem image_sound (s : State) (ws : List Word) (c : Content) (b : List Nat) (n : Nat) (dir : Directory) (h0 : s.head.boot.dir = some dir) (hb : b = ws.flatMap (fun w => leBytes 4 w.toNat))
    (hn : b.length = n) (h1 : headerFault b dir.slotSize (some n) s.store.key = none) (h2 : sectionsOk (sectionRows b) (imgWord b 8) = true)
    (h3 : tagMatches b s.key = true) (h4 : badSection b (sectionRows b) = none) (h5 : accepted b = true)
    (h6 : targetFault (sectionRows b) c none = none) : s.checkImage (.image ws) c none false = .ok (recipeOf b c true 0) := by
  subst hb
  subst hn
  simp only [State.checkImage, imageFault, h0, h1, h2, h3, h4, h5, h6, Bool.not_true, Bool.false_eq_true, if_false]
theorem image_length : bytes0.length = 512 := by decide +kernel
theorem image_sections : sectionsOk (sectionRows bytes0) (imgWord bytes0 8) = true := by decide +kernel
theorem image_tag : tagMatches bytes0 (List.replicate 32 0) = true := by decide +kernel
theorem image_crcs : badSection bytes0 (sectionRows bytes0) = none := by decide +kernel
theorem image_accepted : accepted bytes0 = true := by decide +kernel
theorem image_targets : targetFault (sectionRows bytes0) content0 none = none := by decide +kernel
theorem test_image_passes : (wImage image0).checkImage (.image image0) content0 none false = .ok loaded0 :=
  image_sound (wImage image0) image0 content0 bytes0 512 dir0 rfl rfl image_length (image_header _ rfl rfl) image_sections image_tag image_crcs
    image_accepted image_targets

theorem witness_AxisRequestsWaitForTheBell :
    (let s : State := wAxis
     let k : Fin 128 := 127
     let c : Fin 4 := 3
     s.serves ∧ (s.head.ctrlAllowed k.val (bits (s.head.pendingRd (AX_CTL k.val)) 3 2) = true ∧ (bits (s.head.pendingRd (AX_CTL k.val)) 3 2 =
       s.head.fld (AX_CTL_CTRL k.val) ∨ s.head.mstate k.val ≠ 1 ∧ s.head.mstate k.val ≠ 2)) ∧ bit (s.head.pendingRd (AX_CTL k.val)) 0 = false ∧
       (s.head.ctrlAllowed k.val c.val = true ∧ (c.val = s.head.fld (AX_CTL_CTRL k.val) ∨ s.head.mstate k.val ≠ 1 ∧ s.head.mstate k.val ≠ 2)) ∧
       (bit (s.head.pendingRd (AX_CTL k.val)) 0 = true → s.head.mayEnable k.val = true) ∧ (s.head.axis k.val).pt.active = false) ∧
    (let s : State := wAxis
     let k : Fin 128 := 0
     s.serves ∧ (s.head.ctrlAllowed k.val (bits (s.head.pendingRd (AX_CTL k.val)) 3 2) = true ∧ (bits (s.head.pendingRd (AX_CTL k.val)) 3 2 =
       s.head.fld (AX_CTL_CTRL k.val) ∨ s.head.mstate k.val ≠ 1 ∧ s.head.mstate k.val ≠ 2)) ∧ s.head.mayEnable k.val = true ∧ (bit
       (s.head.pendingRd (AX_CTL k.val)) 0 = true → s.head.mayEnable k.val = true) ∧ s.head.engineer = true ∧ s.head.fld (AX_PT_STAT_RESULT k.val)
       = 2 ∧ (s.head.axis k.val).pt.bridge = true) := by
  delta State.serves State.runs; refine ⟨?_, ?_⟩ <;> decide +kernel

theorem witness_MoveRequestsWaitForTheBell :
    (let s : State := wMove
     let k : Fin 128 := 127
     let lo : Word := 0xFFFFFFFF
     let hi : Word := 0x7FFF
     s.serves ∧ s.head.pushRefuse k.val = 0 ∧ s.head.resumeRefuse k.val = 0 ∧ s.head.flushRefuse k.val = 0 ∧ s.head.mstate k.val ≠ 1 ∧
       s.head.mstate k.val ≠ 2 ∧ s.head.fld (AX_CTL_CTRL k.val) ≠ 3 ∧ sext 64 (pairOf (BitVec.toNat lo) (BitVec.toNat hi)) = sext 48 (pairOf
       (BitVec.toNat lo) (BitVec.toNat hi)) ∧ (s.head.rd (AX_MODULO k.val) = 0 → s.head.rdInt (AX_POS_MIN k.val) * 65536 ≤ sext 64 (pairOf
       (BitVec.toNat lo) (BitVec.toNat hi)) ∧ sext 64 (pairOf (BitVec.toNat lo) (BitVec.toNat hi)) ≤ s.head.rdInt (AX_POS_MAX k.val) * 65536)) := by
  delta State.serves State.runs; decide +kernel

theorem witness_MasterClutchLoopRequestsWait :
    (let s : State := wMaster
     let k : Fin 8 := 7
     s.serves ∧ s.head.fld (VM_CFG_SRC k.val) = 0 ∧ s.head.pendingRd (VM_STOP_POS k.val) < s.head.pendingRd (VM_MCYC k.val) ∧ (s.head.vm k.val).v =
       0 ∧ s.head.followersOf k.val = 0 ∧ 0 ≤ sext 64 (pairOf (s.head.pendingRd (VM_SET_LO k.val)) (s.head.pendingRd (VM_SET_HI k.val))) ∧ sext 64
       (pairOf (s.head.pendingRd (VM_SET_LO k.val)) (s.head.pendingRd (VM_SET_HI k.val))) < ↑(s.head.pendingRd (VM_MCYC k.val) * 65536) ∧ s.head.on
       (VM_STAT_LINE_OK k.val) = true) ∧
    (let s : State := wMaster
     let k : Fin 4 := 7
     s.serves ∧ s.head.encFollowed k.val = false) ∧
    (let s : State := wMaster
     let k : Fin 32 := 7
     let mode : Fin 8 := 2
     s.serves ∧ mode.val ≤ 2 ∧ (s.head.plMode k.val ≠ 4 ∨ mode = 0) ∧ s.head.plMode k.val ≤ 1) ∧
    (let s : State := wClutch 0
     let k : Fin 128 := 127
     s.serves ∧ s.head.clutchRefuse k.val 1 = 0 ∧ s.head.stopWaits k.val = false) ∧
    (let s : State := wStopWaits
     let k : Fin 128 := 127
     s.serves ∧ s.head.clutchRefuse k.val 1 = 0 ∧ s.head.stopWaits k.val = true) ∧
    (let s : State := wClutch 3
     let k : Fin 128 := 127
     s.serves ∧ s.head.clutchRefuse k.val 2 = 0) ∧
    (let s : State := wCam
     let k : Fin 128 := 127
     let seg : BitVec 14 := 16383
     let atWrap : Bool := true
     s.serves ∧ (atWrap = true ∨ s.head.fld (AX_FOL_STAT_CLU k.val) = 0) ∧ s.head.checkCam seg.toNat = 0) ∧
    (let s : State := wLoop 4
     let k : Fin 32 := 31
     s.serves ∧ s.head.plMode k.val = 4 ∧ (s.head.loop k.val).fit.isSome = true ∧ (s.head.applySet k.val).isSome = true) ∧
    (let s : State := wLoop 1
     let k : Fin 32 := 31
     s.serves ∧ s.head.tuneRefuse k.val = 0) := by
  delta State.serves State.runs; refine ⟨?_, ?_, ?_, ?_, ?_, ?_, ?_, ?_, ?_⟩ <;> decide +kernel

theorem witness_CommandsThatActAtOnce :
    (let s : State := wNode
     let k : Fin 128 := 127
     let reg : Fin 5 := 0
     let w : Word := 100000000
     let seg : BitVec 14 := 16383
     let g : Fin 16 := 15
     let n : Nat := 254
     s.serves ∧ s.head.motorRange k.val (AX_RS k.val + 4 * reg.val) (BitVec.toNat w) = true ∧ s.head.segInUse seg.toNat = false ∧ s.head.engineer =
       true ∧ s.head.clrLockRefuse g.val = 0 ∧ 1 ≤ n ∧ n ≤ 254 ∧ s.head.fld (NODE_STAT_STATE n) = 4 ∧ s.head.changeRefuse s.head.coSafe = 0 ∧
       s.head.bell.running = true) ∧
    (let s : State := wNode
     let n : Nat := 1
     let pattern : BitVec 6 := 21
     let width : BitVec 16 := 20000
     s.serves ∧ 1 ≤ n ∧ n ≤ 254 ∧ s.head.engineer = true ∧ (∀ (leg : Fin 3), ¬(pattern.getLsbD (2 * leg.val) = true ∧ pattern.getLsbD (2 * leg.val
       + 1) = true)) ∧ s.head.rawswReady n = true ∧ 1 ≤ width.toNat ∧ width.toNat ≤ 20000 ∧ width.toNat + 1 ≤ s.head.bellTicks) := by
  delta State.serves State.runs; refine ⟨?_, ?_⟩ <;> decide +kernel

theorem witness_LoadAndFlashRequestsRun :
    (let s : State := wLoad 2
     let len : Nat := 512
     let l : HostLoad := ⟨512, List.replicate 127 0, 0⟩
     let fb : Fin 256 := 255
     let d : Directory := dir0
     let addr : Word := 0x2000
     s.serves ∧ s.head.sysState = 2 ∧ len % 16 = 0 ∧ 512 ≤ len ∧ len ≤ 8388608 ∧ s.head.fld SYS_STRAP_BOOT_MODE = 2 ∧ (s.head.boot.hl.isSome = true
       ∨ s.head.boot.hostImage.isSome = true) ∧ s.head.boot.hl = some l ∧ s.head.sysState ≠ 6 ∧ s.head.changeRefuse s.head.coSafe = 0 ∧ (fb.val ≤
       15 ∨ fb.val = 255) ∧ s.head.boot.dir = some d ∧ s.head.boot.dirOp = none ∧ s.head.boot.flop = none ∧ BitVec.toNat addr % 256 = 0) ∧
    (let s : State := wLoad 6
     let addr : Word := 0x1000
     s.serves ∧ s.head.sysState = 6 ∧ s.head.boot.flop = none ∧ BitVec.toNat addr % 4096 = 0 ∧ (s.head.serviceState = true ∨ s.head.flashProtected
       (BitVec.toNat addr) 4096 = false) ∧ BitVec.toNat addr % 256 = 0 ∧ (s.head.serviceState = true ∨ s.head.flashProtected (BitVec.toNat addr)
       256 = false)) := by
  delta State.serves State.runs; refine ⟨?_, ?_⟩ <;> decide +kernel

theorem witness_EngineerOnlyRequestsRun :
    (let s : State := wMaint
     let w : Word := 0xA5C4
     let st : Fin 64 := 63
     s.serves ∧ s.head.engineer = true ∧ w ≠ 42435 ∧ s.head.sysState = 7 ∧ BitVec.toNat (Tbl.get zeroWord s.head.boot.trimStage 2) = s.head.rd
       SYS_UID_LO ∧ BitVec.toNat (Tbl.get zeroWord s.head.boot.trimStage 3) = s.head.rd SYS_UID_HI ∧ s.head.fld SYS_TRIM_STAT_COUNT < 1000 ∧
       s.head.boot.keyTried = false ∧ s.head.on SYS_STATUS_KEY_BLANK = true ∧ s.head.on SYS_STATUS_KEY_FAULT = false ∧ (∀ k < 9, (Tbl.get (fun x =>
       none) s.head.boot.keyData k).isSome = true) ∧ s.head.benchOpen = true ∧ bit (s.head.rd (MST_STATES (2 * st.val))) 31 = true) ∧
    (let s : State := wHandoff
     s.serves ∧ s.head.engineer = true ∧ s.head.activePair = true ∧ s.head.partnerState = 5) := by
  delta State.serves State.runs; refine ⟨?_, ?_⟩ <;> decide +kernel

theorem witness_TimeAndSchedulerWritesRun :
    (let s : State := wTime
     let ns : Word := 0xEE6B27FD
     let f : Word := 10485
     let t : Fin 1024 := 2
     s.serves ∧ bits (BitVec.toNat ns) 31 2 < 10 ^ 9 ∧ BitVec.toNat ns % 4 ≤ 1 ∧ BitVec.toNat ns % 4 = 1 ∧ (BitVec.toInt f).natAbs ≤ 10737418 ∧
       s.head.fld TIME_MT_CTL_REF_MODE = 2 ∧ (BitVec.toInt f).natAbs * 2 ^ 32 ≤ 5 * s.head.rLim ∧ t.val < 960 ∧ s.head.recipeTasks.contains t.val =
       true ∧ s.head.taskEnabled t.val = false ∧ (∀ (n : Nat), s.head.taskNode t.val = some n → s.head.fld (NODE_STAT_STATE n) ∉ [2, 3, 4, 5]) ∧
       (s.head.taskAxis t.val < 128 → s.head.enabled (s.head.taskAxis t.val) = false)) ∧
    (let s : State := wTasks 1 id
     let t : Fin 1024 := 2
     s.serves ∧ t.val < 960 ∧ s.head.recipeTasks.contains t.val = true ∧ s.head.taskEnabled t.val = true) := by
  delta State.serves State.runs; refine ⟨?_, ?_⟩ <;> decide +kernel

theorem witness_AcquisitionAndHostRequestsRun :
    (let s : State := wAcq 0
     let w : Word := BitVec.ofNat 32 answer0
     let t : Nat := 25000
     s.serves ∧ s.head.armRefuse = 0 ∧ s.head.pins.svcEn = true ∧ s.head.reqLocked = false ∧ s.head.on SYS_STATUS_ENG_OPEN = true ∧
       s.head.host.chalTick = some t ∧ BitVec.toNat w = leWord (List.take 4 (hmacSha256 s.key (leBytes 4 (s.head.rd HOST_ENG_CHAL) ++ leBytes 4
       (s.head.rd SYS_UID_LO)))) ∧ s.head.now ≤ t + 200000000) ∧
    (let s : State := wAcq 1
     let w : Word := BitVec.ofNat 32 answer0 + 1
     let t : Nat := 25000
     s.serves ∧ s.head.acqState = 1 ∧ s.head.host.chalTick = some t ∧ s.head.pins.svcEn = true ∧ (BitVec.toNat w ≠ leWord (List.take 4 (hmacSha256
       s.key (leBytes 4 (s.head.rd HOST_ENG_CHAL) ++ leBytes 4 (s.head.rd SYS_UID_LO)))) ∨ t + 200000000 < s.head.now)) ∧
    (let s : State := wAcq 2
     s.serves ∧ s.head.acqState = 2) ∧
    (let s : State := wAcq 3
     s.serves ∧ s.head.acqState = 3) := by
  delta State.serves State.runs; refine ⟨?_, ?_, ?_, ?_⟩ <;> decide +kernel

theorem witness_WordsAndPairsAreWritten :
    (let s : State := wPairHeld
     let a : Nat := AX_MV_TGT_HI 127
     let k : Fin 128 := 127
     s.serves ∧ mapped a = true ∧ writeDenied s.head.engineer a = false ∧ a = AX_MV_TGT_HI k.val) ∧
    (let s : State := wPairHeld
     let a : Nat := AX_MV_TGT_LO 127
     s.serves ∧ mapped a = true ∧ writeDenied s.head.engineer a = false ∧ halfOf a = Half.lower ∧ writable a true ≠ 0) ∧
    (let s : State := wPairHeld
     let a : Nat := AX_MV_ACC 127
     let w : Word := 0xFFFFFFFF
     let k : Fin 128 := 127
     let off : Nat := AX_MV_ACC 127 - 0x80000 - 0x400*127
     s.serves ∧ mapped a = true ∧ writeDenied s.head.engineer a = false ∧ a = 524288 + 1024 * k.val + off ∧ off < 1024 ∧ halfOf a = Half.one ∧
       clearable1 a = 0 ∧ writable a true ≠ 0 ∧ off ∉ [0, 32, 36, 40, 44, 48, 224, 408, 524, 528] ∧ s.head.axBusy k.val off = false ∧
       s.head.axRange k.val off (band (BitVec.toNat w) (writable a s.head.engineer)) = true) ∧
    (let s : State := wPairHeld
     let a : Nat := LANE_EVT 0
     s.serves ∧ mapped a = true ∧ writeDenied s.head.engineer a = false ∧ clearable1 a ≠ 0) := by
  delta State.serves State.runs; refine ⟨?_, ?_, ?_, ?_⟩ <;> decide +kernel

theorem witness_RefusedWritesChangeNothing :
    (let s : State := wTime
     let a : Nat := 0xFFFFFFFF
     s.runs ∧ mapped a = false) ∧
    (let s : State := wTime
     let a : Nat := SYS_SWRST
     s.runs ∧ mapped a = true ∧ writeDenied s.head.engineer a = true) ∧
    (let s : State := plant (fun h => h.put RED_STAT_ROLE 2)
     let a : Nat := LANE_EVT 0
     s.runs ∧ mapped a = true ∧ writeDenied s.head.engineer a = false ∧ s.head.blockBusy a = true ∧ (writable a true ≠ 0 ∨ clearable1 a ≠ 0) ∧
       (halfOf a ≠ Half.one ∨ clearable1 a ≠ 0)) := by
  delta State.runs; refine ⟨?_, ?_, ?_⟩ <;> decide +kernel

theorem witness_WordsAndPairsAreRead :
    (let s : State := wPairHeld
     let a : Nat := AX_MV_TGT_LO 127
     let k : Fin 8 := 7
     s.runs ∧ mapped a = true ∧ s.head.ecc.contains a = false ∧ readDenied s.head.engineer a = false ∧ halfOf a = Half.lower ∧ (∀ k < 4, a ≠
       TIME_TRG_STAMP_NS k) ∧ (∀ k < 8, a ≠ CAP_NS k) ∧ s.head.ecc.contains (CAP_CNT k.val) = false ∧ Tbl.get (fun _ => none) s.head.latches
       (CAP_CNT k.val - 4) = none ∧ s.head.ecc.contains MST_NOTIFY = false ∧ Tbl.get (fun _ => none) s.head.latches (MST_NOTIFY - 4) = none) ∧
    (let s : State := plant (fun h => { h with latches := h.latches.set (fun _ => none) (AX_MV_TGT_LO 127) (some 7) })
     let a : Nat := AX_MV_TGT_HI 127
     let v : Word := 7
     s.runs ∧ mapped a = true ∧ s.head.ecc.contains a = false ∧ readDenied s.head.engineer a = false ∧ halfOf a = Half.upper ∧ (∀ k < 4, a ≠
       TIME_TRG_STAMP_SEC k) ∧ Tbl.get (fun _ => none) s.head.latches (a - 4) = some v) ∧
    (let s : State := plant id
     let a : Nat := AX_MV_TGT_HI 127
     s.runs ∧ mapped a = true ∧ s.head.ecc.contains a = false ∧ readDenied s.head.engineer a = false ∧ halfOf a = Half.upper ∧ (∀ k < 4, a ≠
       TIME_TRG_STAMP_SEC k) ∧ Tbl.get (fun _ => none) s.head.latches (a - 4) = none) ∧
    (let s : State := plant id
     let a : Nat := LANE_CRC 0
     let r : RegRow := row0 (LANE_CRC 0)
     s.runs ∧ mapped a = true ∧ s.head.ecc.contains a = false ∧ readDenied s.head.engineer a = false ∧ regRow? a = some r ∧ r.half = Half.one ∧
       (r.mask fun f => f.acc == Access.rc) ≠ 0 ∧ (∀ e < 16, a ≠ LE_BUSY e) ∧ Tbl.get (fun _ => none) s.head.latches (a - 4) = none) ∧
    (let s : State := plant id
     let a : Nat := CAP_NS 7
     let k : Nat := 7
     s.runs ∧ mapped a = true ∧ s.head.ecc.contains a = false ∧ readDenied s.head.engineer a = false ∧ halfOf a = Half.lower ∧ (∀ k < 4, a ≠
       TIME_TRG_STAMP_NS k) ∧ k < 8 ∧ a = CAP_NS k) ∧
    (let s : State := plant id
     let a : Nat := TIME_TRG_STAMP_NS 3
     let k : Nat := 3
     s.runs ∧ mapped a = true ∧ s.head.ecc.contains a = false ∧ readDenied s.head.engineer a = false ∧ k < 4 ∧ a = TIME_TRG_STAMP_NS k) ∧
    (let s : State := plant id
     let a : Nat := TIME_TRG_STAMP_SEC 3
     let k : Nat := 3
     s.runs ∧ mapped a = true ∧ s.head.ecc.contains a = false ∧ readDenied s.head.engineer a = false ∧ k < 4 ∧ a = TIME_TRG_STAMP_SEC k ∧ Tbl.get
       (fun _ => none) s.head.latches (a - 4) = none) ∧
    (let s : State := wLat (TIME_TRG_STAMP_NS 3)
     let a : Nat := TIME_TRG_STAMP_SEC 3
     let k : Nat := 3
     let v : Word := 7
     s.runs ∧ mapped a = true ∧ s.head.ecc.contains a = false ∧ readDenied s.head.engineer a = false ∧ k < 4 ∧ a = TIME_TRG_STAMP_SEC k ∧ Tbl.get
       (fun _ => none) s.head.latches (a - 4) = some v) ∧
    (let s : State := wLat (CAP_SEC 7)
     let k : Fin 8 := 7
     let v : Word := 7
     s.runs ∧ s.head.ecc.contains (CAP_CNT k.val) = false ∧ Tbl.get (fun _ => none) s.head.latches (CAP_CNT k.val - 4) = some v) ∧
    (let s : State := wLat (MST_NOTIFY - 4)
     let v : Word := 7
     s.runs ∧ s.head.ecc.contains MST_NOTIFY = false ∧ Tbl.get (fun _ => none) s.head.latches (MST_NOTIFY - 4) = some v) ∧
    (let s : State := bench (fun h => h.setEngine 15 (fun g => { g with mode := .parked }))
     let a : Nat := LE_BUSY 15
     let r : RegRow := row0 (LE_BUSY 15)
     let e : Nat := 15
     s.runs ∧ mapped a = true ∧ s.head.ecc.contains a = false ∧ readDenied s.head.engineer a = false ∧ regRow? a = some r ∧ r.half = Half.one ∧
       (r.mask fun f => f.acc == Access.rc) ≠ 0 ∧ e < 16 ∧ a = LE_BUSY e ∧ Tbl.get (fun _ => none) s.head.latches (a - 4) = none) ∧
    (let s : State := bLat (LE_BUSY 15 - 4) (fun h => h.setEngine 15 (fun g => { g with mode := .parked }))
     let a : Nat := LE_BUSY 15
     let r : RegRow := row0 (LE_BUSY 15)
     let e : Nat := 15
     let v : Word := 7
     s.runs ∧ mapped a = true ∧ s.head.ecc.contains a = false ∧ readDenied s.head.engineer a = false ∧ regRow? a = some r ∧ r.half = Half.one ∧
       (r.mask fun f => f.acc == Access.rc) ≠ 0 ∧ e < 16 ∧ a = LE_BUSY e ∧ Tbl.get (fun _ => none) s.head.latches (a - 4) = some v) ∧
    (let s : State := bLat (LANE_CRC 0 - 4) id
     let a : Nat := LANE_CRC 0
     let r : RegRow := row0 (LANE_CRC 0)
     let v : Word := 7
     s.runs ∧ mapped a = true ∧ s.head.ecc.contains a = false ∧ readDenied s.head.engineer a = false ∧ regRow? a = some r ∧ r.half = Half.one ∧
       (r.mask fun f => f.acc == Access.rc) ≠ 0 ∧ (∀ e < 16, a ≠ LE_BUSY e) ∧ Tbl.get (fun _ => none) s.head.latches (a - 4) = some v) := by
  delta State.runs; refine ⟨?_, ?_, ?_, ?_, ?_, ?_, ?_, ?_, ?_, ?_, ?_, ?_, ?_⟩ <;> decide +kernel

theorem witness_ResetEntersAndLeaves :
    (let s : State := wLog 1
     let torn : Option Nat := none
     let d : Directory := dir0
     let r : LogRec := logRec0
     (s.inReset = true ∨ torn = none) ∧ s.inReset = false ∧ s.head.logFree = true ∧ s.head.boot.dir = some d ∧ s.head.logNext = some r) ∧
    (let s : State := State.reset
     s.inReset = true ∧ s.stopped = false) := by
  refine ⟨?_, ?_⟩ <;> decide +kernel

theorem witness_LoadsAndFlashOperationsEnd :
    (let s : State := wImage image0
     let src : LoadFrom := .image image0
     s.runs ∧ s.head.loadDue = some src) ∧
    (let s : State := wImage []
     let src : LoadFrom := .image []
     let c : Content := content0
     let refuse : Option Nat := none
     let readFault : Bool := false
     let code : Nat := 3
     let sec : Nat := 0
     s.runs ∧ s.head.loadDue = some src ∧ s.checkImage src c refuse readFault = Except.error (code, sec)) ∧
    (let s : State := { wLoad 2 with store := Store.initial }
     let l : HostLoad := ⟨512, List.replicate 127 0, 0⟩
     s.runs ∧ s.head.boot.hl = some l) ∧
    (let s : State := plant (fun h => h.setBoot (fun b => {b with flop := some (.read 0)}))
     let x : FlashOp := .read 0
     s.runs ∧ s.head.boot.flop = some x) ∧
    (let s : State := plant (fun h => h.setBoot (fun b => {b with dirOp := some (.directory true [])}))
     let copyB : Bool := true
     let bytes : List Nat := []
     s.runs ∧ s.head.boot.flop = none ∧ s.head.boot.dirOp = some (FlashOp.directory copyB bytes)) := by
  delta State.runs; refine ⟨?_, ?_, ?_, ?_, ?_⟩ <;> decide +kernel

theorem witness_EventLogIsKept :
    (let s : State := wLog 1
     let d : Directory := dir0
     let r : LogRec := logRec0
     s.runs ∧ s.head.logFree = true ∧ s.head.boot.dir = some d ∧ s.head.logNext = some r ∧ 0 < s.head.log.used ∧ s.head.log.used < 119 ∧ s.head.now
       ≤ s.head.log.lastCheckpoint + 120000000000) ∧
    (let s : State := wLog 0
     let d : Directory := dir0
     let r : LogRec := s.head.checkpointRec
     s.runs ∧ s.head.logFree = true ∧ s.head.boot.dir = some d ∧ s.head.logNext = some r ∧ s.head.log.used = 0 ∧ s.head.log.ready = false) ∧
    (let s : State := wResume Store.initial
     let d : Directory := dir0
     s.runs ∧ s.head.log.resumed = false ∧ s.head.sysState ≠ 1 ∧ s.head.boot.dir = some d ∧ s.store.newestSector d = none) ∧
    (let s : State := wResume usedLog
     let d : Directory := dir0
     let k : Nat := 0
     let q : Nat := 0
     s.runs ∧ s.head.log.resumed = false ∧ s.head.sysState ≠ 1 ∧ s.head.boot.dir = some d ∧ s.store.newestSector d = some (k, q)) := by
  delta State.runs; refine ⟨?_, ?_, ?_, ?_⟩ <;> decide +kernel

theorem witness_HostRequestsTakeTickets :
    (let s : State := wAcq 1
     let n : Byte := 2
     let ws : List Word := [1, 2, 3]
     s.runs ∧ s.head.hrdy = false ∧ BitVec.toNat n ≤ ws.length) ∧
    (let s : State := wHost 5 ⟨1,1,0,0,[]⟩
     let n : Byte := 46
     let ws : List Word := List.replicate 46 1
     let t : Nat := 5
     s.runs ∧ s.head.hrdy = true ∧ s.head.host.reserved = some t ∧ BitVec.toNat n ≤ ws.length) ∧
    (let s : State := wHost 5 ⟨1,1,0,0,[]⟩
     let n : Byte := 47
     let ws : List Word := []
     s.runs ∧ s.head.hrdy = true ∧ (BitVec.toNat n ≤ ws.length ∨ BitVec.toNat n < 1 ∨ 46 < BitVec.toNat n) ∧ ws.length < BitVec.toNat n ∧
       BitVec.toNat n ≤ 64) ∧
    (let s : State := wHost 5 ⟨1,1,0,0,[]⟩
     let n : Byte := 46
     let ws : List Word := List.replicate 45 1
     s.runs ∧ ws.length < BitVec.toNat n ∧ BitVec.toNat n ≤ 64 ∧ BitVec.toNat n ≤ 46) := by
  delta State.runs; refine ⟨?_, ?_, ?_, ?_⟩ <;> decide +kernel

theorem witness_HostFetchesAndReleases :
    (let s : State := wHost 5 ⟨1,1,0,0,[]⟩
     let b : Byte := 255
     s.runs ∧ (s.head.ticket (BitVec.toNat b)).head = false ∧ 3 ≤ (s.head.ticket (BitVec.toNat b)).state) ∧
    (let s : State := wHost 5 ⟨1,1,0,0,[]⟩
     let b : Byte := 254
     s.runs ∧ (s.head.ticket (BitVec.toNat b)).head = false ∧ ((s.head.ticket (BitVec.toNat b)).state = 1 ∨ (s.head.ticket (BitVec.toNat b)).state
       = 2) ∧ ((s.head.ticket (BitVec.toNat b)).head = true ∨ (s.head.ticket (BitVec.toNat b)).state < 3)) ∧
    (let s : State := wHost 5 ⟨1,1,0,0,[]⟩
     let b : Byte := 253
     s.runs ∧ ((s.head.ticket (BitVec.toNat b)).head = true ∨ (s.head.ticket (BitVec.toNat b)).state = 0)) := by
  delta State.runs; refine ⟨?_, ?_, ?_⟩ <;> decide +kernel

theorem witness_CommitsFollowTheQueue :
    (let s : State := wHost 5 ⟨1,65,0,0,[]⟩
     let t : Nat := 254
     let rest : List Nat := []
     let r : HostReq := ⟨1,65,0,0,[]⟩
     s.runs ∧ s.head.host.fifo = t :: rest ∧ (s.head.ticket t).req = some r ∧ (r.count < 1 ∨ 64 < r.count)) ∧
    (let s : State := wHost 5 ⟨1,64,0,0,[]⟩
     let t : Nat := 254
     let rest : List Nat := []
     let r : HostReq := ⟨1,64,0,0,[]⟩
     s.runs ∧ s.head.host.fifo = t :: rest ∧ (s.head.ticket t).req = some r ∧ 1 ≤ r.count ∧ r.count ≤ 64 ∧ (r.op = 1 ∨ r.op = 17)) ∧
    (let s : State := wHost 5 ⟨0x02,1,AX_MV_ACC 127,0,[7]⟩
     let t : Nat := 254
     let rest : List Nat := []
     let r : HostReq := ⟨0x02,1,AX_MV_ACC 127,0,[7]⟩
     s.runs ∧ s.head.host.fifo = t :: rest ∧ (s.head.ticket t).req = some r ∧ 1 ≤ r.count ∧ r.count ≤ 64 ∧ (r.op = 2 ∨ r.op = 18) ∧
       ((s.head.setHost (fun p => { p with fifo := rest })).commitWrite s.key s.head.engineer (r.addrs.zip r.words)).1.boot.want = 0) ∧
    (let s : State := wHost 5 ⟨5,46,0x30,1,List.replicate 46 1⟩
     let t : Nat := 254
     let rest : List Nat := []
     let r : HostReq := ⟨5,46,0x30,1,List.replicate 46 1⟩
     s.runs ∧ s.head.host.fifo = t :: rest ∧ (s.head.ticket t).req = some r ∧ 3 ≤ r.op ∧ r.op ≤ 5 ∧
       (s.head.setHost (fun p => { p with fifo := rest })).nodeRefuse r = none) ∧
    (let s : State := wHost 5 ⟨3,47,0x30,1,[]⟩
     let t : Nat := 254
     let rest : List Nat := []
     let r : HostReq := ⟨3,47,0x30,1,[]⟩
     let x : Nat × Nat := ((s.head.setHost (fun p => { p with fifo := rest })).nodeRefuse r).getD (0, 0)
     s.runs ∧ s.head.host.fifo = t :: rest ∧ (s.head.ticket t).req = some r ∧ 3 ≤ r.op ∧ r.op ≤ 5 ∧
       (s.head.setHost (fun p => { p with fifo := rest })).nodeRefuse r = some (x.1, x.2)) := by
  delta State.runs; refine ⟨?_, ?_, ?_, ?_, ?_⟩ <;> decide +kernel

theorem witness_ViewEndsAndServicesRun :
    (let s : State := plant (fun h => (h.put SYS_STATUS_ENG_OPEN 1).setHost (fun p => {p with chalTick := some 5, lockFrom := some 7}))
     let t : Nat := 5
     let f : ScrubFind := ⟨1, 4, false, true, none, 0, 0, 0, [], false, []⟩
     let op : TapOp := .sample
     s.runs ∧ s.head.engineer = true ∧ s.head.host.chalTick = some t ∧ f.wrap = false ∧ f.corrected = false ∧ f.bad = true ∧ f.region ≠ 0 ∧
       f.region ≠ 5 ∧ f.host = none ∧ (op = .sample ∨ op = .extest ∧ s.tap.maintenance = true)) ∧
    (let s : State := plant (fun h => (h.put SYS_STATUS_ENG_OPEN 1).setHost (fun p => {p with chalTick := some 5, lockFrom := some 7}))
     let t : Nat := 7
     let f : ScrubFind := ⟨1, 4, true, false, none, 0, 0, 0, [], false, [(3, 9)]⟩
     let op : TapOp := .extest
     s.runs ∧ s.head.host.lockFrom = some t ∧ f.wrap = false ∧ f.bad = false ∧ op ≠ .sample ∧ ¬(op = .extest ∧ s.tap.maintenance = true)) ∧
    (let s : State := { wMaint with tap := { wMaint.tap with maintenance := true } }
     let op : TapOp := .extest
     s.runs ∧ (op = .sample ∨ op = .extest ∧ s.tap.maintenance = true)) := by
  delta State.runs; refine ⟨?_, ?_, ?_⟩ <;> decide +kernel

theorem witness_LanesComeUpAndGoDown :
    (let s : State := plant id
     let lane : Fin 10 := 0
     s.runs ∧ s.head.laneState lane.val = 4) ∧
    (let s : State := wLane 9 1
     let lane : Fin 10 := 9
     s.runs ∧ (s.head.lane lane.val).enabled = true ∧ s.head.laneState lane.val = 1) ∧
    (let s : State := wLane 9 2
     let lane : Fin 10 := 9
     s.runs ∧ s.head.laneState lane.val = 2) ∧
    (let s : State := wLane 9 3
     let lane : Fin 10 := 9
     s.runs ∧ s.head.laneState lane.val = 3 ∧ (s.head.lane lane.val).aligned = true) ∧
    (let s : State := wLane 9 4
     let lane : Fin 10 := 9
     s.runs ∧ (s.head.lane lane.val).enabled = true ∧ s.head.laneState lane.val = 4 ∧ 8 ≤ lane.val) := by
  delta State.runs; refine ⟨?_, ?_, ?_, ?_, ?_⟩ <;> decide +kernel

theorem witness_FieldFramesAct :
    (let s : State := plant id
     let r : RxFrame := { report1 with badGroup := true }
     s.runs ∧ r.lane.val < 8 ∧ s.head.laneUp r.lane.val = true ∧ r.badGroup = true) ∧
    (let s : State := plant id
     let r : RxFrame := damaged report1
     let x : RepSlot := ⟨0, 0, 3000, 1, 2, 5, false, 0⟩
     s.runs ∧ r.lane.val < 8 ∧ s.head.laneUp r.lane.val = true ∧ r.badGroup = false ∧ ((seen1 s r).topo (r.lane.val / 4) ≠ 2 ∨ (judge1 s
       r).portTakes (s.head.atBoundary r) = true) ∧ frameFault (s.head.atBoundary r) = some 4 ∧ (judge1 s r).bell.running = true ∧ (judge1 s
       r).bell.rollcall = false ∧ (judge1 s r).flightWindow r.lane.val (unitTick (s.head.atBoundary r).stamp) = none ∧ (judge1 s r).slotWindow
       r.lane.val (unitTick (s.head.atBoundary r).stamp) = some x ∧ ((seen1 s r).bump (LANE_CRC r.lane.val)).fld (NODE_STAT_STATE x.station) ≠ 6) ∧
    (let s : State := plant id
     let r : RxFrame := report1
     let x : RepSlot := ⟨0, 0, 3000, 1, 2, 5, false, 0⟩
     s.runs ∧ r.lane.val < 8 ∧ s.head.laneUp r.lane.val = true ∧ r.badGroup = false ∧ ((seen1 s r).topo (r.lane.val / 4) ≠ 2 ∨ (judge1 s
       r).portTakes (s.head.atBoundary r) = true) ∧ frameFault (s.head.atBoundary r) = none ∧ (seen1 s r).banksFull r.lane.val = false ∧ (judge1 s
       r).bell.edge = (seen1 s r).bell.edge ∧ (judge1 s r).bell.rollcall = false ∧ (judge1 s r).flightWindow r.lane.val (unitTick
       (s.head.atBoundary r).stamp) = none ∧ (judge1 s r).slotWindow r.lane.val (unitTick (s.head.atBoundary r).stamp) = some x ∧ fKind r.frame < 9
       ∧ (used1 s r).fld (NODE_STAT_STATE x.station) ≠ 6 ∧ (judge1 s r).slotMatch x r.frame = true ∧ x.part = 0 ∧ (((used1 s r).noteFrame x
       ((judge1 s r).instantTick x.arrival) r.frame (unitTick (s.head.atBoundary r).stamp)).node x.station).seenThisBell = false) ∧
    (let s : State := wFlying 0
     let r : RxFrame := response1
     let g : Flight := ⟨txn1, 0, 0, 0, 0, false⟩
     s.runs ∧ r.lane.val < 8 ∧ s.head.laneUp r.lane.val = true ∧ r.badGroup = false ∧ ((seen1 s r).topo (r.lane.val / 4) ≠ 2 ∨ (judge1 s
       r).portTakes (s.head.atBoundary r) = true) ∧ frameFault (s.head.atBoundary r) = none ∧ (seen1 s r).banksFull r.lane.val = false ∧ (judge1 s
       r).bell.edge = (seen1 s r).bell.edge ∧ answers r.frame = true ∧ (judge1 s r).bell.rollcall = false ∧ (judge1 s r).flightWindow r.lane.val
       (unitTick (s.head.atBoundary r).stamp) = some g ∧ fEpoch r.frame = (used1 s r).epochIn ∧ fSlot r.frame = 240 + g.pair) ∧
    (let s : State := wRollCall
     let r : RxFrame := answer1
     s.runs ∧ r.lane.val < 8 ∧ s.head.laneUp r.lane.val = true ∧ r.badGroup = false ∧ ((seen1 s r).topo (r.lane.val / 4) ≠ 2 ∨ (judge1 s
       r).portTakes (s.head.atBoundary r) = true) ∧ frameFault (s.head.atBoundary r) = none ∧ (seen1 s r).banksFull r.lane.val = false ∧ (judge1 s
       r).bell.edge = (seen1 s r).bell.edge ∧ answers r.frame = true ∧ (judge1 s r).bell.rollcall = true) ∧
    (let s : State := wStar
     let r : RxFrame := rx 0 9000 1 2 0 true [0, 0, 0, 0, 0]
     s.runs ∧ r.lane.val < 8 ∧ s.head.laneUp r.lane.val = true ∧ r.badGroup = false ∧ (seen1 s r).topo (r.lane.val / 4) = 2 ∧ (judge1 s
       r).portTakes (s.head.atBoundary r) = false) ∧
    (let s : State := full 0 (plant id)
     let r : RxFrame := report1
     s.runs ∧ r.lane.val < 8 ∧ s.head.laneUp r.lane.val = true ∧ r.badGroup = false ∧ ((seen1 s r).topo (r.lane.val / 4) ≠ 2 ∨ (judge1 s
       r).portTakes (s.head.atBoundary r) = true) ∧ frameFault (s.head.atBoundary r) = none ∧ (seen1 s r).banksFull r.lane.val = true) ∧
    (let s : State := plant id
     let r : RxFrame := { report1 with frame := { report1.frame with payload := [] } }
     let k : Nat := 3
     s.runs ∧ r.lane.val < 8 ∧ s.head.laneUp r.lane.val = true ∧ r.badGroup = false ∧ ((seen1 s r).topo (r.lane.val / 4) ≠ 2 ∨ (judge1 s
       r).portTakes (s.head.atBoundary r) = true) ∧ frameFault (s.head.atBoundary r) = some k ∧ (k ≠ 4 ∧ k ≠ 5 ∨ (judge1 s r).bell.running = false
       ∨ (judge1 s r).bell.rollcall = true)) := by
  delta State.runs; refine ⟨?_, ?_, ?_, ?_, ?_, ?_, ?_, ?_⟩ <;> decide +kernel

theorem witness_LineFramesAct :
    (let s : State := wLine
     let r : RxFrame := rx 8 100 0x300 0xC 3 false [0,0,0]
     s.runs ∧ r.lane = 8 ∧ s.head.laneUp 8 = true ∧ frameFault (s.head.atBoundary r) = none ∧ fStation r.frame ≠ (s.head.arrive r).ring * 256 ∧
       ((s.head.arrive r).forwardLine false r.frame).banksFull 8 = false ∧ pairTraffic r.frame = true ∧ fSlot r.frame ≠ (s.head.arrive r).ring) ∧
    (let s : State := wLine
     let r : RxFrame := rx 8 100 0x300 0xD 3 false [0x41000000,0,0]
     s.runs ∧ r.lane = 8 ∧ s.head.laneUp 8 = true ∧ frameFault (s.head.atBoundary r) = none ∧ fStation r.frame ≠ (s.head.arrive r).ring * 256 ∧
       ((s.head.arrive r).forwardLine false r.frame).banksFull 8 = false ∧ pairTraffic r.frame = false ∧ bits (wordAt r.frame.payload 0) 31 24 ∉
       [64, 81, 82, 83]) ∧
    (let s : State := wLine
     let r : RxFrame := rx 8 100 0x300 0xD 3 false [0x40000000,0x05000000,0,0,0,0,0,0,0]
     s.runs ∧ r.lane = 8 ∧ s.head.laneUp 8 = true ∧ frameFault (s.head.atBoundary r) = none ∧ fStation r.frame ≠ (s.head.arrive r).ring * 256 ∧
       pairTraffic r.frame = false ∧ bits (wordAt r.frame.payload 0) 31 24 = 64 ∧ (if bits (wordAt r.frame.payload 1) 31 24 = (s.head.arrive
       r).headNo ∧ (s.head.arrive r).substitute = false then s.head.arrive r else (s.head.arrive r).forwardLine false r.frame).banksFull 8 = false) ∧
    (let s : State := wLine
     let r : RxFrame := rx 8 100 0 0xC 3 false [0,0,0]
     s.runs ∧ r.lane = 8 ∧ s.head.laneUp 8 = true ∧ frameFault (s.head.atBoundary r) = none ∧ fStation r.frame = (s.head.arrive r).ring * 256 ∧
       pairTraffic r.frame = true ∧ (s.head.arrive r).banksFull 8 = false ∧ fKind r.frame = 12) ∧
    (let s : State := wLine
     let r : RxFrame := rx 8 100 0 0xD 3 false [0x05000000,0,0]
     s.runs ∧ r.lane = 8 ∧ s.head.laneUp 8 = true ∧ frameFault (s.head.atBoundary r) = none ∧ fStation r.frame = (s.head.arrive r).ring * 256 ∧
       pairTraffic r.frame = true ∧ (s.head.arrive r).banksFull 8 = false ∧ fKind r.frame ≠ 12) ∧
    (let s : State := wLine
     let r : RxFrame := { rx 8 100 0 0xD 3 false [0x05000000,0,0] with badGroup := true }
     let k : Nat := 1
     s.runs ∧ r.lane = 8 ∧ s.head.laneUp 8 = true ∧ frameFault (s.head.atBoundary r) = some k) ∧
    (let s : State := full 8 wLine
     let r : RxFrame := rx 8 100 0x300 0xD 3 false [0x41000000,0,0]
     s.runs ∧ r.lane = 8 ∧ s.head.laneUp 8 = true ∧ frameFault (s.head.atBoundary r) = none ∧ (s.head.arrive r).lineOnward r.frame = true ∧
       ((s.head.arrive r).forwardLine false r.frame).banksFull 8 = true) := by
  delta State.runs; refine ⟨?_, ?_, ?_, ?_, ?_, ?_, ?_⟩ <;> decide +kernel

theorem witness_RecessTransactionsRun :
    (let s : State := wWaiting
     let lane : Fin 10 := 0
     let pair : Nat := 0
     let tb : LaneTable := ⟨0, 10000, 0, [(10000, 11000), (12000, 13000)]⟩
     let p : Nat × Nat := (10000, 11000)
     let x : Txn := txn1
     s.runs ∧ s.head.laneTable? lane.val = some tb ∧ tb.pairs[pair]? = some p ∧ s.head.bell.running = true ∧ s.head.bell.rollcall = false ∧
       pickTxn ((s.head.forward (s.head.instantTick p.1)).mayFly lane.val pair (pair + 1 == tb.pairs.length))
       (s.head.forward (s.head.instantTick p.1)).net.waiting [] = some x ∧ x.ticket < 256 ∧ x.rcOp ≠ 7 ∧ x.src ≠ TxnSrc.rawsw) ∧
    (let s : State := wFlying 2
     let lane : Fin 10 := 0
     let pair : Nat := 0
     let tb : LaneTable := ⟨0, 10000, 0, [(10000, 11000), (12000, 13000)]⟩
     let p : Nat × Nat := (10000, 11000)
     let g : Flight := ⟨{txn1 with retries := 2}, 0, 0, 0, 0, false⟩
     s.runs ∧ s.head.laneTable? lane.val = some tb ∧ tb.pairs[pair]? = some p ∧ s.head.flightAt lane.val pair = some g ∧ g.txn.retries < 3) ∧
    (let s : State := wFlying 3
     let lane : Fin 10 := 0
     let pair : Nat := 0
     let tb : LaneTable := ⟨0, 10000, 0, [(10000, 11000), (12000, 13000)]⟩
     let p : Nat × Nat := (10000, 11000)
     let g : Flight := ⟨{txn1 with retries := 3}, 0, 0, 0, 0, false⟩
     let t : Nat := 255
     s.runs ∧ s.head.laneTable? lane.val = some tb ∧ tb.pairs[pair]? = some p ∧ s.head.flightAt lane.val pair = some g ∧ 3 ≤ g.txn.retries ∧
       g.txn.src = TxnSrc.host t) := by
  delta State.runs; refine ⟨?_, ?_, ?_⟩ <;> decide +kernel

theorem witness_BellEdgeRunsInOrder :
    (let s : State := plant id
     s.runs ∧ s.head.bell.running = true) := by
  delta State.runs; decide +kernel

theorem witness_DeparturesAndDeadlinesRun :
    (let s : State := wTasks 3 (fun h => h)
     let lane : Fin 10 := 0
     let slot : Nat := 0
     let t : Nat := 0
     let x : CmdSlot := ⟨0, 0, 500, 1, 1, 7, false, 0, false, 0⟩
     let due := s.head.instantTick (if x.express then x.dueFirst else x.instant)
     let h := (s.head.forward (s.head.instantTick x.instant)).forward due
     s.runs ∧ s.head.bell.running = true ∧ s.head.bell.rollcall = false ∧ s.head.cmdSlot? (lane.val * 256 + slot) = some x ∧
       h.slotInForce x.station lane.val x.limp = true ∧ h.substitute = false ∧ h.slotTask x = some t ∧ h.taskCmd t = some (lane.val * 256 + slot) ∧
       h.isOverrun t due x.express = true ∧ (h.overrun t).substitute = false) ∧
    (let s : State := wTasks 0 (fun h => h.setSlot 0 (fun y => {y with committed := true}))
     let lane : Fin 10 := 0
     let slot : Nat := 0
     let t : Nat := 0
     let x : CmdSlot := ⟨0, 0, 500, 1, 1, 7, false, 0, false, 0⟩
     let due := s.head.instantTick (if x.express then x.dueFirst else x.instant)
     let h := (s.head.forward (s.head.instantTick x.instant)).forward due
     s.runs ∧ s.head.bell.running = true ∧ s.head.bell.rollcall = false ∧ s.head.cmdSlot? (lane.val * 256 + slot) = some x ∧
       h.slotInForce x.station lane.val x.limp = true ∧ h.substitute = false ∧ h.slotTask x = some t ∧ h.taskCmd t = some (lane.val * 256 + slot) ∧
       h.isOverrun t due x.express = false ∧ ((h.slot (lane.val * 256 + slot)).sends due).2 = true) ∧
    (let s : State := wTasks 3 (fun h => h)
     let t : Nat := 1
     let lane : Fin 10 := 0
     let slot : Nat := 0
     let c : Content := plan
     let x : RepSlot := ⟨0, 0, 3000, 1, 2, 5, false, 0⟩
     let h := s.head.forward (s.head.closeTick x)
     let counted := (h.bump (NODE_MISS 1)).setNode 1 (fun y => { y with missA := y.missA + 1 })
     s.runs ∧ s.head.bell.running = true ∧ s.head.bell.rollcall = false ∧ s.head.bell.gatesOff = false ∧ s.head.isMotion t = true ∧
       s.head.taskEnabled t = true ∧ s.head.bell.cyclicCount % max 1 (bits (s.head.desc t 2) 15 8) = bits (s.head.desc t 2) 7 0 ∧ s.head.content? =
       some c ∧ List.find? (fun x => x.lane == lane.val && x.slot == slot) c.repSlots = some x ∧ s.head.slotInForce x.station lane.val x.limp =
       true ∧ s.head.fld (NODE_STAT_STATE x.station) ≠ 6 ∧ (h.node x.station).judged = false ∧ (h.node x.station).badA = false ∧
       (h.node x.station).seenA = false ∧ (h.node x.station).limp = 0 ∧ h.dualMode x.station ≠ 3 ∧ (counted.node x.station).missA < 2 ∧
       (h.node x.station).seenThisBell = false ∧ counted.windowsClosed x.station = true) ∧
    (let s : State := plant (fun h => h.setNode 1 (fun n => {n with seenA := true, seenThisBell := true}))
     let lane : Fin 10 := 0
     let slot : Nat := 0
     let c : Content := plan
     let x : RepSlot := ⟨0, 0, 3000, 1, 2, 5, false, 0⟩
     let h := s.head.forward (s.head.closeTick x)
     s.runs ∧ s.head.bell.running = true ∧ s.head.bell.rollcall = false ∧ s.head.content? = some c ∧ List.find? (fun x => x.lane == lane.val &&
       x.slot == slot) c.repSlots = some x ∧ s.head.slotInForce x.station lane.val x.limp = true ∧ s.head.fld (NODE_STAT_STATE x.station) ≠ 6 ∧
       (h.node x.station).judged = false ∧ (h.node x.station).seenA = true ∧ (h.node x.station).seenThisBell = true) := by
  delta State.runs; refine ⟨?_, ?_, ?_, ?_⟩ <;> decide +kernel

theorem witness_SteeringIsLimited :
    (let s : State := wSteer
     let n : Nat := 1
     let ws : List Word := [42, 0, 0, 0, 1]
     let d : Int := (wSteer.head.latchDiff 1 [42, 0, 0, 0, 1]).getD 0
     s.runs ∧ s.head.time.steer.latch = some (n, ws) ∧ s.head.bell.rollcall = false ∧ (s.head.setSteer (fun x => { x with latch := none })).latchDiff n ws = some d ∧
       (s.head.setSteer (fun x => { x with latch := none })).fld TIME_MT_STAT_STATE ≠ 3 ∧ (d - s.head.time.steer.offset * 2 ^ 32).natAbs ≤ 100000 *
       2 ^ 32) := by
  delta State.runs; decide +kernel

theorem witness_LineTimeIsShared :
    (let s : State := wHold 1 4 0
     let sync : RxFrame := sync1 0x51
     let follow : RxFrame := sync1 0x52
     let t1 : Nat := 0
     let t2 : Nat := 10
     let t3 : Nat := 20
     let t4 : Nat := 40
     s.runs ∧ (s.head.fld TIME_MT_STAT_STATE = 1 ∨ s.head.fld TIME_MT_STAT_STATE = 2) ∧ s.head.refMode ≠ 1 ∧ 4 ≤ s.head.time.steer.lostRun ∧ (held1
       s.head).nextCandidate = none ∧ s.head.fld TIME_MT_CTL_REF_MODE ≤ 1 ∧ s.head.on LANE_TOPO_LL_USED = true ∧ s.head.laneUp 8 = true ∧ sync.lane
       = 8 ∧ frameFault (s.head.atBoundary sync) = none ∧ (s.head.arrive sync).banksFull 8 = false ∧ fKind sync.frame = 13 ∧ fStation sync.frame ≠
       (s.head.arrive sync).ring * 256 ∧ bits (wordAt sync.frame.payload 0) 31 24 = 81 ∧ (((s.head.arrive sync).bank 8 sync.frame).takeSync
       (s.head.atBoundary sync).stamp).laneUp 8 = true ∧ follow.lane = 8 ∧ frameFault ((((s.head.arrive sync).bank 8 sync.frame).takeSync
       (s.head.atBoundary sync).stamp).atBoundary follow) = none ∧ ((((s.head.arrive sync).bank 8 sync.frame).takeSync (s.head.atBoundary
       sync).stamp).arrive follow).banksFull 8 = false ∧ fKind follow.frame = 13 ∧ fStation follow.frame ≠ ((((s.head.arrive sync).bank 8
       sync.frame).takeSync (s.head.atBoundary sync).stamp).arrive follow).ring * 256 ∧ bits (wordAt follow.frame.payload 0) 31 24 = 82 ∧
       (s.head.time.steer.linkSamples ++ [echoSample (t1 + (s.head.send 8 (mkFrame (headWord0 (s.head.ring * 256 + 255) 13 2 false false false)
       (headWord1 s.head.ownEpoch s.head.bellNo s.head.ring) [mirrorWord 83 0 s.head.red.lineSeq, BitVec.ofNat 32 t1])).txDelay 8) t2 t3 (t4 -
       (s.head.send 8 (mkFrame (headWord0 (s.head.ring * 256 + 255) 13 2 false false false) (headWord1 s.head.ownEpoch s.head.bellNo s.head.ring)
       [mirrorWord 83 0 s.head.red.lineSeq, BitVec.ofNat 32 t1])).rxDelay 8)]).length < 16) ∧
    (let s : State := wHold 3 0 1
     s.runs ∧ (s.head.fld TIME_MT_STAT_STATE = 0 ∨ s.head.fld TIME_MT_STAT_STATE = 3)) ∧
    (let s : State := wEcho
     let t1 : Nat := 0
     let t2 : Nat := 100
     let t3 : Nat := 200
     let t4 : Nat := 400
     let d : Int := (trimmedMean (List.replicate 15 100 ++ [echoSample 0 100 200 400])).getD 0
     s.runs ∧ (s.head.time.steer.linkSamples ++ [echoSample (t1 + (s.head.send 8 (mkFrame (headWord0 (s.head.ring * 256 + 255) 13 2 false false
       false) (headWord1 s.head.ownEpoch s.head.bellNo s.head.ring) [mirrorWord 83 0 s.head.red.lineSeq, BitVec.ofNat 32 t1])).txDelay 8) t2 t3 (t4
       - (s.head.send 8 (mkFrame (headWord0 (s.head.ring * 256 + 255) 13 2 false false false) (headWord1 s.head.ownEpoch s.head.bellNo s.head.ring)
       [mirrorWord 83 0 s.head.red.lineSeq, BitVec.ofNat 32 t1])).rxDelay 8)]).length = 16 ∧ trimmedMean (s.head.time.steer.linkSamples ++
       [echoSample (t1 + (s.head.send 8 (mkFrame (headWord0 (s.head.ring * 256 + 255) 13 2 false false false) (headWord1 s.head.ownEpoch
       s.head.bellNo s.head.ring) [mirrorWord 83 0 s.head.red.lineSeq, BitVec.ofNat 32 t1])).txDelay 8) t2 t3 (t4 - (s.head.send 8 (mkFrame
       (headWord0 (s.head.ring * 256 + 255) 13 2 false false false) (headWord1 s.head.ownEpoch s.head.bellNo s.head.ring) [mirrorWord 83 0
       s.head.red.lineSeq, BitVec.ofNat 32 t1])).rxDelay 8)]) = some d) ∧
    (let s : State := { wHold 2 0 0 with head := (wHold 2 0 0).head.put TIME_MT_CTL_REF_MODE 1 }
     s.runs ∧ (s.head.fld TIME_MT_STAT_STATE = 1 ∨ s.head.fld TIME_MT_STAT_STATE = 2) ∧ s.head.refMode = 1) ∧
    (let s : State := wHold 2 4 1
     let i : Nat := 0
     s.runs ∧ (s.head.fld TIME_MT_STAT_STATE = 1 ∨ s.head.fld TIME_MT_STAT_STATE = 2) ∧ s.head.refMode ≠ 1 ∧ 4 ≤ s.head.time.steer.lostRun ∧ (held1
       s.head).nextCandidate = some i) := by
  delta State.runs; refine ⟨?_, ?_, ?_, ?_, ?_⟩ <;> decide +kernel

theorem witness_PulsesAndTriggersRun :
    (let s : State := plant (fun h => ((h.put TIME_PPS_CTL_OUT_EN 1).put (TIME_TRG_CTL_MODE 3) 1).setTrg 3 (fun t => {t with armed := true, time := 1000000}))
     let k : Fin 4 := 3
     s.runs ∧ s.head.on TIME_PPS_CTL_OUT_EN = true ∧ s.head.time.ppsHigh = none ∧ s.head.boot.recipe.isSome = true ∧ (s.head.trg k.val).armed =
       true ∧ (s.head.trg k.val).late = false ∧ s.head.fld (TIME_TRG_CTL_MODE k.val) = 1 ∧ (s.head.domainScale (s.head.trg k.val).domain).jumped
       ((s.head.trg k.val).time * 2 ^ 32) = false) ∧
    (let s : State := plant (fun h => ((h.put (TIME_TRG_CTL_EDGE 3) 2).setTrg 3 (fun t => {t with pulseEnd := some 30000})) |> fun h => {h with time := {h.time with ppsHigh := some 30000}})
     let t : Nat := 30000
     let k : Fin 4 := 3
     let rising : Bool := true
     s.runs ∧ s.head.time.ppsHigh = some t ∧ (s.head.trg k.val).pulseEnd = some t ∧ s.head.fld (TIME_TRG_CTL_MODE k.val) = 0 ∧ (s.head.fld
       (TIME_TRG_CTL_EDGE k.val) = 2 ∨ s.head.fld (TIME_TRG_CTL_EDGE k.val) = if rising = true then 0 else 1)) := by
  delta State.runs; refine ⟨?_, ?_⟩ <;> decide +kernel

theorem witness_LostAndDetainedNodesComeBack :
    (let s : State := wDown
     let lane : Fin 10 := 0
     s.runs ∧ s.head.bell.running = true ∧ s.head.bell.rollcall = false ∧ s.head.fieldLanes.contains lane.val = true ∧ s.head.laneUp lane.val =
       false) ∧
    (let s : State := wLost (.wait 0) 0 0
     let lane : Fin 10 := 0
     let st : Nat := 1
     let b : Nat := 0
     s.runs ∧ s.head.bell.running = true ∧ s.head.bell.rollcall = false ∧ s.head.fieldLanes.contains lane.val = true ∧ s.head.laneUp lane.val =
       true ∧ s.head.topo (lane.val / 4) = 1 ∧ 0 < s.head.lostFrom lane.val ∧ (s.head.node st).resync = Resync.wait b ∧ bellReached s.head.bellNo b
       = true) ∧
    (let s : State := wLost (.probation 0) 2 16
     let st : Nat := 1
     let b : Nat := 0
     s.runs ∧ (s.head.node st).resync = Resync.probation b ∧ ((s.head.node st).probDrift = true ∨ 16 ≤ (s.head.node st).probMiss)) ∧
    (let s : State := (plant (fun h => ((h.wr TIME_BELL_CNT 256).setNode 1 (fun x => {x with resync := .probation 0, probEdges := 2})).setGroup 15 (fun x => {x with clearLeft := some 0})))
     let st : Nat := 1
     let b : Nat := 0
     let g : Fin 16 := 15
     s.runs ∧ (s.head.node st).resync = Resync.probation b ∧ (s.head.node st).probDrift = false ∧ (s.head.node st).probMiss < 16 ∧ 256 ≤ bellsSince
       s.head.bellNo b ∧ (s.head.node st).probEdges ≤ 2 ∧ (s.head.group g.val).clearLeft = some 0) ∧
    (let s : State := wLost .none 0 0
     let lane : Fin 10 := 0
     let st : Nat := 1
     let more : List Nat := []
     s.runs ∧ s.head.lostStations lane.val = st :: more ∧ (s.head.node st).resync = Resync.none ∧ ((s.head.net.waiting ++ List.map (fun x => x.txn)
       s.head.net.flights).any fun x => x.src == TxnSrc.rejoinEcho && x.station == st) = false ∧ (∀ (b : Nat), (s.head.lane lane.val).echoBell =
       some b → 64 ≤ bellsSince s.head.bellNo b)) := by
  delta State.runs; refine ⟨?_, ?_, ?_, ?_, ?_⟩ <;> decide +kernel

theorem witness_RollCallProceeds :
    (let s : State := wRcIdle
     let t : Nat := 99999
     s.runs ∧ s.head.boot.recipe.isSome = true ∧ s.head.sysState = 3 ∧ s.head.net.rc.active = false ∧ s.head.paired = false ∧
       s.head.net.rc.restartAt = some t) ∧
    (let s : State := wRc .assign true 2 0
     let lane : Fin 10 := 0
     s.runs ∧ s.head.net.rc.active = true ∧ s.head.bell.rollcall = true ∧ s.head.net.rc.startsLeft = 0 ∧ (s.head.rcLane lane.val).sent = true ∧
       (s.head.rcLane lane.val).step ≠ RcStep.ended ∧ (s.head.rcLane lane.val).step ≠ RcStep.markers ∧ (s.head.rcLane lane.val).step ≠ RcStep.probe
       ∧ (s.head.rcLane lane.val).reading = false) ∧
    (let s : State := wRc .ended true 3 3
     s.runs ∧ s.head.net.rc.active = true ∧ s.head.bell.rollcall = true ∧ 0 < s.head.net.rc.startsLeft ∧ (s.head.net.rc.lanes.toList.all fun x =>
       x.step == RcStep.ended) = true ∧ s.head.rcFailed = none ∧ s.head.bell.firstCyclic = none) := by
  delta State.runs; refine ⟨?_, ?_, ?_⟩ <;> decide +kernel

theorem witness_TasksStartWaitAndGoOn :
    (let s : State := wReady 2
     let e : Fin 16 := 15
     let t : Nat := 2
     let beyond : Bool := false
     s.runs ∧ s.head.engineFree e.val = true ∧ s.head.offer e.val = some (t, beyond) ∧ 128 ≤ s.head.taskAxis t) ∧
    (let s : State := wReady 960
     let t : Nat := 960
     s.runs ∧ s.head.taskState t = 2 ∧ s.head.taskClass t = 2 ∧ (s.head.task t).queued = false ∧ (s.head.level (s.head.levelOf t)).length < 4) ∧
    (let s : State := wParked
     let e : Fin 16 := 15
     s.runs ∧ (s.head.engine e.val).mode = EngineMode.parked) ∧
    (let s : State := lab id
     let e : Fin 16 := 0
     s.runs ∧ (s.head.engine e.val).mode = EngineMode.running) := by
  delta State.runs; refine ⟨?_, ?_, ?_, ?_⟩ <;> decide +kernel

theorem witness_MovesAndMastersGoOn :
    (let s : State := wPlan
     let n : Fin 128 := 127
     let done : List MoveEntry := [{ entry0 with ready := some 0 }]
     let rest : List MoveEntry := []
     let x : MoveEntry := entry0
     s.runs ∧ (s.head.mot n.val).queue = done ++ x :: rest ∧ (∀ y ∈ done, y.ready.isSome = true) ∧ x.ready = none) ∧
    (let s : State := wPub
     let v : Fin 8 := 7
     s.runs ∧ s.head.on (VM_CFG_PUB v.val) = true ∧ s.head.substitute = false ∧ s.head.bell.running = true ∧ s.head.bellNo % max 1 (s.head.fld
       (VM_PUB_PUB_DIV v.val)) = 0) ∧
    (let s : State := wFollow false none
     let v : Fin 8 := 7
     s.runs ∧ s.head.fld (VM_CFG_SRC v.val) = 3 ∧ (s.head.vm v.val).loose = false ∧ s.head.lineLate v.val = true) ∧
    (let s : State := wFollow true (some 1)
     let v : Fin 8 := 7
     let b : Nat := 1
     s.runs ∧ s.head.fld (VM_CFG_SRC v.val) = 3 ∧ (s.head.vm v.val).loose = true ∧ (s.head.vm v.val).holdover = some b ∧ s.head.bellsOfMs
       (s.head.fld (VM_LINE_HOLD v.val)) < bellsSince s.head.bellNo b) := by
  delta State.runs; refine ⟨?_, ?_, ?_, ?_⟩ <;> decide +kernel

theorem witness_EdgesAreCountedAndStamped :
    (let s : State := plant (fun h => ((h.put (ENC_CFG_MODE 3) 1).put (ENC_CFG_Z_MODE 3) 1).put (CAP_CFG_EDGE 7) 3)
     let stable : Nat := 0
     let k : Fin 4 := 3
     let a : Bool := true
     let b : Bool := false
     s.runs ∧ s.head.fld (ENC_CFG_FILT k.val) ≤ stable ∧ ((s.head.enc k.val).a ≠ a ∨ (s.head.enc k.val).b ≠ b) ∧ 1 ≤ s.head.fld (ENC_CFG_MODE
       k.val) ∧ s.head.fld (ENC_CFG_MODE k.val) ≤ 5 ∧ s.head.fld (ENC_CFG_Z_MODE k.val) = 1) ∧
    (let s : State := plant (fun h => ((h.put (ENC_CFG_FILT 3) 1).put (ENC_CFG_Z_MODE 3) 2).put (CAP_CFG_EDGE 7) 3)
     let stable : Nat := 0
     let k : Fin 4 := 3
     let a : Bool := true
     let b : Bool := false
     s.runs ∧ (s.head.fld (ENC_CFG_FILT k.val) > stable ∨ (s.head.enc k.val).a = a ∧ (s.head.enc k.val).b = b)) ∧
    (let s : State := plant (fun h => ((h.put (ENC_CFG_MODE 3) 6).put (ENC_CFG_Z_MODE 3) 2).put (CAP_CFG_EDGE 7) 3)
     let stable : Nat := 0
     let k : Fin 4 := 3
     let a : Bool := true
     let b : Bool := false
     s.runs ∧ s.head.fld (ENC_CFG_FILT k.val) ≤ stable ∧ ((s.head.enc k.val).a ≠ a ∨ (s.head.enc k.val).b ≠ b) ∧ (s.head.fld (ENC_CFG_MODE k.val) =
       0 ∨ 5 < s.head.fld (ENC_CFG_MODE k.val)) ∧ s.head.fld (ENC_CFG_Z_MODE k.val) = 2 ∧ s.head.on (ENC_STAT_Z_ARMED k.val) = false) ∧
    (let s : State := plant (fun h => ((h.put (ENC_STAT_Z_ARMED 3) 1).put (ENC_CFG_Z_MODE 3) 2).put (CAP_CFG_EDGE 7) 3)
     let stable : Nat := 0
     let k : Fin 4 := 7
     s.runs ∧ s.head.fld (ENC_CFG_FILT k.val) ≤ stable ∧ s.head.fld (ENC_CFG_Z_MODE k.val) = 2 ∧ s.head.on (ENC_STAT_Z_ARMED k.val) = true) ∧
    (let s : State := plant (fun h => ((h.put (ENC_STAT_Z_ARMED 3) 1).put (ENC_CFG_Z_MODE 3) 2).put (CAP_CFG_EDGE 7) 3)
     let stable : Nat := 0
     let k : Fin 8 := 7
     let rising : Bool := true
     s.runs ∧ s.head.fld (CAP_CFG_FILT k.val) ≤ stable ∧ bit (s.head.fld (CAP_CFG_EDGE k.val)) (if rising = true then 0 else 1) = true) := by
  delta State.runs; refine ⟨?_, ?_, ?_, ?_, ?_⟩ <;> decide +kernel

theorem witness_TablePassesRun :
    (let s : State := plant id
     s.runs ∧ s.head.tableRuns = false) ∧
    (let s : State := wTable none 0x40000000
     s.runs ∧ s.head.tableRuns = true ∧ s.head.mst.firstPass = false ∧ s.head.mst.force = none ∧ (∀ i : Fin 512, (passed1 s.head).fires
       s.head.mst.events i.val = false)) ∧
    (let s : State := wTable none 0x60000000
     let i : Fin 512 := 0
     s.runs ∧ s.head.tableRuns = true ∧ s.head.mst.firstPass = false ∧ s.head.mst.force = none ∧ (∀ j : Fin 512, j < i → (passed1 s.head).fires
       s.head.mst.events j.val = false) ∧ (passed1 s.head).fires s.head.mst.events i.val = true ∧ bits ((passed1 s.head).trWord i.val 3) 6 0 = 0 ∧
       bits ((passed1 s.head).rd (MST_STATES (2 * bits ((passed1 s.head).trWord i.val 0) 25 20 + 1))) 6 0 = 0) ∧
    (let s : State := wTable (some 63) 0x60000000
     let st : Nat := 63
     s.runs ∧ s.head.tableRuns = true ∧ s.head.mst.firstPass = false ∧ s.head.mst.force = some st ∧ bits ((passed1 s.head).rd (MST_STATES (2 * st +
       1))) 6 0 = 0) := by
  delta State.runs; refine ⟨?_, ?_, ?_, ?_⟩ <;> decide +kernel

theorem witness_AcquisitionSamplesAndCloses :
    (let s : State := wAcq 1
     s.runs ∧ s.head.bell.running = true ∧ s.head.acq.armPending = false ∧ (s.head.acqState = 1 ∨ s.head.acqState = 2) ∧ (s.head.bellNo + 2 ^ 32 -
       s.head.acq.armBell) % 2 ^ 32 % max 1 (s.head.fld ACQ_RATE_DIV) = 0) ∧
    (let s : State := wAcq 3
     let tick : Nat := 30000
     s.runs ∧ s.head.acqState = 3 ∧ (¬((s.head.forward tick).acqClose.on ACQ_CFG_AUTO = true ∧ ((s.head.forward tick).acqClose.fld ACQ_STAT_SEG + 1
       < (s.head.forward tick).acqClose.acqSegs ∨ (s.head.forward tick).acqClose.on ACQ_CFG_RING = true) ∧ (s.head.forward
       tick).acqClose.acq.thenDone = false))) ∧
    (let s : State := (let s := wAcq 3; {s with head := (s.head.put ACQ_CFG_AUTO 1).put ACQ_CFG_NSEG_LOG2 1})
     let tick : Nat := 30000
     s.runs ∧ s.head.acqState = 3 ∧ ((s.head.forward tick).acqClose.on ACQ_CFG_AUTO = true ∧ ((s.head.forward tick).acqClose.fld ACQ_STAT_SEG + 1 <
       (s.head.forward tick).acqClose.acqSegs ∨ (s.head.forward tick).acqClose.on ACQ_CFG_RING = true) ∧ (s.head.forward
       tick).acqClose.acq.thenDone = false)) := by
  delta State.runs; refine ⟨?_, ?_, ?_⟩ <;> decide +kernel

theorem witness_HeartbeatsAreSentAndJudged :
    (let s : State := wPair 1 3 (fun r => {r with heardLL := true, heardPin := true})
     let c : Content := plan
     let tick : Nat := 30000
     s.runs ∧ s.head.paired = true ∧ s.head.bell.running = true ∧ s.head.bell.rollcall = false ∧ s.head.content? = some c ∧ (s.head.bell.running =
       false ∨ tick ≤ (s.head.forward (tick + 2)).instantTick (s.head.fld RED_HB_DUE_HB_DUE)) ∧ s.head.red.checkedBell ≠ some s.head.bellNo ∧
       s.head.red.heardLL = true ∧ s.head.red.heardPin = true) ∧
    (let s : State := wPair 1 3 (fun r => {r with heardLL := true})
     let tick : Nat := 49910
     s.runs ∧ s.head.paired = true ∧ s.head.bell.running = true ∧ (s.head.forward (tick + 2)).instantTick (s.head.fld RED_HB_DUE_HB_DUE) < tick ∧
       (s.head.forward (tick + 2)).instantTick (if s.head.bell.rollcall = true then 25000 else s.head.bellTicks) ≤ tick + 100 ∧
       s.head.red.checkedBell ≠ some s.head.bellNo ∧ s.head.red.heardLL = true ∧ s.head.red.heardPin = false) ∧
    (let s : State := wPair 1 3 (fun r => {r with heardPin := true})
     s.runs ∧ s.head.paired = true ∧ s.head.bell.running = true ∧ s.head.red.checkedBell ≠ some s.head.bellNo ∧ s.head.red.heardLL = false ∧
       s.head.red.heardPin = true) ∧
    (let s : State := wPair 1 3 (fun r => {r with heardPinPrev := true})
     s.runs ∧ s.head.paired = true ∧ s.head.bell.running = true ∧ s.head.red.checkedBell ≠ some s.head.bellNo ∧ s.head.red.heardLL = false ∧
       s.head.red.heardPin = false ∧ (s.head.red.heardLLPrev = true ∨ s.head.red.heardPinPrev = true)) ∧
    (let s : State := wPair 1 3 (fun r => r)
     s.runs ∧ s.head.paired = true ∧ s.head.bell.running = true ∧ s.head.red.checkedBell ≠ some s.head.bellNo ∧ s.head.red.heardLL = false ∧
       s.head.red.heardPin = false ∧ s.head.red.heardLLPrev = false ∧ s.head.red.heardPinPrev = false) ∧
    (let s : State := wPair 1 3 (fun r => r)
     let tick : Nat := 40000
     s.runs ∧ s.head.paired = true ∧ s.head.bell.running = true ∧ (s.head.forward (tick + 2)).instantTick (s.head.fld RED_HB_DUE_HB_DUE) < tick ∧
       tick + 100 < (s.head.forward (tick + 2)).instantTick (if s.head.bell.rollcall = true then 25000 else s.head.bellTicks)) ∧
    (let s : State := wPairIdle
     s.runs ∧ s.head.paired = true ∧ s.head.bell.running = false) := by
  delta State.runs; refine ⟨?_, ?_, ?_, ?_, ?_, ?_, ?_⟩ <;> decide +kernel

theorem witness_PairTakesItsRoles :
    (let s : State := wPair 1 3 (fun r => {r with listenUntil := some 99999, backoffUntil := some 99999, lostUntil := some 99999, claimUntil := some 99999})
     let t : Nat := 99999
     let i : Byte := 0
     let typ : Byte := 5
     s.runs ∧ s.head.red.listenUntil = some t ∧ (s.head.partnerState = 3 ∨ s.head.partnerState = 7) ∧ s.head.red.backoffUntil = some t ∧
       s.head.red.lostUntil = some t ∧ s.head.red.claimUntil = some t ∧ Option.any (fun r => epochNewer r.1 s.head.ownEpoch || r.1 ==
       s.head.ownEpoch && decide (r.2 > s.head.ring)) s.head.red.claimRival = false ∧ s.head.activePair = true ∧ BitVec.toNat typ ≠ 6 ∧
       BitVec.toNat typ ≠ 12 ∧ BitVec.toNat typ ≠ 13 ∧ List.find? (fun r => r.typ == BitVec.toNat typ && r.index == BitVec.toNat i)
       s.head.red.waiting = none) ∧
    (let s : State := wPair 1 5 (fun r => {r with listenUntil := some 99999, backoffUntil := some 99999, lostUntil := some 99999, claimUntil := some 99999, claimRival := some (5, 1)})
     let t : Nat := 99999
     s.runs ∧ s.head.red.listenUntil = some t ∧ s.head.partnerState ≠ 3 ∧ s.head.partnerState ≠ 7 ∧ s.head.red.backoffUntil = some t ∧
       s.head.red.claimUntil = some t ∧ Option.any (fun r => epochNewer r.1 s.head.ownEpoch || r.1 == s.head.ownEpoch && decide (r.2 >
       s.head.ring)) s.head.red.claimRival = true) ∧
    (let s : State := wMirror (fun h => h.setRed (fun r => {r with reloadOut := some (1, 9)}))
     let i : Byte := 255
     let addr : Nat := 0x80000
     let v : Word := 5
     let b : Nat := 9
     let more : List (Nat × Word × Nat) := []
     let slot : Nat := 1
     let typ : Byte := 255
     let r : MirrorRec := rec0
     s.runs ∧ s.head.activePair = true ∧ s.head.red.writesOut = (addr, v, b) :: more ∧ s.head.red.reloadOut = some (slot, b) ∧
       BitVec.toNat typ ≠ 6 ∧ BitVec.toNat typ ≠ 12 ∧ BitVec.toNat typ ≠ 13 ∧ List.find? (fun r => r.typ == BitVec.toNat typ && r.index ==
       BitVec.toNat i) s.head.red.waiting = some r) ∧
    (let s : State := wPair 2 3 id
     let st : Nat := 1
     s.runs ∧ s.head.substitute = true ∧ s.head.ownLane st ≠ 15 ∧
       (∀ a ∈ s.head.joinRound.joinOrder.takeWhile (· != st), (s.head.joinRound.joinRun a).settled = true) ∧
       (s.head.joinRound.joinRun st).settled = false ∧ (s.head.joinRound.joinRun st).step = 0) := by
  delta State.runs; refine ⟨?_, ?_, ?_, ?_⟩ <;> decide +kernel

theorem witness_IslandActsByItself :
    (let s : State := onIsle (isle 0 true)
     let code : Fin 8 := 7
     let n : Fin 4 := 3
     let samples : Nat := 10107
     0 < code.val ∧ (s.island.out n.val).ss1.isSome = true ∧ s.island.fsSag = true ∧ s.island.powered = true ∧ 100000 ≤ samples * 188 / 19 ∧
       samples * 188 / 19 ≤ 2000000) ∧
    (let s : State := onIsle (inSlot 6 (isle 0x800101 true))
     let k : Fin 4 := 3
     let slot : Fin 8 := 6
     let n : Fin 4 := 3
     s.island.pairAt (2 * k.val) = true ∧ (s.island.inp (2 * k.val)).level ≠ (s.island.inp (2 * k.val + 1)).level ∧ slot.val = nth [0, 2, 4, 6]
       n.val ∧ s.island.param.isSome = true ∧ s.island.serves = true ∧ (s.island.out n.val).ball = true ∧ s.island.slotDue slot.val = true ∧
       s.island.fsSag = true) ∧
    (let s : State := onIsle (inSlot 6 (isle 0x800101 false))
     let slot : Fin 8 := 6
     let n : Fin 4 := 3
     let samples : Nat := 202128
     slot.val = nth [0, 2, 4, 6] n.val ∧ s.island.param.isSome = true ∧ s.island.serves = true ∧ (s.island.out n.val).ball = true ∧
       s.island.slotDue slot.val = true ∧ s.island.fsSag = false ∧ s.island.powered = true ∧ (samples * 188 / 19 < 100000 ∨ 2000000 < samples * 188 / 19 ∧ samples * 188 / 19 < 3000000 ∨ 5000000 <
       samples * 188 / 19)) ∧
    (let s : State := onIsle (inSlot 3 (isle 0x800101 false))
     let slot : Fin 8 := 3
     let t : Fin 2 := 1
     let samples : Nat := 303192
     slot.val = 1 + 2 * t.val ∧ s.island.param.isSome = true ∧ s.island.serves = true ∧ s.island.slotDue slot.val = true ∧
       s.island.fsSag = false ∧ s.island.powered = true ∧ 3000000
       ≤ samples * 188 / 19 ∧ samples * 188 / 19 ≤ 5000000) ∧
    (let s : State := onIsle (isle 0x800101 false)
     let slot : Fin 8 := 7
     s.island.slotDue slot.val = false) := by
  refine ⟨?_, ?_, ?_, ?_, ?_⟩ <;> decide +kernel

theorem witness_EvaluationDrivesTheOutputs :
    (let s : State := onIsle (isle 0x800101 false)
     s.island.powered = true) ∧
    (let s : State := wServed
     let i : Island := (match exec (.evaluationCycle eval1) wServed with | .next t => t.island | _ => Island.off)
     let n : Fin 4 := 3
     s.island.powered = true ∧ (i.out n.val).ball = true) := by
  refine ⟨?_, ?_⟩ <;> decide +kernel

theorem witness_CoreAndIslandExchange :
    (let s : State := wRecipe 0x13F00 16
     let r : Recipe := { recipeOf_ plan with safety := List.replicate 22 0x13F00, safeSig := 0xFFFFFFFF }
     let n : Fin 4 := 3
     s.inReset = false ∧ s.head.boot.recipe = some r ∧ ¬(s.island.param.isSome = true ∧ s.island.sig = r.safeSig) ∧ s.island.powered = true ∧
       s.island.record ≠ [] ∧ r.early n.val = true ∧ nth s.head.core.codes n.val = 1 ∧ 16 ≤ nth s.head.core.still n.val ∧ s.head.boot.want = 0) := by
  decide +kernel

/-! ### The whole machine and the Loop Engines -/

/-- The hypotheses of StepRunsTheFront, ResetState, IslandSeparation, NoSetNoOutput, StoresStayCanonical,
FlashChangesByTheseAlone, OneTimeStoresStay and NothingStaysAsked. -/
theorem witness_wholeMachine :
    State.reset.pending = [] ∧ islandCommand .arm = false ∧ flashCommand .arm = false ∧ resetCommand .arm = false ∧
      (∃ t, exec .arm State.reset = .next t ∧ t.inReset = State.reset.inReset) ∧ State.reset.island.quiet = true ∧
      State.reset.store.wf = true ∧ (∃ t, step State.reset = .next t) ∧ (wImage []).store.key.locked = true ∧
      (∃ t, step (wImage []) = .next t) ∧ State.reset.head.boot.want = 0 :=
  ⟨rfl, rfl, rfl, rfl, ⟨_, rfl, rfl⟩, by decide +kernel, by decide +kernel, ⟨_, rfl⟩, rfl, ⟨_, rfl⟩, rfl⟩

/-- An engine that runs without a budget may run anything. -/
theorem may_run (s : State) (e : Fin 16) (h : s.inReset = false ∧ s.head.boot.want = 0 ∧ (s.head.engine e.val).mode = .running ∧
    (s.head.engine e.val).budget = none ∧ (s.head.engine e.val).bad = []) :
    (∀ i n, s.engineFree e i n) ∧ ∀ i cost, s.mayRun e i cost := by
  have f : ∀ i n, s.engineFree e i n := fun i n =>
    ⟨⟨h.1, h.2.1⟩, h.2.2.1, by simp [Engine.readable, h.2.2.2.2], fun b hb => by rw [h.2.2.2.1] at hb; cases hb⟩
  exact ⟨f, fun i _ => f i _⟩

/-- Operands at their ends: 0x800000, a sum with bit 23 and bit 24 set, a sum near the top. -/
def wSums : State := lab (fun g => { g with
  k := #v[0x400000, 3, 0x800000, 0, 5, 6, 0x800000, 0x7FFFFF]
  sum := #v[0x123456789ABC, 0x7FFFFFFF800000, 3, 0x80000000000000] })
def moves1 : Moves := ⟨some (mvTo 1), some (mvTo 2), none⟩
/-- The hypotheses of ProductsSumOnce, RoundingFollowsItsMode, LoadsAndFindsRun, SumOperationsRun, ComparesAndLogicRun,
LoadsAndStoresRun and ImmediatesAndMovesRun. -/
theorem witness_sums :
    (∀ i cost, wSums.mayRun 0 i cost) ∧ wSums.movesReach 0 moves1 [(1, 0), (2, 0)] [(0, 1), (2, 1)] ∧
      (Int.ofNat (2 ^ 55) < -(2 ^ 55) ∨ (2 : Int) ^ 55 - 1 < Int.ofNat (2 ^ 55)) ∧
      ((3 : Fin 8).val ≠ 7 → (0 : Int) = 0) ∧ (∃ w, busRead (wSums.head.engine 0) (wSums.head.ports 0) .y 5 = some w) ∧
      (∃ g', busWrite (wSums.head.engine 0) (wSums.head.ports 0) .y 1023 7 = some g') ∧
      (∃ w c, (wSums.head.engine 0).readCode 9 = some (w, c) ∧ ∃ g', (wSums.head.engine 0).writeCode 20 w = some g') := by
  refine ⟨(may_run _ _ (by decide +kernel)).2, ⟨by decide +kernel, _, _, _, rfl, rfl, rfl, rfl, rfl⟩, by decide, fun _ => rfl, ⟨_, rfl⟩,
    ⟨_, rfl⟩, ⟨_, _, rfl, _, rfl⟩⟩

/-- An engine deep in calls and loops at the last instruction of the program memory. -/
def wJump (calls : List Nat) (loops : List HwLoop) (lcnt : BitVec 16) : State :=
  lab (fun g => { g with pc := 1, lcnt := lcnt, calls := calls, loops := loops })
/-- The hypotheses of JumpsAndLoopsRun. -/
theorem witness_jumps :
    (∀ i n, (wJump [3, 5] [⟨2, 5000, 2, 0, 1⟩] 7).engineFree 0 i n) ∧ condHolds 0 2 = some true ∧ condHolds 0 1 = some false ∧
      gotoLoops 2 4095 false [⟨2, 5000, 2, 0, 1⟩] = some [⟨2, 5000, 2, 0, 1⟩] ∧
      isControl (((wJump [3, 5] [] 7).head.engine 0).prog.get (fun _ => 0) (1 + 1 + 127)) = false ∧
      ((wJump [3, 5] [] 7).head.engine 0).calls = 3 :: [5] ∧ ((wJump [] [] 7).head.engine 0).lcnt ≠ 0 ∧
      ((wJump [] [] 0).head.engine 0).lcnt = 0 :=
  ⟨(may_run _ _ (by decide +kernel)).1, by decide +kernel⟩

/-- Engine 0 runs task 0 of the plan, its staging bank dirty; a budget of 6 cycles of which 5 are used. -/
def wTask : State := wTasks 3 (fun h => h.setEngine 0 (fun g => { g with mode := .running, dirty := true, stage := [5, 6, 7] }))
def wBudget : State := lab (fun g => { g with budget := some 6, cycles := 5 })
/-- The hypotheses of CommitParkEndRun, and of the clause of FaultsHaveNoEffect about a spent budget. -/
theorem witness_commits :
    (∀ i cost, wTask.mayRun 0 i cost) ∧
      ((wTask.head.engine 0).bench = false ∧ (wTask.head.task 0).discard = false ∧ wTask.head.taskState 0 ≠ 0 ∧
        (wTask.head.expressTask 0 = false ∨ (wTask.head.engine 0).dirty = true) ∧ wTask.head.loopsOf 1 = [] ∧
        (wTask.head.taskCmd 0).bind wTask.head.cmdSlot? = some ⟨0, 0, 500, 1, 1, 7, false, 0, false, 0⟩) ∧
      (wBudget.inReset = false ∧ wBudget.head.boot.want = 0 ∧ (wBudget.head.engine 0).budget = some 6) ∧
      (∀ s', exec (.zero 0 0) s' = .next (s'.issue 0 (.a .zero 0 0 0))) ∧
      ∃ g', instrStep (wBudget.head.engine 0) (wBudget.head.ports 0) (.a .zero 0 0 0) = .ok g' 1 .none ∧
        6 ≤ (wBudget.head.engine 0).cycles + 1 :=
  ⟨(may_run _ _ (by decide +kernel)).2, by decide +kernel, by decide +kernel, fun _ => rfl, _, rfl, by decide +kernel⟩

/-- A load outside the memory, and a load with 7 calls open, are faults. -/
def wWild : State := lab (fun g => { g with ap := Vector.replicate 8 0x2000, calls := [1, 2, 3, 4, 5, 6, 7] })
/-- The word that a load reads has an uncorrectable error. -/
def wBad : State := lab (fun g => { g with bad := [(1, 5)], ap := Vector.replicate 8 5 })
/-- The hypotheses of FaultsHaveNoEffect and of the STACK clause of LawsKeepTheirRegisters. -/
theorem witness_faults :
    (wWild.inReset = false ∧ wWild.head.boot.want = 0 ∧ (wWild.head.engine 0).mode = .running ∧ 6 < (wWild.head.engine 0).calls.length ∧
        (wWild.head.engine 0).budget = none) ∧
      ((wWild.head.engine 0).readable (.m false .x 0 0 0 0) = true ∧ (wWild.head.engine 0).readable (.ctl .law 0 8 0) = true ∧
        (wBad.head.engine 0).readable (.m false .x 0 0 0 0) = false ∧ (wBad.head.engine 0).mode = .running ∧
        (wBad.head.engine 0).budget = none) ∧
      (∀ s', exec (.mLoad 0 .x 0 0 0 0) s' = .next (s'.issue 0 (.m false .x 0 0 0 0))) ∧
      instrStep (wWild.head.engine 0) (wWild.head.ports 0) (.m false .x 0 0 0 0) = .fault 2 ∧ condHolds 0 0 = some true ∧
      ∃ t, exec (.focStd 0) wWild = .next t :=
  ⟨by decide +kernel, by decide +kernel, fun _ => rfl, by decide +kernel, by decide +kernel, _, rfl⟩

/-- Two free loop levels and two free call levels, windows for every law, 0.5 in K0. -/
def wLaw (k0 : W24) : State := lab (fun g => { g with
  k := #v[k0, 3, 0, 0, 5, 6, 7, 8], calls := [1, 2, 3, 4, 5, 6], loops := [⟨0, 0, 0, 0, 0⟩, ⟨0, 0, 0, 0, 0⟩]
  ap := #v[0, 0, 100, 0, 0, 0, 0, 0], fl := 0x10 })
/-- The hypotheses of LawCallsRunTheirLaw, HelperLawsAreExact and LawsKeepTheirRegisters. -/
theorem witness_laws :
    (∀ i cost, (wLaw 0x400000).mayRun 0 i cost) ∧
      (let g := (wLaw 0x400000).head.engine 0
       g.calls.length ≤ 6 ∧ g.loops.length ≤ 2 ∧ 128 ≤ g.xWin.2 ∧ 64 ≤ g.yWin.2 ∧ 32 ≤ g.cWin.2 ∧ g.fl.getLsbD 4 = true ∧
         (inWindow g.xWin g.ap[0].toNat && inWindow g.xWin (g.ap[0].toNat + 95) && inWindow g.yWin g.ap[2].toNat &&
           inWindow g.yWin (g.ap[2].toNat + 15)) = true ∧ 2 ^ 15 < g.k[0].toInt ∧
         (∀ entry : Fin 18, lawHurt entry.val g = false) ∧
         ((5931641 : Int) * 5931641 ≤ g.k[0].toInt * 2 ^ 23 ∧ g.k[0].toInt * 2 ^ 23 < (5931641 + 1) * (5931641 + 1))) ∧
      ((wLaw 0xFFFFFF).head.engine 0).k[0].toInt < 0 ∧ ((wLaw 0x8000).head.engine 0).k[0].toInt ≤ 2 ^ 15 ∧
      ∃ t, exec (.focStd 0) (wLaw 0) = .next t :=
  ⟨(may_run _ _ (by decide +kernel)).2, by decide +kernel, by decide +kernel, by decide +kernel, _, rfl⟩

/-! ### Worked examples of the spec -/

/-- The machine after a command. -/
def next (c : Instr) (s : State) : State := match exec c s with | .next t => t | _ => s
def sum0 (s : State) : BitVec 56 := (s.head.engine 0).sum[0]
def noMoves : Moves := ⟨none, none, none⟩
/-- An engine with these words in K0, K1, K4 and K5 and a sum in SUM0. -/
def ks (k0 k1 k4 k5 : W24) (x : BitVec 56) : State :=
  lab (fun g => { g with k := #v[k0, k1, 0, 0, k4, k5, 0, 0], sum := #v[x, 0, 0, 0] })

-- R8, R10: 8,000 s and 999,999,997 ns; one tick later the seconds carry.
theorem test_stamp : stampOf (8000 * 10 ^ 9 + 999999997) 0 = 0x00001F40EE6B27F4 := by decide +kernel
theorem test_stamp_carry : stampOf (8000 * 10 ^ 9 + 999999997 + 5) 0 = 0x00001F4100000008 := by decide +kernel
-- Table 05-1: the header words of AX17's command and report in Bell 0x2A under epoch 5.
theorem test_command_header : headWord0 23 1 7 false false false = 0x001711C0 ∧ headWord1 5 0x2A 1 = 0x00052A01 := by decide
theorem test_report_header : headWord0 23 2 5 false false true = 0x00172141 ∧ headWord1 5 0x2A 9 = 0x00052A09 := by decide
-- R138: t1 1,000, t2 50,000, t3 52,640, t4 3,877 give 118.5 units, kept in half units.
theorem test_echo : echoSample 1000 50000 52640 3877 = 237 := by decide
-- R177, R179: 0.5 times one LSB, rounded half to even and half up, for 1, 3 and -1 LSB.
theorem test_product_half : sum0 (next (.prod 0 0 0 4 noMoves) (ks 1 0 0x400000 0 0)) = 0x00000000800000 := by decide +kernel
theorem test_product_negative : sum0 (next (.prod 0 0 0 4 noMoves) (ks 0xFFFFFF 0 0x400000 0 0)) = 0xFFFFFFFF800000 := by decide +kernel
theorem test_round_even : sum0 (next (.round 0 0) (ks 0 0 0 0 0x00000000800000)) = 0 := by decide +kernel
theorem test_round_odd : sum0 (next (.round 0 0) (ks 0 0 0 0 0x00000001800000)) = 0x00000002000000 := by decide +kernel
theorem test_round_half_up : (round56 0x00000000800000 true).1 = 0x00000001000000 ∧ (round56 0x00000001800000 true).1 = 0x00000002000000 ∧
    (round56 0xFFFFFFFF800000 false).1 = 0 := by decide +kernel
-- The worked example of chapter 08: ia 0.25, ib -0.5 at 60 degrees.
theorem test_park_d : sumH (sum0 (next (.prod2 0 0 0 4 noMoves) (ks 0x200000 0xC00000 0x400000 0x6ED9EC 0))) = 0xD8930A := by decide +kernel
theorem test_park_q : sumH (sum0 (next (.pdif 0 0 1 4 noMoves) (ks 0x200000 0xC00000 0x400000 0x6ED9EC 0))) = 0xC44985 := by decide +kernel
-- R189: the parallel store of SUM0H, an exact sum.
theorem test_store : ((next (.mStore 0 .x 8 0 1 0) (ks 0 0 0 0 0xFFD8930A000000)).head.engine 0).xRam.get (fun _ => 0) 0 = 0xD8930A := by
  decide +kernel
-- R230, R231: the edges of AX17 with window 1 opened (Table 10-2).
theorem test_shift : edgeShifts 3125 112 400 (onEdge 3125 45875 0) (onEdge 3125 44564 0) (onEdge 3125 19661 0) = some (-81, 0) := by
  decide +kernel
-- R239: KP and KI of AX17's motor at 2,000 Hz and 64 kHz, IFS 40 A, VFS 800 V.
def motor17 : Head :=
  let h : Head := { (planned Head.initial) with boot := { Boot.initial with recipe := some { recipeOf_ plan with bellTicks := 3125 } } }
  (((((h.wr (AX_RS 0) 420000).wr (AX_LD 0) 2100000).wr (AX_LQ 0) 2100000).wr (AX_PSI 0) 61000).wr (AX_CUR_BW 0) (2000 * 65537)).setNode 1
    (fun x => { x with descriptor := [0, 0, 0, 0, 0, 0, 0, 0, 40000, 800000] })
theorem test_motor_gains : (motor17.derive 0).take 4 = [(0, 0x151C8B), (1, 0x10E4), (2, 0x151C8B), (3, 0x10E4)] := by decide +kernel
-- R287: VM0 of head 7 follows VM2 of head 3, 87,500 ns after its publication.
theorem test_line_follower : linePub ⟨0, 0, 6250, 0, 400000 * 65536, 0x01EB851F, 0⟩ 87500 0 5000 = (26304594314, 0x0189374C, 0) := by
  decide +kernel
-- R290: the middle of the rise segment is 589,824 counts.
theorem test_cam_middle :
    (segValue ⟨[134217728, 0, 0, 335544320, -503316480, 201326592], 262144, 0, 8, 0, 0⟩ 0x800000).1 = 589824 * 65536 := by decide +kernel
-- The CRC-32 of IEEE 802.3 of the nine digits.
theorem test_crc32 : crc32 [0x31, 0x32, 0x33, 0x34, 0x35, 0x36, 0x37, 0x38, 0x39] = 0xCBF43926#32 := by decide +kernel
-- R16, R432: an idle step, and the front of the queue.
theorem test_idle_in_reset : step State.reset = .next State.reset := rfl
theorem test_front_first : (match step { State.reset with pending := [.islandPowerOn 0, .fsStop] } with
    | .next t => t.pending = [.fsStop] ∧ t.island.powered = true | _ => False) := ⟨rfl, rfl⟩
-- Table 19-1, cycle by cycle: WR of 0x12345678 to 0x080104; the same, ended a cycle early; FETCHR of ticket 0xFF, with 2 data words, cut
-- in its data and whole; an OP outside the table.
def wire (l : List Nat) : List (BitVec 4) := l.map (BitVec.ofNat 4)
def wWire : State := wHost 5 ⟨1, 1, 0, 0, []⟩
theorem test_transaction_write : wWire.head.onWire (wire [0, 2, 0, 1, 0, 8, 0, 1, 0, 4, 1, 2, 3, 4, 5, 6, 7, 8, 0, 0, 0xA, 5, 0, 5]) =
    (next (.wr 0x080104 1 [0x12345678]) wWire).head := by decide +kernel
theorem test_transaction_cut : wWire.head.onWire (wire [0, 2, 0, 1, 0, 8, 0, 1, 0, 4, 1, 2, 3, 4, 5, 6, 7, 8, 0, 0, 0xA, 5, 0]) =
    (next (.transactionAbort none) wWire).head := by decide +kernel
theorem test_transaction_fetch :
    wWire.head.onWire (wire ([0, 9, 0xF, 0xF] ++ List.replicate 31 0)) = (next (.transactionAbort (some 0xFF)) wWire).head ∧
      wWire.head.onWire (wire ([0, 9, 0xF, 0xF] ++ List.replicate 32 0)) = (next (.fetchr 0xFF) wWire).head ∧
      wWire.head.onWire (wire [0, 6]) = (next .badOp wWire).head := by decide +kernel
-- R435: a write outside the map is refused with ADDR.
theorem test_refused_address : (next (.registerWrite 0x00FFFFFC 1) (plant id)).head.host.last = 3 := by decide +kernel
-- R364, R387: an island that loses its refresh, and one that powers on, drive nothing.
theorem test_island_on : (next (.islandPowerOn 0) State.reset).island.quiet = true := by decide +kernel
theorem test_keepalive : ((next (.keepaliveDrop 3) wServed).island.out 3).ball = false := by decide +kernel

/-! ### Ill-formed commands -/

def rx49 : RxFrame := { report1 with frame := { report1.frame with payload := List.replicate 49 0 } }
theorem wf_imageLength : wellFormed (.hostLoadStart 513) = false ∧ wellFormed (.hostLoadStart 496) = false := by decide
theorem wf_readBack : wellFormed (.bootKeyProg 0x5A3C (some [1])) = false ∧ wellFormed (.requestCommit (some [])) = false := by decide
theorem wf_frame : wellFormed (.reportReceive rx49) = false ∧ wellFormed (.lineFollow report1 rx49) = false := by decide +kernel
theorem wf_pair : wellFormed (.recessRequest 0 16 0) = false ∧ wellFormed (.recessResponseMissing 0 16) = false := by decide
theorem wf_slot : wellFormed (.slotDeparture 0 256) = false ∧ wellFormed (.rxWindowClose 0 256) = false := by decide
theorem wf_task : wellFormed (.motionDeadline 1024) = false ∧ wellFormed (.privEnqueue 1024) = false := by decide
theorem wf_station : wellFormed (.nodeRelease 0) = false ∧ wellFormed (.join 255) = false := by decide
theorem wf_moves : wellFormed (.load 0 ⟨some (mvTo 1), some (mvTo 1), none⟩) = false := by decide
theorem wf_disp : wellFormed (.mLoad 0 .x 0 0 7 1024) = false ∧ wellFormed (.mStore 0 .x 0 0 1 1) = false := by decide
theorem wf_codes : wellFormed (.move 0 52 0) = false ∧ wellFormed (.move 0 0 56) = false := by decide
theorem wf_samples : wellFormed (.testPulse 0 (List.replicate 112 ⟨0, 0⟩)) = false := by decide
theorem wf_words : wellFormed (.wr 0 1 (List.replicate 257 0)) = false := by decide +kernel
theorem wf_region : wellFormed (.scrubStep ⟨7, 0, false, false, none, 0, 0, 0, [], false, []⟩) = false := by decide
theorem wf_rails : wellFormed (.telemetry 0 [1, 2]) = false := by decide
theorem wf_round : wellFormed (.recalibration ⟨[], []⟩) = false := by decide
theorem wf_sound : wellFormed .arm = true ∧ wellFormed (.prod 0 0 0 4 moves1) = true ∧ wellFormed (.reportReceive report1) = true := by
  decide +kernel

end Sys2Proof.Tests
end

section
namespace Sys2Proof.Machine

/-! ## The axis block of the register map -/

/-- A page entry of the axis block: one register for each of the 128 axes, at a stride of 0x400. -/
def RegRow.perAxis (r : RegRow) : Bool :=
  r.stride == 0x400 && r.first == 0 && r.last == 128 && decide (0x80000 ≤ r.base) && decide (r.base < 0x80400)

theorem rowsOf_ax_perAxis : ∀ r ∈ rowsOf 8, r.perAxis = true := by decide +kernel

theorem RegRow.holds_perAxis {r : RegRow} (hr : r.perAxis = true) {c n : Nat} (hn : n < 128) (hl : 0x80000 ≤ c) (hu : c < 0x80400) :
    r.holds (c + 0x400 * n) = r.holds c := by
  simp only [RegRow.perAxis, Bool.and_eq_true, beq_iff_eq, decide_eq_true_eq] at hr
  obtain ⟨⟨⟨⟨hs, hf⟩, hl⟩, hb⟩, hb'⟩ := hr
  simp only [RegRow.holds, hs, hf, hl, Nat.mul_zero, Nat.add_zero]
  rw [Bool.eq_iff_iff]
  simp only [Bool.and_eq_true, decide_eq_true_eq, beq_iff_eq]
  omega

/-- Every axis has the register pages of axis 0. -/
theorem regRow?_ax {c n : Nat} (hn : n < 128) (hl : 0x80000 ≤ c) (hu : c < 0x80400) : regRow? (c + 0x400 * n) = regRow? c := by
  have hrows : rowsOf ((c + 0x400 * n) / 65536) = rowsOf 8 := by
    have : (c + 0x400 * n) / 65536 = 8 ∨ (c + 0x400 * n) / 65536 = 9 := by omega
    rcases this with h | h
    · rw [h]
    · rw [h]; rfl
  unfold regRow?
  rw [hrows, show c / 65536 = 8 by omega]
  exact List.find?_congr fun r hr => RegRow.holds_perAxis (rowsOf_ax_perAxis r hr) hn hl hu

theorem addrFault_single (a : Nat) : addrFault [a] = if mapped a = true then none else some 0 := by
  by_cases hm : mapped a = true <;> simp [addrFault, hm]

/-- In the axis block a word is mapped where a register page says so. -/
theorem mapped_axBlock {a : Nat} (h1 : 0x80000 ≤ a) (h2 : a < 0xA0000) : mapped a = (a % 4 == 0 && (regRow? a).isSome) := by
  have hw : (0x200000 ≤ a ∧ a < 0x280000) = False ∧ (0x400000 ≤ a ∧ a < 0x440000) = False ∧
      (0x60000 ≤ a ∧ a < 0x64000) = False ∧ (0x68000 ≤ a ∧ a < 0x7A000) = False := by
    simp only [eq_iff_iff, iff_false]; omega
  simp [mapped, hw]

/-- In the axis block a view is denied the registers that carry /P, and nothing else. -/
theorem writeDenied_axBlock {a : Nat} (e : Bool) (h1 : 0x80000 ≤ a) (h2 : a < 0xA0000) : writeDenied e a = (privAddr a && !e) := by
  have hw : (0x400000 ≤ a) = False ∧ (0xA1800 ≤ a ∧ a < 0xA2000) = False ∧ (0x111000 ≤ a ∧ a < 0x116000) = False ∧
      (0x800 ≤ a ∧ a < 0x1000) = False ∧ (0x48000 ≤ a ∧ a < 0x50000) = False := by
    simp only [eq_iff_iff, iff_false]; omega
  have hs : (a / 65536 == 0x0E) = false := by simp only [beq_eq_false_iff_ne]; omega
  simp [writeDenied, hw, hs]

theorem mapped_ax {c n : Nat} (hn : n < 128) (hl : 0x80000 ≤ c) (hu : c < 0x80400) : mapped (c + 0x400 * n) = mapped c := by
  rw [mapped_axBlock (by omega) (by omega), mapped_axBlock hl (by omega), regRow?_ax hn hl hu]
  congr 2; omega

theorem writeDenied_ax {c n : Nat} (hn : n < 128) (hl : 0x80000 ≤ c) (hu : c < 0x80400) (e : Bool) :
    writeDenied e (c + 0x400 * n) = writeDenied e c := by
  have hp : (0x50000 ≤ c + 0x400 * n ∧ c + 0x400 * n < 0x7A000) = (0x50000 ≤ c ∧ c < 0x7A000) := by rw [eq_iff_iff]; omega
  rw [writeDenied_axBlock e (by omega) (by omega), writeDenied_axBlock e hl (by omega)]
  simp only [privAddr, hp, regRow?_ax hn hl hu]

theorem clearable1_ax {c n : Nat} (hn : n < 128) (hl : 0x80000 ≤ c) (hu : c < 0x80400) : clearable1 (c + 0x400 * n) = clearable1 c := by
  simp only [clearable1, regRow?_ax hn hl hu]

theorem halfOf_ax {c n : Nat} (hn : n < 128) (hl : 0x80000 ≤ c) (hu : c < 0x80400) : halfOf (c + 0x400 * n) = halfOf c := by
  simp only [halfOf, regRow?_ax hn hl hu]

theorem writable_ax {c n : Nat} (hn : n < 128) (hl : 0x80000 ≤ c) (hu : c < 0x80400) (e : Bool) :
    writable (c + 0x400 * n) e = writable c e := by
  simp only [writable, regRow?_ax hn hl hu]

theorem stored_ax {c n : Nat} (hn : n < 128) (hl : 0x80000 ≤ c) (hu : c < 0x80400) : stored (c + 0x400 * n) = stored c := by
  simp only [stored, regRow?_ax hn hl hu]

theorem plainWord_ax {c n : Nat} (hn : n < 128) (hl : 0x80000 ≤ c) (hu : c < 0x80400) (e : Bool) :
    plainWord e (c + 0x400 * n) = plainWord e c := by
  have hw : (0x200000 ≤ c + 0x400 * n) = (0x200000 ≤ c) := by rw [eq_iff_iff]; omega
  have ht : (c + 0x400 * n == TIME_MT_ADDEND) = (c == TIME_MT_ADDEND) := by
    rw [Bool.eq_iff_iff, beq_iff_eq, beq_iff_eq, TIME_MT_ADDEND]; omega
  simp only [plainWord, addrFault_single, mapped_ax hn hl hu, writeDenied_ax hn hl hu, hw, ht, clearable1_ax hn hl hu,
    writable_ax hn hl hu, halfOf_ax hn hl hu]

theorem Fld.within_ax {c n : Nat} (hi lo : Nat) (hn : n < 128) (hl : 0x80000 ≤ c) (hu : c < 0x80400) (e : Bool) :
    (⟨c + 0x400 * n, hi, lo⟩ : Fld).within e = (⟨c, hi, lo⟩ : Fld).within e := by
  simp only [Fld.within, stored_ax hn hl hu, writable_ax hn hl hu, Fld.mask]

/-! ## Bits of a masked word -/

theorem testBit_bits (w hi lo k : Nat) : (bits w hi lo).testBit k = (decide (k < hi + 1 - lo) && w.testBit (k + lo)) := by
  simp [bits, Nat.testBit_mod_two_pow, Nat.testBit_div_two_pow]

/-- A field of a masked word is the field, masked by the mask's. -/
theorem bits_band (a b lo : Nat) {hi : Nat} (hh : hi < 32) : bits (band a b) hi lo = bits a hi lo &&& bits b hi lo := by
  apply Nat.eq_of_testBit_eq
  intro k
  simp only [testBit_bits, testBit_band, Nat.testBit_and]
  by_cases hk : k < hi + 1 - lo
  · simp [hk, show k + lo < 32 by omega]
  · simp [hk]

theorem testBit_mask {f : Fld} (hl : f.lo ≤ f.hi) (hh : f.hi < 32) (k : Nat) : f.mask.testBit k = decide (f.lo ≤ k ∧ k ≤ f.hi) := by
  unfold Fld.mask
  rw [testBit_putBits _ _ _ _ _ hl, Nat.testBit_two_pow_sub_one, Nat.zero_testBit]
  split_ifs with hk
  · simp [hk, show k - f.lo < 32 by omega]
  · simp [hk]

theorem testBit_bandNot (a b k : Nat) (hk : k < 32) : (bandNot a b).testBit k = (a.testBit k && !b.testBit k) := by
  unfold bandNot
  rw [BitVec.testBit_toNat, BitVec.getLsbD_and, BitVec.getLsbD_not, BitVec.getLsbD_ofNat, BitVec.getLsbD_ofNat]
  simp [hk]

/-! ## The word of a field write -/

/-- A field beside the one written keeps what stands or waits of it, where its bits are RW. -/
theorem Head.bits_fieldWord_other (h : Head) (f : Fld) (v lo : Nat) {hi : Nat} (hl : f.lo ≤ f.hi + 1) (hh : hi < 32)
    (hd : f.hi < lo ∨ hi < f.lo) :
    bits (h.fieldWord f v) hi lo = bits (h.pendingRd f.addr) hi lo &&& bits (stored f.addr) hi lo := by
  unfold Head.fieldWord
  rcases hd with hd | hd
  · rw [bits_putBits_above _ _ _ _ _ _ hl hd, bits_band _ _ _ hh]
  · rw [bits_putBits_below _ _ _ _ _ _ hl hd, bits_band _ _ _ hh]

theorem Head.bits_fieldWord_same (h : Head) (f : Fld) (v : Nat) (hl : f.lo ≤ f.hi + 1) :
    bits (h.fieldWord f v) f.hi f.lo = v % 2 ^ (f.hi + 1 - f.lo) := bits_putBits _ _ _ _ hl

/-- A field that a view may write and beside which no bit of its register is RW. -/
def Fld.alone (f : Fld) (engineer : Bool) : Bool :=
  plainWord engineer f.addr && f.within engineer && bandNot (stored f.addr) f.mask == 0

theorem Fld.alone_ax {c n : Nat} (hi lo : Nat) (hn : n < 128) (hl : 0x80000 ≤ c) (hu : c < 0x80400) (e : Bool) :
    (⟨c + 0x400 * n, hi, lo⟩ : Fld).alone e = (⟨c, hi, lo⟩ : Fld).alone e := by
  simp only [Fld.alone, plainWord_ax hn hl hu, Fld.within_ax hi lo hn hl hu, stored_ax hn hl hu, Fld.mask]

/-- A field beside which no bit is RW is written by a word of its value alone. -/
theorem Head.fieldWord_alone (h : Head) {f : Fld} {v : Nat} {e : Bool} (hf : f.alone e = true) (hv : v < 2 ^ (f.hi + 1 - f.lo)) :
    h.fieldWord f v = v * 2 ^ f.lo := by
  simp only [Fld.alone, Fld.within, Bool.and_eq_true, decide_eq_true_eq, beq_iff_eq] at hf
  obtain ⟨⟨_, ⟨hl, hh⟩, _⟩, hs⟩ := hf
  apply Nat.eq_of_testBit_eq
  intro k
  unfold Head.fieldWord
  rw [testBit_putBits _ _ _ _ _ hl, Nat.testBit_mul_two_pow]
  by_cases hin : f.lo ≤ k ∧ k ≤ f.hi
  · simp [hin]
  · rw [if_neg hin, testBit_band]
    have hz : (decide (k < 32) && (stored f.addr).testBit k) = false := by
      by_cases hk : k < 32
      · have hx := congrArg (fun x => x.testBit k) hs
        rw [testBit_bandNot _ _ _ hk, testBit_mask hl hh, Nat.zero_testBit] at hx
        simpa [hin, hk] using hx
      · simp [hk]
    have hv' : (decide (f.lo ≤ k) && v.testBit (k - f.lo)) = false := by
      by_cases hk : f.lo ≤ k
      · rw [Nat.testBit_lt_two_pow (lt_of_lt_of_le hv (Nat.pow_le_pow_right (by norm_num) (by omega))), Bool.and_false]
      · simp [hk]
    rw [Bool.and_right_comm, hz, Bool.false_and, hv']

/-- The word of such a field lies within the bits the view may write. -/
theorem band_alone {f : Fld} {v : Nat} {e : Bool} (hf : f.alone e = true) (hv : v < 2 ^ (f.hi + 1 - f.lo)) :
    band (v * 2 ^ f.lo) (writable f.addr e) = v * 2 ^ f.lo := by
  have hw := hf
  simp only [Fld.alone, Bool.and_eq_true, beq_iff_eq] at hw
  rw [← Head.initial.fieldWord_alone hf hv]
  exact Head.initial.band_fieldWord f v e hw.1.2

/-- One accepted field beside which no bit is RW. -/
theorem State.writeField_alone (s : State) (f : Fld) (v : Nat) (h' : Head) (hs : s.serves) (hf : f.alone s.head.engineer = true)
    (hv : v < 2 ^ (f.hi + 1 - f.lo)) (hb : s.head.writeBlock s.key f.addr (v * 2 ^ f.lo) s.head.engineer = (h', 0))
    (hq : h'.boot = s.head.boot) :
    s.writeField f v = s.accepted h' [(f.addr, BitVec.ofNat 32 (v * 2 ^ f.lo))] := by
  have hw := s.head.fieldWord_alone hf hv
  have hf' := hf
  simp only [Fld.alone, Bool.and_eq_true, beq_iff_eq] at hf'
  obtain ⟨⟨hp, hi⟩, _⟩ := hf'
  rw [← hw]
  exact s.writeField_one f v h' hs hp hi (by rw [hw]; exact hb) (by rw [hq]; exact hs.1.2)

/-- One accepted bit beside which no bit is RW. -/
theorem State.writeField_bit (s : State) (a b : Nat) (h' : Head) (hs : s.serves) (hf : (⟨a, b, b⟩ : Fld).alone s.head.engineer = true)
    (hb : s.head.writeBlock s.key a (2 ^ b) s.head.engineer = (h', 0)) (hq : h'.boot = s.head.boot) :
    s.writeField ⟨a, b, b⟩ 1 = s.accepted h' [(a, BitVec.ofNat 32 (2 ^ b))] := by
  rw [s.writeField_alone ⟨a, b, b⟩ 1 h' hs hf (Nat.one_lt_two_pow (by simp)) (by simpa using hb) hq, Nat.one_mul]

theorem band_bit {a b : Nat} {e : Bool} (hf : (⟨a, b, b⟩ : Fld).alone e = true) : band (2 ^ b) (writable a e) = 2 ^ b := by
  simpa using band_alone hf (v := 1) (Nat.one_lt_two_pow (by simp))

theorem bits_two_pow {b t : Nat} (h : b ≤ t) : bits (2 ^ b) t 0 = 2 ^ b := by
  simp only [bits, pow_zero, Nat.div_one]
  exact Nat.mod_eq_of_lt (Nat.pow_lt_pow_right (by norm_num) (by omega))

theorem bit_two_pow (b k : Nat) : bit (2 ^ b) k = decide (b = k) := by
  have h : (2 ^ b).testBit k = bit (2 ^ b) k := by simp [bit, Nat.testBit_eq_decide_div_mod_eq, Bool.beq_eq_decide_eq]
  rw [← h, Nat.testBit_two_pow]

end Sys2Proof.Machine
end

section
namespace Sys2Proof.Machine

/-! ## Words of the axis block -/

/-- A word of the axis block goes to its register's own rule, or waits for the Bell edge. -/
theorem Head.writeBlock_axAt (h : Head) (key : List Nat) {n off : Nat} (v : Nat) (e : Bool) (hn : n < 128) (ho : off < 0x400) :
    h.writeBlock key (0x80000 + off + 0x400 * n) v e =
      (let a := 0x80000 + off + 0x400 * n
       let w := band v (writable (0x80000 + off) e)
       if off = 0 then h.writeAxCtl n w e
       else if 0x20 ≤ off ∧ off ≤ 0x30 then h.writeMotor n a v
       else if off = 0xE0 then h.writePtCtl n w e
       else if off = 0x198 then h.writeMvCtl n w
       else if off = 0x20C then h.writeCamSel n w
       else if off = 0x210 then h.writeClutch n w
       else h.deferUnless (h.axBusy n off) a (h.merge a v e) (h.axRange n off w)) := by
  have hw := writable_ax (c := 0x80000 + off) hn (by omega) (by omega) e
  rw [Nat.add_right_comm] at hw ⊢
  rw [h.writeBlock_ax key n off v e hn ho]
  simp only [Head.writeAx, show (0x80000 + 0x400 * n + off) % 0x400 = off by omega,
    show (0x80000 + 0x400 * n + off - 0x80000) / 0x400 = n by omega, hw]

section AxisWords

variable (h : Head) (key : List Nat) {n : Nat} (v : Nat) (e : Bool) (hn : n < 128)
include hn

theorem Head.writeBlock_axCtl : h.writeBlock key (AX_CTL n) v e = h.writeAxCtl n (band v (writable (AX_CTL n) e)) e := by
  rw [writable_ax hn (by norm_num) (by norm_num)]
  exact h.writeBlock_axAt key (off := 0) v e hn (by norm_num)

theorem Head.writeBlock_ptCtl : h.writeBlock key (AX_PT_CTL n) v e = h.writePtCtl n (band v (writable (AX_PT_CTL n) e)) e := by
  rw [writable_ax hn (by norm_num) (by norm_num)]
  exact h.writeBlock_axAt key (off := 0xE0) v e hn (by norm_num)

theorem Head.writeBlock_mvCtl : h.writeBlock key (AX_MV_CTL n) v e = h.writeMvCtl n (band v (writable (AX_MV_CTL n) e)) := by
  rw [writable_ax hn (by norm_num) (by norm_num)]
  exact h.writeBlock_axAt key (off := 0x198) v e hn (by norm_num)

theorem Head.writeBlock_camSel : h.writeBlock key (AX_CAM_SEL n) v e = h.writeCamSel n (band v (writable (AX_CAM_SEL n) e)) := by
  rw [writable_ax hn (by norm_num) (by norm_num)]
  exact h.writeBlock_axAt key (off := 0x20C) v e hn (by norm_num)

theorem Head.writeBlock_cluCtl : h.writeBlock key (AX_CLU_CTL n) v e = h.writeClutch n (band v (writable (AX_CLU_CTL n) e)) := by
  rw [writable_ax hn (by norm_num) (by norm_num)]
  exact h.writeBlock_axAt key (off := 0x210) v e hn (by norm_num)

end AxisWords

/-! ## AX_CTL and AX_PT_CTL (R249 to R253, R272) -/

theorem plainWord_axCtl {n : Nat} (hn : n < 128) (e : Bool) : plainWord e (AX_CTL n) = true := by
  rw [plainWord_ax hn (by norm_num) (by norm_num)]
  exact plainWord_view (by decide +kernel) e

theorem stored_axCtl {n : Nat} (hn : n < 128) : stored (AX_CTL n) = 0xD := by
  rw [stored_ax hn (by norm_num) (by norm_num)]
  decide +kernel

section AxCtlWord

variable (h : Head) {n : Nat} (hn : n < 128) {f : Fld} (v : Nat) (ha : f.addr = AX_CTL n) (hl : f.lo ≤ f.hi)
include hn ha hl

/-- A write of another field of AX_CTL keeps CTRL as it stands or waits. -/
theorem Head.axCtlWord_ctrl (hd : f.hi < 2 ∨ 3 < f.lo) : bits (h.fieldWord f v) 3 2 = bits (h.pendingRd (AX_CTL n)) 3 2 := by
  rw [h.bits_fieldWord_other f v 2 (by omega) (by norm_num) hd, ha, stored_axCtl hn]
  exact Nat.and_two_pow_sub_one_of_lt_two_pow (n := 2) (bits_lt _ 3 2)

/-- A write of another field of AX_CTL keeps EN as it stands or waits. -/
theorem Head.axCtlWord_en (hd : 0 < f.lo) : bit (h.fieldWord f v) 0 = bit (h.pendingRd (AX_CTL n)) 0 := by
  rw [bit_eq_bits, bit_eq_bits, h.bits_fieldWord_other f v 0 (by omega) (by norm_num) (.inr hd), ha, stored_axCtl hn]
  rw [show bits 0xD 0 0 = 2 ^ 1 - 1 from rfl, Nat.and_two_pow_sub_one_of_lt_two_pow (bits_lt _ 0 0)]

/-- A write of another field of AX_CTL asks for no CLR. -/
theorem Head.axCtlWord_clr (hd : f.hi < 4 ∨ 4 < f.lo) : bit (h.fieldWord f v) 4 = false := by
  rw [bit_eq_bits, h.bits_fieldWord_other f v 4 (by omega) (by norm_num) hd, ha, stored_axCtl hn]
  simp [bits]

/-- A write of another field of AX_CTL asks for no CLR_BRIDGE. -/
theorem Head.axCtlWord_bridge (hd : f.hi < 5) : bit (h.fieldWord f v) 5 = false := by
  rw [bit_eq_bits, h.bits_fieldWord_other f v 5 (by omega) (by norm_num) (.inl hd), ha, stored_axCtl hn]
  simp [bits]

end AxCtlWord

/-- The checks of an AX_CTL word that asks for CTRL `c`, in the state it meets (R249, R259, R272). -/
def Head.ctrlFits (h : Head) (n c : Nat) : Prop :=
  h.ctrlAllowed n c = true ∧ (c = h.fld (AX_CTL_CTRL n) ∨ h.mstate n ≠ 1 ∧ h.mstate n ≠ 2)

/-- An AX_CTL word that meets every check waits for the Bell edge. -/
theorem Head.writeAxCtl_waits (h : Head) (n v : Nat) (e : Bool) (hc : h.ctrlFits n (bits v 3 2))
    (hen : bit v 0 = true → bit v 4 = false ∧ h.mayEnable n = true)
    (hbr : bit v 5 = true → e = true ∧ h.fld (AX_PT_STAT_RESULT n) = 2 ∧ (h.axis n).pt.bridge = true) :
    h.writeAxCtl n v e = (h.shadow (AX_CTL n) (bits v 5 0), 0) := by
  obtain ⟨ha, hm⟩ := hc
  unfold Head.writeAxCtl
  rw [if_neg (by rintro ⟨h5, he⟩; simp [hbr h5] at he), if_neg (by rintro ⟨h4, h0⟩; simp [hen h0] at h4),
    if_neg (by rintro ⟨h0, hx⟩; simp [hen h0] at hx), if_neg (by simp [ha]), if_neg (by tauto),
    if_neg (by rintro ⟨h5, hx⟩; simp [hbr h5] at hx)]

/-- An accepted field write of AX_CTL leaves its word waiting. -/
theorem State.writeField_axCtl (s : State) {n : Nat} (hn : n < 128) (f : Fld) (v : Nat) (hs : s.serves) (ha : f.addr = AX_CTL n)
    (hf : f.within s.head.engineer = true)
    (hw : s.head.writeAxCtl n (s.head.fieldWord f v) s.head.engineer = (s.head.shadow (AX_CTL n) (bits (s.head.fieldWord f v) 5 0), 0)) :
    s.writeField f v = s.accepted (s.head.shadow f.addr (bits (s.head.fieldWord f v) 5 0))
      [(f.addr, BitVec.ofNat 32 (s.head.fieldWord f v))] := by
  refine s.writeField_one f v _ hs (by rw [ha]; exact plainWord_axCtl hn _) hf ?_ hs.1.2
  rw [ha, s.head.writeBlock_axCtl s.key _ _ hn, ← ha, s.head.band_fieldWord f v _ hf, hw, ha]

end Sys2Proof.Machine
end

section
namespace Sys2Proof.Machine

/-- A word within a mask. -/
theorem band_eq_self {v m : Nat} (hv : v < 2 ^ 32) (hm : ∀ k < 32, v.testBit k = true → m.testBit k = true) : band v m = v := by
  apply Nat.eq_of_testBit_eq
  intro k
  rw [testBit_band]
  by_cases hk : k < 32
  · cases hb : v.testBit k
    · simp
    · simp [hk, hm k hk hb]
  · rw [Nat.testBit_lt_two_pow (lt_of_lt_of_le hv (Nat.pow_le_pow_right (by norm_num) (by omega)))]
    simp

theorem plainWord_ptCtl {n : Nat} (hn : n < 128) (e : Bool) : plainWord e (AX_PT_CTL n) = true := by
  rw [plainWord_ax hn (by norm_num) (by norm_num)]
  exact plainWord_view (by decide +kernel) e

theorem stored_ptCtl {n : Nat} (hn : n < 128) : stored (AX_PT_CTL n) = 0xFFFF000C := by
  rw [stored_ax hn (by norm_num) (by norm_num)]
  decide +kernel

theorem writable_ptCtl {n : Nat} (hn : n < 128) (e : Bool) : writable (AX_PT_CTL n) e = 0xFFFF001F := by
  rw [writable_ax hn (by norm_num) (by norm_num)]
  revert e; decide +kernel

/-- A word of START, MOVE, SPIN and CUR reaches no other bit of AX_PT_CTL. -/
theorem band_startWord {n a : Nat} (hn : n < 128) (e : Bool) (ha : a < 2 ^ 4) (cur : BitVec 16) :
    band (a + cur.toNat * 65536) (writable (AX_PT_CTL n) e) = a + cur.toNat * 65536 := by
  rw [writable_ptCtl hn]
  refine band_eq_self (by omega) fun k hk hb => ?_
  rw [show a + cur.toNat * 65536 = 2 ^ 16 * cur.toNat + a by ring, Nat.testBit_two_pow_mul_add _ (by omega)] at hb
  have hmask : ∀ k < 32, k < 4 ∨ 16 ≤ k → Nat.testBit 0xFFFF001F k = true := by decide
  refine hmask k hk ?_
  by_contra hc
  rw [if_pos (by omega), Nat.testBit_lt_two_pow (lt_of_lt_of_le ha (Nat.pow_le_pow_right (by norm_num) (by omega)))] at hb
  exact Bool.false_ne_true hb

/-- An AX_PT_CTL word that meets every check waits for the Bell edge, with the view that wrote it. -/
theorem Head.writePtCtl_waits (h : Head) (n v : Nat) (e : Bool) (hp : bit v 4 = true → h.fld (AX_PT_STAT_RESULT n) = 2)
    (hs : bit v 0 = true → (h.axis n).pt.active = false) :
    h.writePtCtl n v e = (h.shadow (AX_PT_CTL n) (v + b2n e * 2 ^ 15), 0) := by
  unfold Head.writePtCtl
  rw [if_neg (by rintro ⟨h4, hx⟩; exact hx (hp h4)), if_neg (by rintro ⟨h0, hx⟩; simp [hs h0] at hx)]

/-- An accepted request of one bit of AX_PT_CTL leaves its word waiting. -/
theorem State.writeField_ptCtl (s : State) {n : Nat} (hn : n < 128) {b : Nat} (hb : b = 1 ∨ b = 4) (hs : s.serves)
    (hp : b = 4 → s.head.fld (AX_PT_STAT_RESULT n) = 2) :
    let w := s.head.fieldWord ⟨AX_PT_CTL n, b, b⟩ 1
    s.writeField ⟨AX_PT_CTL n, b, b⟩ 1 =
      s.accepted (s.head.shadow (AX_PT_CTL n) (w + b2n s.head.engineer * 2 ^ 15)) [(AX_PT_CTL n, BitVec.ofNat 32 w)] := by
  intro w
  have hf : (⟨AX_PT_CTL n, b, b⟩ : Fld).within s.head.engineer = true := by
    rw [Fld.within_ax _ _ hn (by norm_num) (by norm_num)]
    rcases hb with rfl | rfl <;> cases s.head.engineer <;> decide +kernel
  have other (k : Nat) (hk : k < 32) (hne : b ≠ k) (hz : bits 0xFFFF000C k k = 0) : bit w k = false := by
    rw [bit_eq_bits, s.head.bits_fieldWord_other ⟨AX_PT_CTL n, b, b⟩ 1 k (Nat.le_succ b) hk (by dsimp only; omega), stored_ptCtl hn, hz]
    simp
  refine s.writeField_one _ 1 _ hs (plainWord_ptCtl hn _) hf ?_ hs.1.2
  rw [s.head.writeBlock_ptCtl s.key _ _ hn, s.head.band_fieldWord _ 1 _ hf]
  refine s.head.writePtCtl_waits n w _ (fun h4 => hp ?_) (fun h0 => ?_)
  · by_contra hne
    rw [other 4 (by norm_num) hne (by decide)] at h4
    exact absurd h4 Bool.false_ne_true
  · rw [other 0 (by norm_num) (by omega) (by decide)] at h0
    exact absurd h0 Bool.false_ne_true

theorem Fld.within_axCtl {n : Nat} (hn : n < 128) {hi lo : Nat} (e : Bool) (h0 : (⟨AX_CTL 0, hi, lo⟩ : Fld).within e = true) :
    (⟨AX_CTL n, hi, lo⟩ : Fld).within e = true := by
  rw [Fld.within_ax _ _ hn (by norm_num) (by norm_num)]
  exact h0

/-- Settles O22: every accepted request at AX_CTL and AX_PT_CTL leaves its word waiting for the Bell edge. -/
theorem axisRequestsWaitForTheBell : Obligations.AxisRequestsWaitForTheBell := by
  intro s k hs
  have hn := k.isLt
  have never {b : Bool} {p : Prop} (hb : b = false) : b = true → p := fun ht => absurd (hb.symm.trans ht) Bool.false_ne_true
  have en_within (e : Bool) : (AX_CTL_EN 0).within e = true := by cases e <;> decide +kernel
  have clr_within (e : Bool) : (AX_CTL_CLR 0).within e = true := by cases e <;> decide +kernel
  have ctrl_within (e : Bool) : (AX_CTL_CTRL 0).within e = true := by cases e <;> decide +kernel
  refine ⟨fun hl hm => ?_, fun hl hz => ?_, fun hl hen he hr hb => ?_, fun c hl hen => ?_, fun move spin cur ha => ?_, ?_, fun hr => ?_⟩
  · refine congrArg Host.Outcome.next (s.writeField_axCtl hn (AX_CTL_EN k.val) 1 hs rfl (Fld.within_axCtl hn _ (en_within _))
      (s.head.writeAxCtl_waits _ _ _ ?_ (fun _ => ⟨?_, hm⟩) (never ?_)))
    · rw [s.head.axCtlWord_ctrl hn 1 rfl (by norm_num) (by norm_num)]
      exact hl
    · exact s.head.axCtlWord_clr hn 1 rfl (by norm_num) (by norm_num)
    · exact s.head.axCtlWord_bridge hn 1 rfl (by norm_num) (by norm_num)
  · refine congrArg Host.Outcome.next (s.writeField_axCtl hn (AX_CTL_CLR k.val) 1 hs rfl (Fld.within_axCtl hn _ (clr_within _))
      (s.head.writeAxCtl_waits _ _ _ ?_ (never ?_) (never ?_)))
    · rw [s.head.axCtlWord_ctrl hn 1 rfl (by norm_num) (by norm_num)]
      exact hl
    · rw [s.head.axCtlWord_en hn 1 rfl (by norm_num) (by norm_num)]
      exact hz
    · exact s.head.axCtlWord_bridge hn 1 rfl (by norm_num) (by norm_num)
  · refine congrArg Host.Outcome.next (s.writeField_axCtl hn (AX_CTL_CLR_BRIDGE k.val) 1 hs rfl
      (Fld.within_axCtl hn _ (by rw [he]; decide +kernel)) (s.head.writeAxCtl_waits _ _ _ ?_ (fun h0 => ⟨?_, hen ?_⟩) (fun _ => ⟨he, hr, hb⟩)))
    · rw [s.head.axCtlWord_ctrl hn 1 rfl (by norm_num) (by norm_num)]
      exact hl
    · exact s.head.axCtlWord_clr hn 1 rfl (by norm_num) (by norm_num)
    · rwa [s.head.axCtlWord_en hn 1 rfl (by norm_num) (by norm_num)] at h0
  · refine congrArg Host.Outcome.next (s.writeField_axCtl hn (AX_CTL_CTRL k.val) c.val hs rfl (Fld.within_axCtl hn _ (ctrl_within _))
      (s.head.writeAxCtl_waits _ _ _ ?_ (fun h0 => ⟨?_, hen ?_⟩) (never ?_)))
    · rw [s.head.bits_fieldWord_same (AX_CTL_CTRL k.val) c.val (by norm_num),
        show (AX_CTL_CTRL k.val).hi + 1 - (AX_CTL_CTRL k.val).lo = 2 from rfl, Nat.mod_eq_of_lt (show c.val < 2 ^ 2 from c.isLt)]
      exact hl
    · exact s.head.axCtlWord_clr hn _ rfl (by norm_num) (by norm_num)
    · rwa [s.head.axCtlWord_en hn _ rfl (by norm_num) (by norm_num)] at h0
    · exact s.head.axCtlWord_bridge hn _ rfl (by norm_num) (by norm_num)
  · have hlow : 1 + b2n move * 4 + b2n spin * 8 < 2 ^ 4 := by
      have := b2n_le move
      have := b2n_le spin
      omega
    refine congrArg Host.Outcome.next (s.write_one _ _ _ hs (plainWord_ptCtl hn _) (by omega) ?_ hs.1.2)
    rw [s.head.writeBlock_ptCtl s.key _ _ hn, band_startWord hn _ hlow]
    refine s.head.writePtCtl_waits _ _ _ (never ?_) (fun _ => ha)
    simp only [bit, beq_eq_false_iff_ne]
    omega
  · exact congrArg Host.Outcome.next (s.writeField_ptCtl hn (.inl rfl) hs (by norm_num))
  · exact congrArg Host.Outcome.next (s.writeField_ptCtl hn (.inr rfl) hs (fun _ => hr))

end Sys2Proof.Machine
end

section
namespace Sys2Proof.Machine

/-! ## A write of several words, and of the halves of a pair (R7, R435) -/

/-- A write whose words pass the checks and are all accepted. -/
theorem Head.commitWrite_ok (h : Head) (key : List Nat) (e : Bool) (ws : List (Nat × Word)) (h' : Head) (ha : addrFault (ws.map (·.1)) = none)
    (hd : ∀ w ∈ ws, writeDenied e w.1 = false) (hr : h.runWrites key e ws = (h', none)) :
    ∃ late, h.commitWrite key e ws = (h'.mirrorWrites ws, 0, late, 0) := by
  have hfind : ws.zipIdx.find? (fun w => writeDenied e w.1.1) = none := by
    rw [List.find?_eq_none]
    intro x hx
    rw [hd x.1 (List.fst_mem_of_mem_zipIdx hx)]
    exact Bool.false_ne_true
  unfold Head.commitWrite
  rw [ha, hfind, hr]
  exact ⟨_, rfl⟩

/-- A write whose words are all accepted answers OK. -/
theorem State.write_ok (s : State) (ws : List (Nat × Nat)) (h' : Head) (hs : s.runs)
    (ha : addrFault (ws.map (·.1)) = none) (hd : ∀ w ∈ ws, writeDenied s.head.engineer w.1 = false)
    (hr : s.head.runWrites s.key s.head.engineer (ws.map (fun w => (w.1, BitVec.ofNat 32 w.2))) = (h', none))
    (hq : h'.boot = s.head.boot) : s.write ws = s.accepted h' (ws.map (fun w => (w.1, BitVec.ofNat 32 w.2))) := by
  have ha' : addrFault ((ws.map (fun w => (w.1, BitVec.ofNat 32 w.2))).map (·.1)) = none := by rw [List.map_map]; exact ha
  have hd' : ∀ w ∈ ws.map (fun w => (w.1, BitVec.ofNat 32 w.2)), writeDenied s.head.engineer w.1 = false := by
    intro w hw
    obtain ⟨x, hx, rfl⟩ := List.mem_map.mp hw
    exact hd x hx
  obtain ⟨late, hc⟩ := s.head.commitWrite_ok s.key s.head.engineer _ h' ha' hd' hr
  unfold State.write State.accepted
  rw [State.onHead_eq s _ hs.1]
  · simp only [Head.directWrite, hc, if_true]
  · have hm (l : List (Nat × Word)) : (h'.mirrorWrites l).boot = s.head.boot := by
      unfold Head.mirrorWrites; split_ifs <;> exact hq
    simp only [Head.directWrite, hc, if_true]
    exact (congrArg Boot.want (hm _)).trans hs.2

/-- One accepted word of a register that is not a plain word. -/
theorem State.write_word (s : State) (a : Nat) (w : Word) (h' : Head) (hs : s.runs) (hm : mapped a = true)
    (hd : writeDenied s.head.engineer a = false) (hw : s.head.writeWord s.key a w.toNat s.head.engineer = (h', 0))
    (hq : h'.boot = s.head.boot) : s.write [(a, w.toNat)] = s.accepted h' [(a, w)] := by
  have := s.write_ok [(a, w.toNat)] h' hs (by simp [addrFault_single, hm]) (by simpa using hd)
    (by simp [Head.runWrites, hw]) hq
  simpa using this

/-- Two accepted words of one region. -/
theorem State.write_two (s : State) (a b : Nat) (v w : Word) (h₁ h₂ : Head) (hs : s.runs) (hma : mapped a = true) (hmb : mapped b = true)
    (hreg : regionOf b = regionOf a) (hda : writeDenied s.head.engineer a = false) (hdb : writeDenied s.head.engineer b = false)
    (hv : s.head.writeWord s.key a v.toNat s.head.engineer = (h₁, 0)) (hw : h₁.writeWord s.key b w.toNat s.head.engineer = (h₂, 0))
    (hq : h₂.boot = s.head.boot) : s.write [(a, v.toNat), (b, w.toNat)] = s.accepted h₂ [(a, v), (b, w)] := by
  have := s.write_ok [(a, v.toNat), (b, w.toNat)] h₂ hs (by simp [addrFault, List.zipIdx, hma, hmb, hreg]) (by simp [hda, hdb])
    (by simp [Head.runWrites, List.zipIdx, hv, hw]) hq
  simpa using this

/-- The lower word of the pair at `a` is held, or held no more (R7). -/
def Head.hold (h : Head) (a : Nat) (w : Option Word) : Head := { h with holds := h.holds.set (fun _ => none) a w }

@[simp] theorem Head.hold_boot (h : Head) (a : Nat) (w : Option Word) : (h.hold a w).boot = h.boot := rfl
@[simp] theorem Head.lowerHalf_hold (h : Head) (a : Nat) (w : Word) : (h.hold a (some w)).lowerHalf a = w.toNat := by
  simp [Head.lowerHalf, Head.hold]

section Words

variable (h : Head) (key : List Nat) (a v : Nat) (e : Bool) (hb : h.blockBusy a = false)
include hb

/-- A W1C word clears the bits written 1. -/
theorem Head.writeWord_once (hc : clearable1 a ≠ 0) :
    h.writeWord key a v e = (h.wr a (bandNot (h.rd a) (band v (clearable1 a))), 0) := by
  unfold Head.writeWord
  rw [if_neg (fun hx => hc hx.2.2.2.2.1)]
  simp [hc, hb]

/-- A lower word is held. -/
theorem Head.writeWord_lower (hc : clearable1 a = 0) (hw : writable a true ≠ 0) (hl : halfOf a = .lower) :
    h.writeWord key a v e = (h.hold a (some (BitVec.ofNat 32 v)), 0) := by
  unfold Head.writeWord
  rw [if_neg (fun hx => hw hx.2.2.2.2.2)]
  simp [hc, hb, hl, Head.hold]

/-- An upper word commits the pair, and no lower word is held any more. -/
theorem Head.writeWord_upper (hc : clearable1 a = 0) (hw : writable a true ≠ 0) (hl : halfOf a = .upper) {h' : Head}
    (hp : h.writePair (a - 4) (h.lowerHalf (a - 4)) v = (h', 0)) :
    h.writeWord key a v e = (h'.hold (a - 4) none, 0) := by
  unfold Head.writeWord
  rw [if_neg (fun hx => hw hx.2.2.2.2.2)]
  simp [hc, hb, hl, hp, Head.hold]

end Words

theorem State.serves_free {s : State} (hs : s.serves) (a : Nat) : s.head.blockBusy a = false := by
  obtain ⟨_, hl, hu⟩ := hs
  simp [Head.blockBusy, hl, hu]

/-- What the Engineer view may not write, the Operator view may not. -/
theorem writeDenied_view {a : Nat} (h : writeDenied false a = false) (e : Bool) : writeDenied e a = false := by
  cases e
  · exact h
  · simp only [writeDenied, Bool.or_eq_false_iff, Bool.not_true, Bool.not_false, Bool.and_true, Bool.and_false] at h ⊢
    simp_all

/-- The two halves of a value that any view may write stand at `a` and `a + 4`. -/
def pairAt (a : Nat) : Bool :=
  mapped a && mapped (a + 4) && regionOf (a + 4) == regionOf a && !writeDenied false a && !writeDenied false (a + 4) &&
    clearable1 a == 0 && clearable1 (a + 4) == 0 && writable a true != 0 && writable (a + 4) true != 0 && halfOf a == .lower &&
    halfOf (a + 4) == .upper

/-- A pair written lower word first: the lower word is held until the upper one commits both. -/
theorem State.write_pair (s : State) {a b : Nat} (hb : b = a + 4) (lo hi : Word) (h' : Head) (hs : s.serves) (ha : pairAt a = true)
    (hp : (s.head.hold a (some lo)).writePair a lo.toNat hi.toNat = (h', 0))
    (hq : h'.boot = s.head.boot) :
    s.write [(a, lo.toNat), (b, hi.toNat)] = s.accepted (h'.hold a none) [(a, lo), (b, hi)] := by
  subst hb
  simp only [pairAt, Bool.and_eq_true, Bool.not_eq_true', beq_iff_eq, bne_iff_ne] at ha
  obtain ⟨⟨⟨⟨⟨⟨⟨⟨⟨⟨hm, hm'⟩, hreg⟩, hd⟩, hd'⟩, hc⟩, hc'⟩, hw⟩, hw'⟩, hl⟩, hu⟩ := ha
  have hlow := s.head.writeWord_lower s.key a lo.toNat s.head.engineer (State.serves_free hs a) hc hw hl
  rw [BitVec.ofNat_toNat, BitVec.setWidth_eq] at hlow
  have hup := (s.head.hold a (some lo)).writeWord_upper s.key (a + 4) hi.toNat s.head.engineer (State.serves_free hs (a + 4)) hc' hw' hu
    (h' := h') (by rw [Nat.add_sub_cancel, Head.lowerHalf_hold]; exact hp)
  rw [Nat.add_sub_cancel] at hup
  exact s.write_two a (a + 4) lo hi _ _ hs.1 hm hm' hreg (writeDenied_view hd _) (writeDenied_view hd' _) hlow hup hq

end Sys2Proof.Machine
end

section
namespace Sys2Proof.Machine

/-! ## Move requests and AX_POS_SET (R267, R270, R271, R273) -/

theorem Head.pendingRd_put_other (h : Head) (f : Fld) (v : Nat) {a : Nat} (ha : a ≠ f.addr) : (h.put f v).pendingRd a = h.pendingRd a := by
  simp only [Head.pendingRd, Head.put_shadows, h.rd_put_other v ha]

/-- The entry that a push takes does not depend on REFUSE. -/
theorem Head.stagedMove_put (h : Head) (n v : Nat) : (h.put (AX_MV_CTL_REFUSE n) v).stagedMove n = h.stagedMove n := by
  have keep (a : Nat) (ha : a ≠ AX_MV_CTL n) : (h.put (AX_MV_CTL_REFUSE n) v).pendingRd a = h.pendingRd a := h.pendingRd_put_other _ v ha
  simp only [Head.stagedMove, keep (AX_MV_MODE n) (by simp), keep (AX_MV_VEL n) (by simp), keep (AX_MV_TGT_LO n) (by simp),
    keep (AX_MV_TGT_HI n) (by simp), keep (AX_MV_ACC n) (by simp), keep (AX_MV_DEC n) (by simp)]

/-- A move request that nothing refuses waits for the Bell edge; a push takes its entry now, any other drops one that waits. -/
theorem Head.writeMvCtl_waits (h : Head) (n b : Nat) (hb : b < 5) (hp : b = 0 → h.pushRefuse n = 0) (hr : b = 3 → h.resumeRefuse n = 0)
    (hf : b = 4 → h.flushRefuse n = 0) :
    h.writeMvCtl n (2 ^ b) =
      (((h.put (AX_MV_CTL_REFUSE n) 0).setMot n (fun m => { m with pushed := if b = 0 then [h.stagedMove n] else [] })).shadow
        (AX_MV_CTL n) (2 ^ b), 0) := by
  have hp' : (if b = 0 then h.pushRefuse n else 0) = 0 := by simpa using hp
  have hr' : (if b = 3 then h.resumeRefuse n else 0) = 0 := by simpa using hr
  have hf' : (if b = 4 then h.flushRefuse n else 0) = 0 := by simpa using hf
  simp only [Head.writeMvCtl, bit_two_pow, decide_eq_true_eq, hp', hr', hf', bits_two_pow (show b ≤ 4 by omega), h.stagedMove_put, ne_eq, not_true, if_false]

theorem mvCtl_alone {n b : Nat} (hn : n < 128) (hb : b < 5) (e : Bool) : (⟨AX_MV_CTL n, b, b⟩ : Fld).alone e = true := by
  have h0 : ∀ b < 5, ∀ e, (⟨AX_MV_CTL 0, b, b⟩ : Fld).alone e = true := by decide +kernel
  rw [Fld.alone_ax _ _ hn (by norm_num) (by norm_num)]
  exact h0 b hb e

/-- An accepted move request. -/
theorem State.writeField_mvCtl (s : State) {n b : Nat} (hn : n < 128) (hb : b < 5) (hs : s.serves) (hp : b = 0 → s.head.pushRefuse n = 0)
    (hr : b = 3 → s.head.resumeRefuse n = 0) (hf : b = 4 → s.head.flushRefuse n = 0) :
    s.writeField ⟨AX_MV_CTL n, b, b⟩ 1 =
      s.accepted (((s.head.put (AX_MV_CTL_REFUSE n) 0).setMot n (fun m =>
        { m with pushed := if b = 0 then [s.head.stagedMove n] else [] })).shadow (AX_MV_CTL n) (2 ^ b))
        [(AX_MV_CTL n, BitVec.ofNat 32 (2 ^ b))] := by
  have ha := mvCtl_alone hn hb s.head.engineer
  refine s.writeField_bit _ _ _ hs ha ?_ (by simp)
  rw [s.head.writeBlock_mvCtl s.key _ _ hn, band_bit ha, s.head.writeMvCtl_waits n b hb hp hr hf]

theorem pairOf_hi (lo hi : Word) : pairOf lo.toNat hi.toNat / 2 ^ 32 = hi.toNat := by
  have := lo.isLt
  have := hi.isLt
  unfold pairOf
  omega

theorem pairAt_ax {c n : Nat} (hn : n < 128) (hl : 0x80000 ≤ c) (hu : c + 4 < 0x80400) : pairAt (c + 0x400 * n) = pairAt c := by
  have hcu : c < 0x80400 := by omega
  have hcl : 0x80000 ≤ c + 4 := by omega
  have hreg (a : Nat) (h1 : 0x80000 ≤ a) (h2 : a < 0xA0000) : regionOf a = 8 := by
    unfold regionOf
    rw [if_neg (by omega), if_neg (by omega), if_neg (by omega), if_neg (by omega), if_neg (by omega), if_neg (by omega),
      if_neg (by omega), if_pos (by omega)]
  rw [pairAt, pairAt, Nat.add_right_comm, hreg (c + 4 + 0x400 * n) (by omega) (by omega), hreg (c + 0x400 * n) (by omega) (by omega),
    hreg c hl (by omega), hreg (c + 4) hcl (by omega), mapped_ax hn hl hcu, mapped_ax hn hcl hu, writeDenied_ax hn hl hcu,
    writeDenied_ax hn hcl hu, clearable1_ax hn hl hcu, clearable1_ax hn hcl hu, writable_ax hn hl hcu, writable_ax hn hcl hu,
    halfOf_ax hn hl hcu, halfOf_ax hn hcl hu]

/-- A position that the axis may take waits for the Bell edge, captured now. -/
theorem Head.writePosSet_waits (h : Head) (n v : Nat) (h1 : h.mstate n ≠ 1) (h2 : h.mstate n ≠ 2) (hc : h.fld (AX_CTL_CTRL n) ≠ 3)
    (hx : sext 64 v = sext 48 v)
    (hl : h.rd (AX_MODULO n) = 0 → h.rdInt (AX_POS_MIN n) * 65536 ≤ sext 64 v ∧ sext 64 v ≤ h.rdInt (AX_POS_MAX n) * 65536) :
    h.writePosSet n v = ((h.setMot n (fun m => { m with posSet := some (sext 64 v) })).shadow (AX_POS_SET_HI n) (v / 2 ^ 32), 0) := by
  unfold Head.writePosSet
  rw [if_neg (by tauto), if_neg (not_not.mpr hx), if_neg (by rintro ⟨hm, hr⟩; have := hl hm; omega)]

/-- The pair of AX_POS_SET: an accepted position waits with its lower word. -/
theorem Head.writePair_axPosSet (h : Head) {n lo hi : Nat} (hn : n < 128) {h' : Head} (hw : h.writePosSet n (pairOf lo hi) = (h', 0)) :
    h.writePair (AX_POS_SET_LO n) lo hi = (h'.shadow (AX_POS_SET_LO n) lo, 0) := by
  have hi' : (AX_POS_SET_LO n - 0x80000) / 0x400 = n := by simp only [AX_POS_SET_LO]; omega
  have hl : 0x80000 ≤ AX_POS_SET_LO n := by simp only [AX_POS_SET_LO]; omega
  have hu : AX_POS_SET_LO n < 0xA0000 := by simp only [AX_POS_SET_LO]; omega
  unfold Head.writePair
  dsimp only
  rw [hi', hw, if_neg (by simp only [TIME_LT_NS]; omega), if_neg (by simp only [ACQ_TRIG_NS]; omega), if_neg (by omega),
    if_pos ⟨hl, hu, rfl⟩]
  rfl

/-- Settles O23: every accepted move request waits for the Bell edge. -/
theorem moveRequestsWaitForTheBell : Obligations.MoveRequestsWaitForTheBell := by
  intro s k hs
  have hn := k.isLt
  refine ⟨fun hp => ?_, ?_, ?_, fun hr => ?_, fun hf => ?_, fun lo hi h1 h2 hc hx hl => ?_⟩
  · exact congrArg Host.Outcome.next (s.writeField_mvCtl (b := 0) hn (by norm_num) hs (fun _ => hp) (by norm_num) (by norm_num))
  · exact congrArg Host.Outcome.next (s.writeField_mvCtl (b := 1) hn (by norm_num) hs (by norm_num) (by norm_num) (by norm_num))
  · exact congrArg Host.Outcome.next (s.writeField_mvCtl (b := 2) hn (by norm_num) hs (by norm_num) (by norm_num) (by norm_num))
  · exact congrArg Host.Outcome.next (s.writeField_mvCtl (b := 3) hn (by norm_num) hs (by norm_num) (fun _ => hr) (by norm_num))
  · exact congrArg Host.Outcome.next (s.writeField_mvCtl (b := 4) hn (by norm_num) hs (by norm_num) (by norm_num) (fun _ => hf))
  · have hw := (s.head.hold (AX_POS_SET_LO k.val) (some lo)).writePosSet_waits k.val (pairOf lo.toNat hi.toNat) h1 h2 hc hx hl
    rw [pairOf_hi] at hw
    have hp := Head.writePair_axPosSet (s.head.hold (AX_POS_SET_LO k.val) (some lo)) hn hw
    refine congrArg Host.Outcome.next (s.write_pair (by simp only [AX_POS_SET_HI]; omega) lo hi _ hs
      ((pairAt_ax hn (by norm_num) (by norm_num)).trans (by decide +kernel)) hp rfl)

end Sys2Proof.Machine
end

section
namespace Sys2Proof.Machine

/-! ## Requests of masters, encoders, clutches and cams (chapter 12) -/

theorem Head.writeBlock_vmCtl (h : Head) (key : List Nat) {k : Nat} (v : Nat) (e : Bool) (hk : k < 8) :
    h.writeBlock key (VM_CTL k) v e = h.writeVmCtl k (band v (writable (VM_CTL k) e)) := by
  have ha : VM_CTL k = 0xA0000 + 0x80 * k + 0x20 := by simp only [VM_CTL]; omega
  rw [ha, h.writeBlock_vm key k 0x20 v e hk (by norm_num)]
  simp only [Head.writeVm, show (0xA0000 + 0x80 * k + 0x20) % 0x80 = 0x20 by omega,
    show (0xA0000 + 0x80 * k + 0x20 - 0xA0000) / 0x80 = k by omega, if_true]

theorem vmCtl_alone : ∀ (k : Fin 8), ∀ b < 6, ∀ e, (⟨VM_CTL k.val, b, b⟩ : Fld).alone e = true := by decide +kernel

/-- The position that VM_SET names, as it stands or waits. -/
def Head.vmSetTo (h : Head) (v : Nat) : Int := sext 64 (pairOf (h.pendingRd (VM_SET_LO v)) (h.pendingRd (VM_SET_HI v)))

/-- A request at VM_CTL that nothing refuses waits for the Bell edge. -/
theorem Head.writeVmCtl_waits (h : Head) (v b : Nat) (hb : b < 6) (hsrc : b ≤ 3 → h.fld (VM_CFG_SRC v) = 0)
    (hpos : b = 3 → h.pendingRd (VM_STOP_POS v) < h.pendingRd (VM_MCYC v)) (hrest : b = 4 → (h.vm v).v = 0)
    (hfol : b = 4 ∨ b = 5 → h.followersOf v = 0) (hline : b = 5 → h.on (VM_STAT_LINE_OK v) = true)
    (hset : b = 4 → 0 ≤ h.vmSetTo v ∧ h.vmSetTo v < (h.pendingRd (VM_MCYC v) * 65536 : Nat)) :
    h.writeVmCtl v (2 ^ b) = ((h.put (VM_CTL_REFUSE v) 0).shadow (VM_CTL v) (2 ^ b), 0) := by
  have hlow : ∀ b < 6, bits (2 ^ b) 3 0 ≠ 0 → b ≤ 3 := by decide
  have h1 : ¬(bits (2 ^ b) 3 0 ≠ 0 ∧ h.fld (VM_CFG_SRC v) ≠ 0) := fun hc => hc.2 (hsrc (hlow b hb hc.1))
  have h2 : ¬(b = 3 ∧ h.pendingRd (VM_STOP_POS v) ≥ h.pendingRd (VM_MCYC v)) := fun hc => absurd (hpos hc.1) (by omega)
  have h3 : ¬(b = 4 ∧ (h.vm v).v ≠ 0) := fun hc => hc.2 (hrest hc.1)
  have h4 : ¬((b = 4 ∨ b = 5) ∧ h.followersOf v ≠ 0) := fun hc => hc.2 (hfol hc.1)
  have h5 : ¬(b = 5 ∧ (!h.on (VM_STAT_LINE_OK v)) = true) := fun hc => by simp [hline hc.1] at hc
  have h6 : ¬(b = 4 ∧ (h.vmSetTo v < 0 ∨ h.vmSetTo v ≥ (h.pendingRd (VM_MCYC v) * 65536 : Nat))) := fun hc => by
    have := hset hc.1
    omega
  unfold Head.vmSetTo at h6
  simp only [Head.writeVmCtl, bit_two_pow, decide_eq_true_eq, if_neg h1, if_neg h2, if_neg h3, if_neg h4, if_neg h5, if_neg h6, if_true,
    bits_two_pow (show b ≤ 5 by omega)]

/-- An accepted request at VM_CTL. -/
theorem State.writeField_vmCtl (s : State) (k : Fin 8) {b : Nat} (hb : b < 6) (hs : s.serves)
    (hw : s.head.writeVmCtl k.val (2 ^ b) = ((s.head.put (VM_CTL_REFUSE k.val) 0).shadow (VM_CTL k.val) (2 ^ b), 0)) :
    s.writeField ⟨VM_CTL k.val, b, b⟩ 1 =
      s.accepted ((s.head.put (VM_CTL_REFUSE k.val) 0).shadow (VM_CTL k.val) (2 ^ b)) [(VM_CTL k.val, BitVec.ofNat 32 (2 ^ b))] := by
  have ha := vmCtl_alone k b hb s.head.engineer
  refine s.writeField_bit _ _ _ hs ha ?_ (by simp)
  rw [s.head.writeBlock_vmCtl s.key _ _ k.isLt, band_bit ha, hw]

theorem encCtl_alone : ∀ (k : Fin 4), ∀ b < 2, ∀ e, (⟨ENC_CTL k.val, b, b⟩ : Fld).alone e = true := by decide +kernel

/-- A request at ENC_CTL waits for the Bell edge; CLR_CNT is accepted while no running VM follows the encoder. -/
theorem State.writeField_encCtl (s : State) (k : Fin 4) {b : Nat} (hb : b < 2) (hs : s.serves)
    (hf : b = 1 → s.head.encFollowed k.val = false) :
    s.writeField ⟨ENC_CTL k.val, b, b⟩ 1 =
      s.accepted (s.head.shadow (ENC_CTL k.val) (2 ^ b)) [(ENC_CTL k.val, BitVec.ofNat 32 (2 ^ b))] := by
  refine s.writeField_bit _ _ _ hs (encCtl_alone k b hb _) ?_ (by simp)
  have hk := k.isLt
  have ha : ENC_CTL k.val = 0xC0000 + (0x40 * k.val + 0x28) := by simp only [ENC_CTL]; omega
  have hbusy : (bit (2 ^ b) 1 && s.head.encFollowed k.val) = false := by
    by_cases h1 : b = 1
    · simp [hf h1]
    · simp [bit_two_pow, h1]
  have hw : ∀ b < 2, 2 ^ b % 4 = 2 ^ b := by decide
  rw [ha, s.head.writeBlock_fb s.key _ _ _ (by omega)]
  unfold Head.writeFb
  dsimp only
  rw [if_neg (by omega), show (0xC0000 + (0x40 * k.val + 0x28)) % 0x40 = 0x28 by omega,
    show (0xC0000 + (0x40 * k.val + 0x28) - 0xC0000) / 0x40 = k.val by omega]
  rw [hbusy, hw b hb]
  rfl

theorem cluCtl_alone {n b : Nat} (hn : n < 128) (hb : b < 2) (e : Bool) : (⟨AX_CLU_CTL n, b, b⟩ : Fld).alone e = true := by
  have h0 : ∀ b < 2, ∀ e, (⟨AX_CLU_CTL 0, b, b⟩ : Fld).alone e = true := by decide +kernel
  rw [Fld.alone_ax _ _ hn (by norm_num) (by norm_num)]
  exact h0 b hb e

@[simp] theorem Head.setFol_boot (h : Head) (n : Nat) (f : Follow → Follow) : (h.setFol n f).boot = h.boot := rfl

/-- An accepted request at AX_CLU_CTL. -/
theorem State.writeField_cluCtl (s : State) {n b : Nat} (hn : n < 128) (hb : b < 2) (hs : s.serves) {h' : Head}
    (hw : s.head.writeClutch n (2 ^ b) = (h', 0)) (hq : h'.boot = s.head.boot) :
    s.writeField ⟨AX_CLU_CTL n, b, b⟩ 1 = s.accepted h' [(AX_CLU_CTL n, BitVec.ofNat 32 (2 ^ b))] := by
  have ha := cluCtl_alone hn hb s.head.engineer
  refine s.writeField_bit _ _ _ hs ha ?_ hq
  rw [s.head.writeBlock_cluCtl s.key _ _ hn, band_bit ha, hw]

/-- A clutch request that nothing refuses and no stop drops waits for the Bell edge, and takes triggers from now on. -/
theorem Head.writeClutch_waits (h : Head) (n b : Nat) (hb : b < 2) (hr : h.clutchRefuse n (2 ^ b) = 0)
    (hs : b = 0 → h.stopWaits n = false) :
    h.writeClutch n (2 ^ b) = (((h.put (AX_CLU_CTL_REFUSE n) 0).shadow (AX_CLU_CTL n) (2 ^ b)).setFol n (fun f =>
      { f with reqStamp := h.now, trigger := none }), 0) := by
  have hdrop : ¬(b = 0 ∧ h.stopWaits n = true) := fun hc => by simp [hs hc.1] at hc
  have hst : (h.put (AX_CLU_CTL_REFUSE n) 0).stopWaits n = h.stopWaits n := by simp only [Head.stopWaits, Head.put_shadows]
  simp only [Head.writeClutch, hr, hst, bit_two_pow, decide_eq_true_eq, true_and, if_neg hdrop, if_true, bits_two_pow (show b ≤ 1 by omega),
    Head.put_now]

/-- ENGAGE is dropped while a stop of its axis waits for the same edge (Table 12-7). -/
theorem Head.writeClutch_dropped (h : Head) (n : Nat) (hr : h.clutchRefuse n 1 = 0) (hs : h.stopWaits n = true) :
    h.writeClutch n 1 = (h.put (AX_CLU_CTL_REFUSE n) 0, 0) := by
  have hst : (h.put (AX_CLU_CTL_REFUSE n) 0).stopWaits n = true := by simpa only [Head.stopWaits, Head.put_shadows] using hs
  simp only [Head.writeClutch, hr, hst, show bit 1 0 = true from rfl, and_self, if_true]

/-- A cam selection that the checks let through. -/
theorem Head.writeCamSel_taken (h : Head) (n seg : Nat) (wrap : Bool) (hseg : seg < 2 ^ 14) (hd : wrap = true ∨ h.fld (AX_FOL_STAT_CLU n) = 0)
    (hc : h.checkCam seg = 0) :
    h.writeCamSel n (seg + b2n wrap * 65536) =
      (let sound := h.put (AX_FOL_STAT_CAM_REFUSE n) 0
       if wrap then (sound.setFol n (fun f => { f with pendCam := some seg })).put (AX_FOL_STAT_PEND n) 1
       else sound.setFol n (fun f => { f with camAtEdge := some seg }), 0) := by
  have hs : bits (seg + b2n wrap * 65536) 13 0 = seg := by
    simp only [bits]
    omega
  have hw : bit (seg + b2n wrap * 65536) 16 = wrap := by
    have := b2n_le wrap
    cases wrap <;> simp [bit, b2n] <;> omega
  unfold Head.writeCamSel
  dsimp only
  rw [hs, hw, hc, if_neg (by rintro ⟨h1, h2⟩; rcases hd with rfl | hd <;> simp_all), if_neg (by norm_num)]
  cases wrap <;> rfl

theorem writable_camSel {n : Nat} (hn : n < 128) (e : Bool) : writable (AX_CAM_SEL n) e = 0x13FFF := by
  rw [writable_ax hn (by norm_num) (by norm_num)]
  revert e; decide +kernel

theorem plainWord_camSel {n : Nat} (hn : n < 128) (e : Bool) : plainWord e (AX_CAM_SEL n) = true := by
  rw [plainWord_ax hn (by norm_num) (by norm_num)]
  exact plainWord_view (by decide +kernel) e

/-- A segment with AT_WRAP reaches no other bit of AX_CAM_SEL. -/
theorem band_camWord {n seg : Nat} (hn : n < 128) (e wrap : Bool) (hseg : seg < 2 ^ 14) :
    band (seg + b2n wrap * 65536) (writable (AX_CAM_SEL n) e) = seg + b2n wrap * 65536 := by
  have := b2n_le wrap
  rw [writable_camSel hn]
  refine band_eq_self (by omega) fun k hk hb => ?_
  rw [show seg + b2n wrap * 65536 = 2 ^ 16 * b2n wrap + seg by ring, Nat.testBit_two_pow_mul_add _ (by omega)] at hb
  have hmask : ∀ k < 32, k < 14 ∨ k = 16 → Nat.testBit 0x13FFF k = true := by decide
  refine hmask k hk ?_
  by_contra hc
  split_ifs at hb with hk16
  · rw [Nat.testBit_lt_two_pow (lt_of_lt_of_le hseg (Nat.pow_le_pow_right (by norm_num) (by omega)))] at hb
    exact Bool.false_ne_true hb
  · rw [Nat.testBit_lt_two_pow (lt_of_lt_of_le (show b2n wrap < 2 ^ 1 by omega) (Nat.pow_le_pow_right (by norm_num) (by omega)))] at hb
    exact Bool.false_ne_true hb

end Sys2Proof.Machine
end

section
namespace Sys2Proof.Machine

/-! ## Requests of process loops (chapter 13) -/

section LoopWords

variable (h : Head) (key : List Nat) {i : Nat} (v : Nat) (e : Bool) (hi : i < 32)
include hi

theorem Head.writeBlock_plMode : h.writeBlock key (PL_MODE i) v e = h.writePlMode i (band v (writable (PL_MODE i) e)) := by
  have ha : PL_MODE i = 0xB0000 + 0x100 * i + 0 := rfl
  rw [ha, h.writeBlock_pl key i 0 v e hi (by norm_num)]
  simp only [Head.writePl, show (0xB0000 + 0x100 * i + 0) % 0x100 = 0 by omega,
    show (0xB0000 + 0x100 * i + 0 - 0xB0000) / 0x100 = i by omega, if_true]

theorem Head.writeBlock_plMan : h.writeBlock key (PL_MAN i) v e = h.writePlMan i (band v (writable (PL_MAN i) e)) := by
  have ha : PL_MAN i = 0xB0000 + 0x100 * i + 0x1C := by simp only [PL_MAN]; omega
  rw [ha, h.writeBlock_pl key i 0x1C v e hi (by norm_num)]
  simp only [Head.writePl, show (0xB0000 + 0x100 * i + 0x1C) % 0x100 = 0x1C by omega,
    show (0xB0000 + 0x100 * i + 0x1C - 0xB0000) / 0x100 = i by omega, if_true, show (0x1C = 0) = False by simp, if_false]

theorem Head.writeBlock_plCmd : h.writeBlock key (PL_CMD i) v e = h.writePlCmd i (band v (writable (PL_CMD i) e)) := by
  have ha : PL_CMD i = 0xB0000 + 0x100 * i + 0x2C := by simp only [PL_CMD]; omega
  rw [ha, h.writeBlock_pl key i 0x2C v e hi (by norm_num)]
  simp only [Head.writePl, show (0xB0000 + 0x100 * i + 0x2C) % 0x100 = 0x2C by omega,
    show (0xB0000 + 0x100 * i + 0x2C - 0xB0000) / 0x100 = i by omega, if_true, show (0x2C = 0) = False by simp,
    show (0x2C = 0x1C) = False by simp, if_false]

end LoopWords

theorem plCmd_alone : ∀ (k : Fin 32), ∀ b < 5, ∀ e, (⟨PL_CMD k.val, b, b⟩ : Fld).alone e = true := by decide +kernel
theorem plMode_alone : ∀ (k : Fin 32) e, (PL_MODE_MODE k.val).alone e = true := by decide +kernel
theorem plMan_alone : ∀ (k : Fin 32) e, (PL_MAN_MAN k.val).alone e = true := by decide +kernel

/-- A request at PL_CMD that nothing refuses waits for the Bell edge. -/
theorem Head.writePlCmd_waits (h : Head) (i b : Nat) (hb : b < 5) (hclr : b = 0 → h.plMode i = 4) (htune : b = 2 → h.tuneRefuse i = 0)
    (hfit : b = 4 → (h.loop i).fit.isSome = true) (hset : b = 4 → (h.applySet i).isSome = true) :
    h.writePlCmd i (2 ^ b) = ((h.put (PL_CMD_REFUSE i) 0).shadow (PL_CMD i) (2 ^ b), 0) := by
  have h1 : ¬(b = 0 ∧ h.plMode i ≠ 4) := fun hc => hc.2 (hclr hc.1)
  have h2 : ¬(b = 2 ∧ h.tuneRefuse i ≠ 0) := fun hc => hc.2 (htune hc.1)
  have h3 : ¬(b = 4 ∧ (h.loop i).fit.isNone = true) := fun hc => by simp [Option.isSome_iff_ne_none.mp (hfit hc.1)] at hc
  have h4 : ¬(b = 4 ∧ (h.applySet i).isNone = true) := fun hc => by simp [Option.isSome_iff_ne_none.mp (hset hc.1)] at hc
  simp only [Head.writePlCmd, bit_two_pow, decide_eq_true_eq, if_neg h1, if_neg h2, if_neg h3, if_neg h4, if_true,
    bits_two_pow (show b ≤ 4 by omega)]

/-- An accepted request at PL_CMD. -/
theorem State.writeField_plCmd (s : State) (k : Fin 32) {b : Nat} (hb : b < 5) (hs : s.serves) (hclr : b = 0 → s.head.plMode k.val = 4)
    (htune : b = 2 → s.head.tuneRefuse k.val = 0) (hfit : b = 4 → (s.head.loop k.val).fit.isSome = true)
    (hset : b = 4 → (s.head.applySet k.val).isSome = true) :
    s.writeField ⟨PL_CMD k.val, b, b⟩ 1 =
      s.accepted ((s.head.put (PL_CMD_REFUSE k.val) 0).shadow (PL_CMD k.val) (2 ^ b)) [(PL_CMD k.val, BitVec.ofNat 32 (2 ^ b))] := by
  have ha := plCmd_alone k b hb s.head.engineer
  refine s.writeField_bit _ _ _ hs ha ?_ (by simp)
  rw [s.head.writeBlock_plCmd s.key _ _ k.isLt, band_bit ha, s.head.writePlCmd_waits _ b hb hclr htune hfit hset]

/-- An accepted mode request. -/
theorem State.writeField_plMode (s : State) (k : Fin 32) {mode : Nat} (hm : mode ≤ 2) (hs : s.serves)
    (hf : s.head.plMode k.val ≠ 4 ∨ mode = 0) :
    s.writeField (PL_MODE_MODE k.val) mode =
      s.accepted (s.head.shadow (PL_MODE k.val) mode) [(PL_MODE k.val, BitVec.ofNat 32 mode)] := by
  have ha := plMode_alone k s.head.engineer
  have hv : mode < 2 ^ ((PL_MODE_MODE k.val).hi + 1 - (PL_MODE_MODE k.val).lo) := lt_of_le_of_lt hm (by norm_num)
  have hw : mode * 2 ^ (PL_MODE_MODE k.val).lo = mode := by simp
  rw [s.writeField_alone _ _ (s.head.shadow (PL_MODE k.val) mode) hs ha hv ?_ rfl, hw]
  rw [s.head.writeBlock_plMode s.key _ _ k.isLt, band_alone ha hv, hw]
  unfold Head.writePlMode
  rw [if_neg (by omega), if_neg (by tauto)]

/-- An accepted manual output. -/
theorem State.writeField_plMan (s : State) (k : Fin 32) (man : BitVec 16) (hs : s.serves) (hm : s.head.plMode k.val ≤ 1) :
    s.writeField (PL_MAN_MAN k.val) man.toNat =
      s.accepted (s.head.shadow (PL_MAN k.val) (man.toNat * 65536)) [(PL_MAN k.val, BitVec.ofNat 32 (man.toNat * 65536))] := by
  have ha := plMan_alone k s.head.engineer
  have hv : man.toNat < 2 ^ ((PL_MAN_MAN k.val).hi + 1 - (PL_MAN_MAN k.val).lo) := man.isLt
  refine s.writeField_alone _ _ (s.head.shadow (PL_MAN k.val) (man.toNat * 65536)) hs ha hv ?_ rfl
  rw [s.head.writeBlock_plMan s.key _ _ k.isLt, band_alone ha hv]
  unfold Head.writePlMan
  rw [if_neg (by omega)]
  simp

/-- Settles O24: every accepted request of a master, an encoder, a clutch, a cam or a process loop waits for the Bell edge. -/
theorem masterClutchLoopRequestsWait : Obligations.MasterClutchLoopRequestsWait := by
  refine ⟨fun s hs => ⟨fun k => ?_, fun k => ?_, fun k => ?_⟩, fun s k hs => ?_⟩
  · have vm {b : Nat} (hb : b < 6) (h1 h2 h3 h4 h5 h6) :=
      s.writeField_vmCtl k hb hs (s.head.writeVmCtl_waits k.val b hb h1 h2 h3 h4 h5 h6)
    refine ⟨fun hsrc => ⟨?_, ?_, ?_⟩, fun hsrc hpos => ?_, fun hrest hfol h0 hlt => ?_, fun hfol hline => ?_⟩
    · exact congrArg Host.Outcome.next
        (vm (b := 0) (by norm_num) (fun _ => hsrc) (by norm_num) (by norm_num) (by norm_num) (by norm_num) (by norm_num))
    · exact congrArg Host.Outcome.next
        (vm (b := 1) (by norm_num) (fun _ => hsrc) (by norm_num) (by norm_num) (by norm_num) (by norm_num) (by norm_num))
    · exact congrArg Host.Outcome.next
        (vm (b := 2) (by norm_num) (fun _ => hsrc) (by norm_num) (by norm_num) (by norm_num) (by norm_num) (by norm_num))
    · exact congrArg Host.Outcome.next
        (vm (b := 3) (by norm_num) (fun _ => hsrc) (fun _ => hpos) (by norm_num) (by norm_num) (by norm_num) (by norm_num))
    · exact congrArg Host.Outcome.next
        (vm (b := 4) (by norm_num) (by norm_num) (by norm_num) (fun _ => hrest) (fun _ => hfol) (by norm_num) (fun _ => ⟨h0, hlt⟩))
    · exact congrArg Host.Outcome.next
        (vm (b := 5) (by norm_num) (by norm_num) (by norm_num) (by norm_num) (fun _ => hfol) (fun _ => hline) (by norm_num))
  · exact ⟨congrArg Host.Outcome.next (s.writeField_encCtl k (b := 0) (by norm_num) hs (by norm_num)),
      fun hf => congrArg Host.Outcome.next (s.writeField_encCtl k (b := 1) (by norm_num) hs (fun _ => hf))⟩
  · have hn := k.isLt
    refine ⟨fun hr hst => ?_, fun hr hst => ?_, fun hr => ?_, fun seg atWrap hd hc => ?_⟩
    · exact congrArg Host.Outcome.next
        (s.writeField_cluCtl hn (b := 0) (by norm_num) hs (s.head.writeClutch_waits _ 0 (by norm_num) hr (fun _ => hst)) (by simp))
    · exact congrArg Host.Outcome.next
        (s.writeField_cluCtl hn (b := 0) (by norm_num) hs (s.head.writeClutch_dropped _ hr hst) (by simp))
    · exact congrArg Host.Outcome.next
        (s.writeField_cluCtl hn (b := 1) (by norm_num) hs (s.head.writeClutch_waits _ 1 (by norm_num) hr (by norm_num)) (by simp))
    · have hseg : seg.toNat < 2 ^ 14 := seg.isLt
      have := b2n_le atWrap
      refine congrArg Host.Outcome.next (s.write_one _ _ _ hs (plainWord_camSel hn _) (by omega) ?_ ?_)
      · rw [s.head.writeBlock_camSel s.key _ _ hn, band_camWord hn _ _ hseg, s.head.writeCamSel_taken _ _ _ hseg hd hc]
      · split_ifs <;> exact hs.1.2
  · refine ⟨fun hm => ?_, ?_, fun ht => ?_, ?_, fun hf ha => ?_, fun mode hm hf => ?_, fun man hm => ?_⟩
    · exact congrArg Host.Outcome.next
        (s.writeField_plCmd k (b := 0) (by norm_num) hs (fun _ => hm) (by norm_num) (by norm_num) (by norm_num))
    · exact congrArg Host.Outcome.next
        (s.writeField_plCmd k (b := 1) (by norm_num) hs (by norm_num) (by norm_num) (by norm_num) (by norm_num))
    · exact congrArg Host.Outcome.next
        (s.writeField_plCmd k (b := 2) (by norm_num) hs (by norm_num) (fun _ => ht) (by norm_num) (by norm_num))
    · exact congrArg Host.Outcome.next
        (s.writeField_plCmd k (b := 3) (by norm_num) hs (by norm_num) (by norm_num) (by norm_num) (by norm_num))
    · exact congrArg Host.Outcome.next
        (s.writeField_plCmd k (b := 4) (by norm_num) hs (by norm_num) (by norm_num) (fun _ => hf) (fun _ => ha))
    · exact congrArg Host.Outcome.next (s.writeField_plMode k hm hs (hf.imp_right (congrArg Fin.val)))
    · exact congrArg Host.Outcome.next (s.writeField_plMan k man hs hm)

end Sys2Proof.Machine
end

section
namespace Sys2Proof.Machine

/-! ## Times, addends and tasks (R156, R163, R171, R173, R207, R221) -/

theorem sext_toNat (w : Word) : sext 32 w.toNat = w.toInt := by
  have := w.isLt
  unfold sext
  rw [BitVec.toInt_eq_toNat_cond, Nat.mod_eq_of_lt this]
  dsimp only
  split_ifs <;> omega

theorem pairAt_trg : ∀ k : Fin 4, pairAt (TIME_TRG_NS k.val) = true := by decide +kernel
theorem pairAt_lineTime : pairAt TIME_LT_NS = true := by decide +kernel

theorem Head.writePair_trg (h : Head) (k : Fin 4) (ns sec : Nat) : h.writePair (TIME_TRG_NS k.val) ns sec = h.writeTrg k.val ns sec := by
  have hk := k.isLt
  have hi : (TIME_TRG_NS k.val - 0x30100) / 0x20 = k.val := by simp only [TIME_TRG_NS]; omega
  unfold Head.writePair
  dsimp only
  rw [hi, if_neg (by simp only [TIME_TRG_NS, TIME_LT_NS]; omega), if_neg (by simp only [TIME_TRG_NS, ACQ_TRIG_NS]; omega),
    if_pos (by simp only [TIME_TRG_NS]; omega)]

theorem Head.writeTrg_arms (h : Head) (k ns sec : Nat) (hn : bits ns 31 2 < 10 ^ 9) (hd : ns % 4 ≤ 1) :
    h.writeTrg k ns sec = (h.trgArm k ns sec, 0) := by
  unfold Head.writeTrg
  rw [if_neg (by omega)]

theorem Head.writePair_lineTime (h : Head) (ns sec : Nat) (hn : bits ns 31 2 < 10 ^ 9) (hd : ns % 4 = 1) :
    h.writePair TIME_LT_NS ns sec =
      (if h.bell.running then (h.shadow TIME_LT_NS ns).shadow TIME_LT_SEC sec else h.setLine h.now ns sec, 0) := by
  unfold Head.writePair
  dsimp only
  rw [if_pos rfl]
  unfold Head.writeLineTime
  rw [if_neg (by omega)]
  split_ifs <;> rfl

/-- The block's rule for a word of TIME. -/
theorem Head.writeBlock_timeAt (h : Head) (key : List Nat) (a v : Nat) (e : Bool) (hl : 0x30000 ≤ a) (hu : a < 0x40000) :
    h.writeBlock key a v e = h.writeTime a v e := by
  obtain ⟨off, rfl⟩ := Nat.exists_eq_add_of_le hl
  exact h.writeBlock_time key off v e (by omega)

/-- The block's rule for a word of SCHED. -/
theorem Head.writeBlock_sched (h : Head) (key : List Nat) (a v : Nat) (e : Bool) (hl : 0x40000 ≤ a) (hu : a < 0x50000) :
    h.writeBlock key a v e = h.writeSched a v := by
  unfold Head.writeBlock
  rw [if_neg (by omega), show a / 65536 = 4 by omega]
  rfl

theorem Head.writeLtAddend_taken (h : Head) (f : Word) (hf : f.toInt.natAbs ≤ 10737418) :
    h.writeLtAddend f.toNat =
      (if h.bell.running then h.shadow TIME_LT_ADDEND f.toNat
        else { h with time := { h.time with lt := h.time.lt.setF h.now f.toInt } }.wr TIME_LT_ADDEND f.toNat, 0) := by
  unfold Head.writeLtAddend fInRange
  rw [sext_toNat, if_neg (by simpa using hf)]
  split_ifs <;> rfl

theorem Head.writeMtAddend_waits (h : Head) (f : Word) (hm : h.fld TIME_MT_CTL_REF_MODE = 2) (hf : f.toInt.natAbs ≤ 10737418)
    (hr : f.toInt.natAbs * 2 ^ 32 ≤ 5 * h.rLim) : h.writeMtAddend f.toNat = (h.shadow TIME_MT_ADDEND f.toNat, 0) := by
  unfold Head.writeMtAddend fInRange
  rw [sext_toNat, if_neg (by omega), if_neg (by simp only [Bool.not_eq_true', decide_eq_false_iff_not]; omega)]

/-- F_LT acts at once while no Bell runs, and waits for the Bell edge else. -/
theorem State.write_ltAddend (s : State) (f : Word) (hf : f.toInt.natAbs ≤ 10737418) (hs : s.serves) :
    s.write [(TIME_LT_ADDEND, f.toNat)] =
      s.accepted (if s.head.bell.running then s.head.shadow TIME_LT_ADDEND f.toNat
        else { s.head with time := { s.head.time with lt := s.head.time.lt.setF s.head.now f.toInt } }.wr TIME_LT_ADDEND f.toNat)
        [(TIME_LT_ADDEND, f)] := by
  have hp : plainWord false TIME_LT_ADDEND = true := by decide +kernel
  have hw := s.write_one TIME_LT_ADDEND f.toNat _ hs (plainWord_view hp _) f.isLt
    ((s.head.writeBlock_timeAt s.key _ _ _ (by norm_num) (by norm_num)).trans (s.head.writeLtAddend_taken f hf))
    (by split_ifs <;> simpa using hs.1.2)
  rwa [BitVec.ofNat_toNat, BitVec.setWidth_eq] at hw

/-- F_MT waits for the Bell edge. -/
theorem State.write_mtAddend (s : State) (f : Word) (hm : s.head.fld TIME_MT_CTL_REF_MODE = 2) (hf : f.toInt.natAbs ≤ 10737418)
    (hr : f.toInt.natAbs * 2 ^ 32 ≤ 5 * s.head.rLim) (hs : s.serves) :
    s.write [(TIME_MT_ADDEND, f.toNat)] = s.accepted (s.head.shadow TIME_MT_ADDEND f.toNat) [(TIME_MT_ADDEND, f)] := by
  have hp : plainWord false TIME_MT_ADDEND = true := by decide +kernel
  have hw := s.write_one TIME_MT_ADDEND f.toNat _ hs (plainWord_view hp _) f.isLt
    ((s.head.writeBlock_timeAt s.key _ _ _ (by norm_num) (by norm_num)).trans (s.head.writeMtAddend_waits f hm hf hr)) hs.1.2
  rwa [BitVec.ofNat_toNat, BitVec.setWidth_eq] at hw

/-! ### Tasks -/

/-- A task that runs already is left alone by an enable. -/
theorem Head.enableCheck_enabled (h : Head) (t : Nat) (ht : t < 960) (hr : h.recipeTasks.contains t = true) (he : h.taskEnabled t = true) :
    h.enableCheck t = 0 := by
  unfold Head.enableCheck
  rw [if_neg (by simp only [hr]; simp; omega), if_pos he]

/-- A disabled task may be enabled while neither its node nor its axis forbids it (R221). -/
theorem Head.enableCheck_free (h : Head) (t : Nat) (ht : t < 960) (hr : h.recipeTasks.contains t = true) (he : h.taskEnabled t = false)
    (hn : ∀ n, h.taskNode t = some n → h.fld (NODE_STAT_STATE n) ∉ [2, 3, 4, 5])
    (ha : h.taskAxis t < 128 → h.enabled (h.taskAxis t) = false) : h.enableCheck t = 0 := by
  have hnode : (h.taskNode t).any (fun s => [2, 3, 4, 5].contains (h.fld (NODE_STAT_STATE s))) = false := by
    cases ht : h.taskNode t with
    | none => rfl
    | some n => simpa using hn n ht
  have haxis : (h.axesOfTask t).any (fun n => h.enabled n) = false := by
    unfold Head.axesOfTask
    split_ifs with hlt
    · simpa using ha hlt
    · rfl
  unfold Head.enableCheck
  rw [if_neg (by simp only [hr]; simp; omega), if_neg (by simp [he]), if_neg (by rw [hnode]; exact Bool.false_ne_true),
    if_neg (by rw [haxis]; exact Bool.false_ne_true)]

/-- A request to enable a task waits for the Bell edge. -/
theorem State.write_schedEnSet (s : State) (t : Nat) (ht : t < 960) (hs : s.serves) (hc : s.head.enableCheck t = 0) :
    s.write [(SCHED_EN_SET, t)] = s.accepted (s.head.shadow SCHED_EN_SET t) [(SCHED_EN_SET, BitVec.ofNat 32 t)] := by
  have hp : plainWord false SCHED_EN_SET = true := by decide +kernel
  refine s.write_one _ _ _ hs (plainWord_view hp _) (by omega) ?_ hs.1.2
  rw [s.head.writeBlock_sched s.key _ _ _ (by norm_num) (by norm_num)]
  unfold Head.writeSched
  dsimp only
  rw [if_pos rfl, Nat.mod_eq_of_lt (show t < 1024 by omega), hc]
  rfl

theorem Head.enqueue_boot (h : Head) (t : Nat) : (h.enqueue t).boot = h.boot := by
  unfold Head.enqueue Head.showQueues Head.setLevel
  dsimp only
  split_ifs <;> simp

theorem Head.tryReady_boot (h : Head) (t : Nat) : (h.tryReady t).boot = h.boot := by
  unfold Head.tryReady Head.setTaskState
  dsimp only
  split_ifs <;> simp [Head.enqueue_boot]

theorem Head.setFlag_boot (h : Head) (t k : Nat) : (h.setFlag t k).boot = h.boot := by
  unfold Head.setFlag
  split_ifs <;> simp [Head.tryReady_boot]

/-- Flags set one after another leave loading alone. -/
theorem Head.setFlags_boot (h : Head) (t : Nat) (ks : List Nat) : (ks.foldl (fun h k => h.setFlag t (8 + k)) h).boot = h.boot := by
  induction ks generalizing h with
  | nil => rfl
  | cons k ks ih => exact (ih _).trans (h.setFlag_boot t (8 + k))

/-- SOFT flags act in the tick of their commit. -/
theorem State.write_schedFlagSet (s : State) (t : Nat) (soft : Byte) (ht : t < 960) (hs : s.serves) :
    s.write [(SCHED_FLAG_SET, soft.toNat * 65536 + t)] =
      s.accepted ((bitsSet 8 soft.toNat).foldl (fun h k => h.setFlag t (8 + k)) s.head)
        [(SCHED_FLAG_SET, BitVec.ofNat 32 (soft.toNat * 65536 + t))] := by
  have hp : plainWord false SCHED_FLAG_SET = true := by decide +kernel
  have hsoft := soft.isLt
  have hb : bits (soft.toNat * 65536 + t) 23 16 = soft.toNat := by simp only [bits]; omega
  refine s.write_one _ _ _ hs (plainWord_view hp _) (by omega) ?_ (by rw [Head.setFlags_boot]; exact hs.1.2)
  rw [s.head.writeBlock_sched s.key _ _ _ (by norm_num) (by norm_num)]
  unfold Head.writeSched
  dsimp only
  rw [if_neg (by norm_num), if_pos rfl, show (soft.toNat * 65536 + t) % 1024 = t by omega, hb]
  unfold Head.softRequest
  rw [if_neg (by omega)]

/-- Settles O28: triggers and SOFT flags act at their commit, scales and task enables at the Bell edge where one runs. -/
theorem timeAndSchedulerWritesRun : Obligations.TimeAndSchedulerWritesRun := by
  refine ⟨fun s hs => ⟨fun k ns sec hn hd => ?_, fun ns sec hn hd => ?_, fun f hf => ?_, fun f hm hf hr => ?_⟩,
    fun s t hs ht => ⟨fun hr he hnode haxis => ?_, fun hr he => ?_, fun soft => ?_⟩⟩
  · have hp := ((s.head.hold (TIME_TRG_NS k.val) (some ns)).writePair_trg k ns.toNat sec.toNat).trans
      (Head.writeTrg_arms _ k.val ns.toNat sec.toNat hn hd)
    exact congrArg Host.Outcome.next
      (s.write_pair (by simp only [TIME_TRG_SEC, TIME_TRG_NS]; omega) ns sec _ hs (pairAt_trg k) hp rfl)
  · have hp := (s.head.hold TIME_LT_NS (some ns)).writePair_lineTime ns.toNat sec.toNat hn hd
    refine congrArg Host.Outcome.next ((s.write_pair rfl ns sec _ hs pairAt_lineTime hp ?_).trans ?_)
    · split_ifs <;> rfl
    · congr 1
      show Head.hold (ite (s.head.bell.running = true) _ _) _ _ = _
      split_ifs <;> rfl
  · exact congrArg Host.Outcome.next (s.write_ltAddend f hf hs)
  · exact congrArg Host.Outcome.next (s.write_mtAddend f hm hf hr hs)
  · exact congrArg Host.Outcome.next (s.write_schedEnSet t.val ht hs (s.head.enableCheck_free t.val ht hr he hnode haxis))
  · exact congrArg Host.Outcome.next (s.write_schedEnSet t.val ht hs (s.head.enableCheck_enabled t.val ht hr he))
  · exact congrArg Host.Outcome.next (s.write_schedFlagSet t.val soft ht hs)

end Sys2Proof.Machine
end

section
namespace Sys2Proof.Machine

/-! ## W1C words, halves of pairs and axis parameters (R3, R6, R7, R439) -/

theorem mem_rowsOf_of_regRow? {a : Nat} {r : RegRow} (hr : regRow? a = some r) : r ∈ rowsOf (a / 65536) := List.mem_of_find?_eq_some hr

/-- A page entry of half a value has no bit that a write or a read clears. -/
def RegRow.halfStays (r : RegRow) : Bool :=
  r.half == .one || (r.mask (fun f => f.acc == .w1c) == 0 && r.mask (fun f => f.acc == .rc) == 0)

theorem rowsOf_halfStays (b : Nat) : ∀ r ∈ rowsOf b, r.halfStays = true := by
  unfold rowsOf
  split <;> decide +kernel

theorem RegRow.half_masks {a : Nat} {r : RegRow} (hr : regRow? a = some r) (hh : r.half ≠ .one) :
    r.mask (fun f => f.acc == .w1c) = 0 ∧ r.mask (fun f => f.acc == .rc) = 0 := by
  have h := rowsOf_halfStays _ r (mem_rowsOf_of_regRow? hr)
  simpa [RegRow.halfStays, hh] using h

theorem clearable1_of_half {a : Nat} (hh : halfOf a ≠ .one) : clearable1 a = 0 := by
  unfold halfOf at hh
  unfold clearable1
  cases hr : regRow? a with
  | none => rfl
  | some r =>
    rw [hr] at hh
    exact (RegRow.half_masks hr hh).1

theorem plainWord_of {a : Nat} {e : Bool} (hm : mapped a = true) (hd : writeDenied e a = false) (hc : clearable1 a = 0)
    (hw : writable a true ≠ 0) (hh : halfOf a = .one) : plainWord e a = true := by
  simp [plainWord, addrFault_single, hm, hd, hc, hw, hh]

/-- A register of an axis shows what it holds, AX_STAT apart. -/
theorem Head.peek_ax (h : Head) {a : Nat} (hl : 0x80000 ≤ a) (hu : a < 0xA0000) (h4 : a % 0x400 ≠ 4) : h.peek a = h.rd a := by
  have hle : (List.range 16).find? (fun e => a == LE_STAT e || a == LE_BUSY e) = none := by
    rw [List.find?_eq_none]
    intro e he
    have := List.mem_range.mp he
    simp only [LE_STAT, LE_BUSY, Bool.or_eq_true, beq_iff_eq]
    omega
  unfold Head.peek
  rw [if_neg (by omega), if_neg (by omega), if_neg (by omega), if_neg (by omega), if_neg (by omega), if_neg (by omega), if_neg (by omega),
    if_neg (by simp only [HOST_STAT]; omega), if_neg (by simp only [HOST_EVT]; omega), if_neg (by simp only [HOST_ENG_CTL]; omega),
    if_neg (by simp only [HOST_ENG_STAT]; omega), if_neg (by simp only [TIME_MT_NS]; omega), if_neg (by simp only [TIME_MT_SEC]; omega),
    if_neg (by simp only [TIME_LT_NS]; omega), if_neg (by simp only [TIME_LT_SEC]; omega), if_neg (by simp only [TIME_FR_NS]; omega),
    if_neg (by simp only [TIME_FR_SEC]; omega), if_neg (by omega), hle]

/-- The lower half of a move target: the word held, or the one in force. -/
theorem Head.lowerHalf_mvTgt (h : Head) {n : Nat} (hn : n < 128) :
    h.lowerHalf (AX_MV_TGT_LO n) =
      ((h.holds.get (fun _ => none) (AX_MV_TGT_LO n)).map BitVec.toNat).getD (h.rd (AX_MV_TGT_LO n)) := by
  have hp : h.peek (AX_MV_TGT_LO n) = h.rd (AX_MV_TGT_LO n) := h.peek_ax (by simp only [AX_MV_TGT_LO]; omega) (by simp only [AX_MV_TGT_LO]; omega) (by simp only [AX_MV_TGT_LO]; omega)
  unfold Head.lowerHalf
  cases h.holds.get (fun _ => none) (AX_MV_TGT_LO n) with
  | none => exact hp
  | some w => rfl

/-- A move target commits as a pair of shadows. -/
theorem Head.writePair_mvTgt (h : Head) {n : Nat} (lo hi : Nat) (hn : n < 128) :
    h.writePair (AX_MV_TGT_LO n) lo hi = ((h.shadow (AX_MV_TGT_LO n) lo).shadow (AX_MV_TGT_HI n) hi, 0) := by
  unfold Head.writePair
  dsimp only
  rw [if_neg (by simp only [AX_MV_TGT_LO, TIME_LT_NS]; omega), if_neg (by simp only [AX_MV_TGT_LO, ACQ_TRIG_NS]; omega),
    if_neg (by simp only [AX_MV_TGT_LO]; omega), if_neg (by simp only [AX_MV_TGT_LO, AX_POS_SET_LO]; omega),
    if_neg (by simp only [AX_MV_TGT_LO, VM_SET_LO]; omega),
    show AX_MV_TGT_LO n + 4 = AX_MV_TGT_HI n by simp only [AX_MV_TGT_LO, AX_MV_TGT_HI]; omega]

/-- A parameter of an axis waits in its shadow. -/
theorem Head.writeBlock_axParameter (h : Head) (key : List Nat) {n off : Nat} (v : Nat) (e : Bool) (hn : n < 128) (ho : off < 0x400)
    (h4 : off % 4 = 0) (hs : off ∉ [0, 0x20, 0x24, 0x28, 0x2C, 0x30, 0xE0, 0x198, 0x20C, 0x210]) (hb : h.axBusy n off = false)
    (hr : h.axRange n off (band v (writable (0x80000 + off + 0x400 * n) e)) = true) :
    h.writeBlock key (0x80000 + off + 0x400 * n) v e =
      (h.shadow (0x80000 + off + 0x400 * n) (h.merge (0x80000 + off + 0x400 * n) v e), 0) := by
  rw [writable_ax hn (by omega) (by omega)] at hr
  simp only [List.mem_cons, List.not_mem_nil, or_false, not_or] at hs
  rw [h.writeBlock_axAt key v e hn ho]
  dsimp only
  rw [if_neg (by omega), if_neg (by omega), if_neg (by omega), if_neg (by omega), if_neg (by omega), if_neg (by omega), hb, hr]
  rfl

/-- Settles O30: W1C words clear, halves of pairs wait for each other, axis parameters wait for the Bell edge. -/
theorem wordsAndPairsAreWritten : Obligations.WordsAndPairsAreWritten := by
  intro s a w hs
  have hfree := State.serves_free hs
  refine fun hm hd => ⟨fun hc => ?_, fun hl hw => ?_, fun k ha => ?_, fun k off ha ho hh hc hw hoff hbusy hrange => ?_⟩
  · exact congrArg Host.Outcome.next
      (s.write_word a w _ hs.1 hm hd (s.head.writeWord_once s.key a w.toNat s.head.engineer (hfree a) hc) (by simp))
  · have hword := s.head.writeWord_lower s.key a w.toNat s.head.engineer (hfree a) (clearable1_of_half (by simp [hl])) hw hl
    rw [BitVec.ofNat_toNat, BitVec.setWidth_eq] at hword
    exact congrArg Host.Outcome.next (s.write_word a w _ hs.1 hm hd hword rfl)
  · have hn := k.isLt
    have hpair : pairAt (AX_MV_TGT_LO k.val) = true := (pairAt_ax hn (by norm_num) (by norm_num)).trans (by decide +kernel)
    have hlo : a = AX_MV_TGT_LO k.val + 4 := by simp only [ha, AX_MV_TGT_HI, AX_MV_TGT_LO]; omega
    simp only [pairAt, ← hlo, Bool.and_eq_true, beq_iff_eq, bne_iff_ne] at hpair
    obtain ⟨⟨⟨⟨⟨-, hc⟩, -⟩, hw⟩, -⟩, hu⟩ := hpair
    have hword := s.head.writeWord_upper s.key a w.toNat s.head.engineer (hfree a) hc hw hu
      (by rw [hlo, Nat.add_sub_cancel]; exact s.head.writePair_mvTgt _ _ hn)
    rw [s.head.lowerHalf_mvTgt hn, ← ha, show a - 4 = AX_MV_TGT_LO k.val by omega] at hword
    exact congrArg Host.Outcome.next (s.write_word a w _ hs.1 hm hd hword (by simp))
  · have h4 : off % 4 = 0 := by
      simp only [mapped, Bool.and_eq_true, beq_iff_eq] at hm
      omega
    obtain rfl : a = 0x80000 + off + 0x400 * k.val := by omega
    have hword := s.write_one _ w.toNat _ hs (plainWord_of hm hd hc hw hh) w.isLt
      (s.head.writeBlock_axParameter s.key _ _ k.isLt ho h4 hoff hbusy hrange) hs.1.2
    rw [BitVec.ofNat_toNat, BitVec.setWidth_eq] at hword
    exact congrArg Host.Outcome.next hword

end Sys2Proof.Machine
end

section
namespace Sys2Proof.Machine

/-! ## Writes that a check refuses (R5, R435, R436, R446) -/

/-- A refused write of the one word of a command counts, tells its status and changes nothing else. -/
theorem State.write_refused (s : State) (a : Nat) (w : Word) {st i : Nat} (hs : s.runs) (hst : st ≠ 0)
    (hc : s.head.commitWrite s.key s.head.engineer [(a, w)] = (s.head, st, false, i)) :
    s.write [(a, w.toNat)] = s.setHead ((s.head.bump HOST_CNT_REFUSED).setHost (fun p => { p with last := st })) := by
  have hd : s.head.directWrite s.key [(a, w)] = (s.head.bump HOST_CNT_REFUSED).setHost (fun p => { p with last := st }) := by
    simp only [Head.directWrite, hc, if_neg hst]
  unfold State.write
  simp only [List.map_cons, List.map_nil, BitVec.ofNat_toNat, BitVec.setWidth_eq]
  rw [State.onHead_eq s _ hs.1, hd]
  exact (congrArg Boot.want ((congrArg Head.boot hd).trans (s.head.bump_boot HOST_CNT_REFUSED))).trans hs.2

/-- A word outside the map fails check 2. -/
theorem Head.commitWrite_unmapped (h : Head) (key : List Nat) (e : Bool) {a : Nat} (w : Word) (hm : mapped a = false) :
    h.commitWrite key e [(a, w)] = (h, 3, false, 0) := by
  simp [Head.commitWrite, addrFault_single, hm]

/-- A word that the view denies fails check 3. -/
theorem Head.commitWrite_denied (h : Head) (key : List Nat) (e : Bool) {a : Nat} (w : Word) (hm : mapped a = true)
    (hd : writeDenied e a = true) : h.commitWrite key e [(a, w)] = (h, 4, false, 0) := by
  simp [Head.commitWrite, addrFault_single, hm, List.zipIdx, hd]

/-- A word that its block refuses without a trace leaves the head as it was. -/
theorem Head.commitWrite_turnedAway (h : Head) (key : List Nat) (e : Bool) {a st : Nat} (w : Word) (hm : mapped a = true)
    (hd : writeDenied e a = false) (hst : st ≠ 0) (hw : h.writeWord key a w.toNat e = (h, st)) :
    h.commitWrite key e [(a, w)] = (h, st, false, 0) := by
  simp [Head.commitWrite, Head.runWrites, addrFault_single, hm, List.zipIdx, hd, hw, hst, firstFault]

theorem Head.writeLineTime_status (h : Head) (ns sec : Nat) : (h.writeLineTime ns sec).2 ≠ 5 := by
  unfold Head.writeLineTime; split_ifs <;> simp

theorem Head.writeAcqTime_status (h : Head) (ns sec : Nat) : (h.writeAcqTime ns sec).2 ≠ 5 := by
  unfold Head.writeAcqTime; split_ifs <;> simp

theorem Head.writeTrg_status (h : Head) (k ns sec : Nat) : (h.writeTrg k ns sec).2 ≠ 5 := by
  unfold Head.writeTrg; split_ifs <;> simp

theorem Head.writePosSet_status (h : Head) (n v : Nat) : (h.writePosSet n v).2 ≠ 5 := by
  unfold Head.writePosSet; dsimp only; split_ifs <;> simp

/-- No pair of words answers STATE: it is taken, busy or out of range. -/
theorem Head.writePair_status (h : Head) (a lo hi : Nat) : (h.writePair a lo hi).2 ≠ 5 := by
  unfold Head.writePair
  dsimp only
  split_ifs
  · exact h.writeLineTime_status lo hi
  · exact h.writeAcqTime_status lo hi
  · exact h.writeTrg_status _ lo hi
  · simp
  · exact h.writePosSet_status _ _
  all_goals simp

/-- A busy block turns a W1C word and the halves of a pair away. -/
theorem Head.writeWord_busy (h : Head) (key : List Nat) {a : Nat} (v : Nat) (e : Bool) (hm : mapped a = true) (hb : h.blockBusy a = true)
    (hw : writable a true ≠ 0 ∨ clearable1 a ≠ 0) (hh : halfOf a ≠ .one ∨ clearable1 a ≠ 0) : h.writeWord key a v e = (h, 6) := by
  have hrc : ¬ a / 4 = NODE_RC_CTL / 4 := by
    intro hx
    have h4 := (Bool.and_eq_true_iff.mp hm).1
    obtain rfl : a = NODE_RC_CTL := by
      simp only [NODE_RC_CTL, beq_iff_eq] at hx h4 ⊢
      omega
    exact hh.elim (fun h => h (by decide +kernel)) (fun h => h (by decide +kernel))
  unfold Head.writeWord
  rw [if_neg (fun hx => hw.elim (· hx.2.2.2.2.2) (· hx.2.2.2.2.1))]
  simp only [hb, hrc, if_true, false_and, if_false]
  refine if_neg ?_
  by_cases hc : clearable1 a = 0
  · rw [if_neg (fun hx => hx hc)]
    cases hf : halfOf a with
    | one => exact absurd hf (hh.resolve_right (fun hx => hx hc))
    | lower => simp
    | upper =>
      have := h.writePair_status (a - 4) (h.lowerHalf (a - 4)) v
      dsimp only
      split_ifs
      · simp
      · exact this
  · simp [hc]

/-- Settles O31: each check turns the word away before anything of the head changes. -/
theorem refusedWritesChangeNothing : Obligations.RefusedWritesChangeNothing := by
  intro s a w hs
  refine ⟨fun hm => ?_, fun hm hd => ?_, fun hm hd hb hw hh => ?_⟩
  · exact congrArg Host.Outcome.next (s.write_refused a w hs (by norm_num) (s.head.commitWrite_unmapped _ _ w hm))
  · exact congrArg Host.Outcome.next (s.write_refused a w hs (by norm_num) (s.head.commitWrite_denied _ _ w hm hd))
  · exact congrArg Host.Outcome.next (s.write_refused a w hs (by norm_num)
      (s.head.commitWrite_turnedAway _ _ w hm hd (by norm_num) (s.head.writeWord_busy _ _ _ hm hb hw hh)))

end Sys2Proof.Machine
end

section
namespace Sys2Proof.Machine

/-! ## A read of CAP_CNT (R98, R306) -/

/-- A running head with one capture in the FIFO of input 0. -/
def oneCapture : State :=
  { State.reset with inReset := false, head := State.reset.head.setCap 0 (fun c => { c with fifo := [(1, 0, 7)], held := none }) }

theorem oneCapture_runs : oneCapture.runs := ⟨rfl, rfl⟩

theorem capFifo_oneCapture : (oneCapture.head.cap 0).fifo = [(1, 0, 7)] := by decide +kernel

/-- COUNTER_READ_CLEAR of CAP_CNT takes the entry out of the FIFO, as every read of CAP_CNT does. -/
theorem read_capCnt_oneCapture : ((oneCapture.read [CAP_CNT 0]).head.cap 0).fifo = [] := by
  decide +kernel

/-- Refutes O32: CAP_CNT is a counter too, so the clause of COUNTER_READ_CLEAR covers it; there the read also takes the oldest entry out
of the capture FIFO, which that clause leaves alone. -/
theorem not_wordsAndPairsAreRead : ¬ Obligations.WordsAndPairsAreRead := by
  intro h
  obtain ⟨hmap, -⟩ := h oneCapture oneCapture_runs
  obtain ⟨-, -, -, -, hrc⟩ := hmap (CAP_CNT 0) (by decide +kernel) (by decide +kernel) (by decide +kernel)
  obtain ⟨r, hr, hh, hm⟩ : ∃ r, regRow? (CAP_CNT 0) = some r ∧ r.half = .one ∧ r.mask (fun f => f.acc == .rc) ≠ 0 := by
    have hrow : (regRow? (CAP_CNT 0)).any (fun r => r.half == .one && r.mask (fun f => f.acc == .rc) != 0) = true := by decide +kernel
    obtain ⟨r, hr, hx⟩ := (Option.any_eq_true _ _).mp hrow
    exact ⟨r, hr, by simpa using hx⟩
  obtain ⟨hword, -⟩ := hrc r hr hh hm
  have hread := (hword (by decide)).2 (by decide +kernel)
  have hstate := Host.Outcome.next.inj hread
  have hfifo : ((oneCapture.read [CAP_CNT 0]).head.cap 0).fifo = (oneCapture.head.cap 0).fifo := by
    rw [hstate]
    rfl
  rw [read_capCnt_oneCapture, capFifo_oneCapture] at hfifo
  exact List.cons_ne_nil _ _ hfifo.symm

end Sys2Proof.Machine
end

section
namespace Sys2Proof.Machine

/-! ## The first parts of a Bell edge (R16, R18, R157) -/

section OpenBell

variable (h : Head)

@[simp] theorem Head.timeEvent_bell (k : Nat) : (h.timeEvent k).bell = h.bell := by simp [Head.timeEvent]

/-- The step of Machine Time moves the next Bell instant and leaves the edge where it fell. -/
@[simp] theorem Head.applyStep_bell_edge (t : Nat) : (h.applyStep t).bell.edge = h.bell.edge := by
  unfold Head.applyStep
  cases h.time.steer.stepPending with
  | none => rfl
  | some d => simp [Head.setSteer]

/-- What closing the load account of a Bell leaves as it was: the Bell, the tick, the Bell number. -/
structure Head.SameBell (g h : Head) : Prop where
  bell : g.bell = h.bell
  now : g.now = h.now
  bellNo : g.bellNo = h.bellNo

theorem Head.parkSpend_sameBell {e : Nat} (he : e < 16) : (h.parkSpend e).SameBell h := by
  have hne : TIME_BELL_CNT ≠ LE_BUSY e := by simp only [TIME_BELL_CNT, LE_BUSY]; omega
  unfold Head.parkSpend
  split_ifs
  · exact ⟨rfl, rfl, h.rd_wr_other _ hne⟩
  · exact ⟨rfl, rfl, rfl⟩

theorem Head.put_sameBell (f : Fld) (v : Nat) (hf : TIME_BELL_CNT ≠ f.addr) : (h.put f v).SameBell h :=
  ⟨rfl, rfl, h.rd_put_other v hf⟩

theorem Head.SameBell.trans {f g h : Head} (hf : f.SameBell g) (hg : g.SameBell h) : f.SameBell h :=
  ⟨hf.bell.trans hg.bell, hf.now.trans hg.now, hf.bellNo.trans hg.bellNo⟩

theorem Head.foldl_parkSpend_sameBell (es : List Nat) (hes : ∀ e ∈ es, e < 16) :
    (es.foldl (fun (h : Head) e => h.parkSpend e) h).SameBell h := by
  induction es generalizing h with
  | nil => exact ⟨rfl, rfl, rfl⟩
  | cons e es ih =>
    exact (ih (h.parkSpend e) (fun x hx => hes x (List.mem_cons_of_mem _ hx))).trans
      (h.parkSpend_sameBell (hes e List.mem_cons_self))

theorem Head.closeLoad_sameBell (first : Bool) : (h.closeLoad first).SameBell h := by
  have hpark := h.foldl_parkSpend_sameBell (List.range 16) (fun e he => List.mem_range.mp he)
  unfold Head.closeLoad
  generalize (List.range 16).foldl (fun (h : Head) e => h.parkSpend e) h = g at hpark ⊢
  refine (Head.put_sameBell _ _ _ (by decide)).trans ((Head.put_sameBell _ _ _ (by decide)).trans ((Head.put_sameBell _ _ _ (by decide)).trans ?_))
  exact ⟨hpark.bell, hpark.now, hpark.bellNo⟩

/-- The instant of the Bell that opens: the one armed, or one Bell after the last. -/
theorem Head.openBell_instant : h.openBell.bell.instant =
    if h.bell.first then h.bell.instant else h.bell.instant + 5 * (if h.bell.rollcall then 25000 else h.bellTicks) := by
  simp only [Head.openBell, apply_ite Head.bell, Head.wr_bell, ite_self]

/-- The edge falls in the tick that the Bell opens in. -/
theorem Head.openBell_edge : h.openBell.bell.edge = h.openBell.now := by
  simp only [Head.openBell, apply_ite Head.bell, apply_ite Head.now, Head.wr_bell, Head.wr_now, ite_self]

theorem Head.now_le_openBell : h.now ≤ h.openBell.now := by
  simp only [Head.openBell, apply_ite Head.now, Head.wr_now, ite_self]
  exact Nat.le_max_left _ _

/-- Every Bell but the first has the number after the last. -/
theorem Head.openBell_bellNo : h.openBell.bellNo = if h.bell.first then h.bellNo else (h.bellNo + 1) % 2 ^ 32 := by
  have hwr (g : Head) (n : Nat) : (g.wr TIME_BELL_CNT (n % 2 ^ 32)).bellNo = n % 2 ^ 32 := (g.rd_wr_same _ _).trans (Nat.mod_mod n _)
  simp only [Head.openBell, apply_ite Head.bellNo, hwr]
  rfl

end OpenBell

/-- The waiting shadows commit in the order they were written. -/
theorem Head.edgeShadows_eq (h : Head) (t : Nat) :
    h.edgeShadows t = h.shadows.foldl (fun (h : Head) w => h.edgeWord t w.1 w.2.toNat) { h with shadows := [] } := rfl

/-- A command for the head acts on the head that stands. -/
theorem State.onHead_const (s : State) (f : Head → Head) : s.onHead f = s.onHead (fun _ => f s.head) := rfl

theorem exec_bellEdge (s : State) (phase : Fin 11) : exec (.bellEdge phase) s = .next (s.onHead (fun h => h.bellEdge phase.val)) := rfl

/-- The step and F act in the tick of the edge. -/
theorem Head.applyF_applyStep (h : Head) :
    (h.applyStep h.bell.edge).applyF h.bell.edge = (h.applyStep h.bell.edge).applyF (h.applyStep h.bell.edge).bell.edge := by
  rw [Head.applyStep_bell_edge]

/-- Settles O44: the edge is its parts in order, and the Bell opens one Bell after the last. -/
theorem bellEdgeRunsInOrder : Obligations.BellEdgeRunsInOrder := by
  intro s phase _ hrun opened timed stepped heard toggled mirrored first stationed mastered grouped still last
  have hsame := s.head.openBell.closeLoad_sameBell s.head.bell.first
  have hfirst : s.head.edgeFirst = first := by
    unfold Head.edgeFirst
    dsimp only
    rw [Head.applyF_applyStep]
  have hedge : s.head.bellEdge phase.val = last.healthBell.mirrorSample := by
    unfold Head.bellEdge
    rw [hrun, hfirst]
    rfl
  refine ⟨?_, ?_, ?_, ?_, ?_, mirrored.edgeShadows_eq _⟩
  · rw [exec_bellEdge, State.onHead_const, hedge]
  · exact (congrArg Bell.instant hsame.bell).trans s.head.openBell_instant
  · exact (congrArg Bell.edge hsame.bell).trans (s.head.openBell_edge.trans hsame.now.symm)
  · exact s.head.now_le_openBell.trans hsame.now.symm.le
  · exact hsame.bellNo.trans s.head.openBell_bellNo

end Sys2Proof.Machine
end

section
namespace Sys2Proof.Machine

/-! ## What a command leaves of the queue and of the island (R12, R16, R35) -/

/-- A command that reaches beyond the head answers a next state with the queue as it was. -/
theorem exec_wide_pending {c : Instr} (s : State) (hc : wideCommand c = true) : ∃ t, exec c s = .next t ∧ t.pending = s.pending := by
  cases c
  case logRecordWrite b => exact ⟨_, rfl, s.logRecordWrite_pending b⟩
  case testPortInstruction o b n => exact ⟨_, rfl, s.testPort_pending o b n⟩
  case flashOperationDone g => exact ⟨_, rfl, s.flashDone_pending g⟩
  case watchdogToggle a => exact ⟨_, rfl, s.watchdogToggle_pending a⟩
  case paramTransfer b => exact ⟨_, rfl, s.paramTransfer_pending b⟩
  case evaluationCycle x => exact ⟨_, rfl, s.evaluationCycle_pending x⟩
  case islandRecord b => exact ⟨_, rfl, s.islandRecord_pending b⟩
  case earlyOff n => exact ⟨_, rfl, s.earlyOff_pending n.val⟩
  case islandWdChange t => exact ⟨_, rfl, s.islandWdChange_pending t⟩
  case vddSafeLoss => exact ⟨_, rfl, s.vddSafeLoss_pending⟩
  case porstAssert n => exact ⟨_, rfl, s.dropOut_pending n 2⟩
  case mainRailLoss n => exact ⟨_, rfl, s.dropOut_pending n 1⟩
  case resetSequence m r v o => exact ⟨_, rfl, s.sequence_pending m.val r v o⟩
  all_goals exact absurd hc Bool.false_ne_true

/-- Of the commands that reach beyond the head, those that are none of the island's own leave the island as it was. -/
theorem exec_wide_island {c : Instr} (s : State) (hc : wideCommand c = true) (hi : islandCommand c = false) :
    ∃ t, exec c s = .next t ∧ t.island = s.island := by
  cases c
  case logRecordWrite b => exact ⟨_, rfl, s.logRecordWrite_island b⟩
  case testPortInstruction o b n => exact ⟨_, rfl, s.testPort_island o b n⟩
  case flashOperationDone g => exact ⟨_, rfl, s.flashDone_island g⟩
  case watchdogToggle a => exact ⟨_, rfl, s.watchdogToggle_island a⟩
  case earlyOff n => exact ⟨_, rfl, s.earlyOff_island n.val⟩
  case islandWdChange t => exact ⟨_, rfl, s.islandWdChange_island t⟩
  case porstAssert n => exact ⟨_, rfl, s.dropOut_island n 2⟩
  case mainRailLoss n => exact ⟨_, rfl, s.dropOut_island n 1⟩
  case resetSequence m r v o => exact ⟨_, rfl, s.sequence_island m.val r v o⟩
  case paramTransfer | evaluationCycle | islandRecord | vddSafeLoss => exact absurd hi.symm Bool.false_ne_true
  all_goals exact absurd hc Bool.false_ne_true

/-- Settles O3: a command for the head leaves the island alone, and of the commands that reach further only the island's own touch it. -/
theorem islandSeparation : Obligations.IslandSeparation := by
  intro c s t hi ht
  rcases exec_cases c s with ⟨r, f, hf⟩ | ⟨hown, -⟩ | hwide
  · rw [next_inj (hf.symm.trans ht), State.onHeadThen_island]
  · exact absurd (hi.symm.trans hown) Bool.false_ne_true
  · obtain ⟨u, hu, hisland⟩ := exec_wide_island s hwide hi
    rw [next_inj (hu.symm.trans ht), hisland]

/-- No command stops the machine, and none touches the queue behind it. -/
theorem exec_pending (c : Instr) (s : State) : ∃ t, exec c s = .next t ∧ t.pending = s.pending := by
  rcases exec_cases c s with ⟨r, f, hf⟩ | ⟨-, f, hf⟩ | hwide
  · exact ⟨_, hf, s.onHeadThen_pending r f⟩
  · exact ⟨_, hf, s.onIsland_pending f⟩
  · exact exec_wide_pending s hwide

theorem step_cons (c : Instr) (rest : List Instr) (s : State) :
    step { s with pending := c :: rest } = exec c { s with pending := rest } := rfl

theorem step_empty (s : State) (h : s.pending = []) : step s = .next s.idle := by
  simp only [step, h]

/-- Settles O1: a step runs the front command on the rest of the queue, and every command answers a next state with that queue. -/
theorem stepRunsTheFront : Obligations.StepRunsTheFront :=
  ⟨step_cons, step_empty, exec_pending⟩

end Sys2Proof.Machine
end

section
namespace Sys2Proof.Machine

/-! ## The machine right after power-on (R12, R35, R54, R55) -/

/-- No register has been written yet: each reads as its reset value in the tables. -/
theorem Head.rd_initial (a : Nat) : Head.initial.rd a = (regReset a).toNat := rfl

theorem Head.fld_initial (f : Fld) : Head.initial.fld f = bits (regReset f.addr).toNat f.hi f.lo := rfl

theorem Head.engine_initial (e : Fin 16) : Head.initial.engine e.val = .initial := by
  rw [Head.engine_eq]
  exact Vector.getElem_replicate _

theorem Head.ticket_initial (t : Nat) : Head.initial.ticket t = .initial t := rfl

/-- Every lane starts in OFF without a signal. -/
theorem reset_lanes (n : Fin 10) : Head.initial.on (LANE_STAT_LOS n.val) = true ∧ Head.initial.laneState n.val = 0 := by
  revert n
  simp only [Head.on, Head.laneState, Head.fld_initial]
  decide +kernel

theorem reset_encStill (k : Fin 4) : Head.initial.rd (ENC_STILL k.val) = 2000000 := by
  revert k
  simp only [Head.rd_initial]
  decide +kernel

/-- The registers that the start-up and the safety chapters name by their reset value. -/
theorem reset_registers : Head.initial.fld SYS_ID_PART = 0x1280 ∧ Head.initial.fld SYS_ID_REV = 0xA1 ∧ Head.initial.sysState = 0 ∧
    Head.initial.fld SAFE_STATUS_PARAM = 1 ∧ Head.initial.fld SAFE_REQ_REQ = 0xAA ∧ Head.initial.on SAFE_CORE_ISLAND_LOSS = true := by
  simp only [Head.on, Head.sysState, Head.fld_initial]
  decide +kernel

theorem reset_posKvff : Head.initial.rd (AX_POS_KVFF 127) = 0x1000000 := by
  rw [Head.rd_initial]
  decide +kernel

theorem reset_stores : Store.initial.wf = true := by decide

theorem islandOff_quiet : Island.off.quiet = true := by decide

/-- Settles O2: the parts are those of an unpowered island, new stores and an initial head, whose registers read as the tables' reset values. -/
theorem resetState : Obligations.ResetState := by
  obtain ⟨hpart, hrev, hsys, hparam, hreq, hloss⟩ := reset_registers
  exact ⟨rfl, rfl, rfl, rfl, rfl, reset_stores, rfl, rfl, rfl, islandOff_quiet, rfl, rfl, rfl, rfl,
    fun e => congrArg Engine.mode (Head.engine_initial e), fun t => congrArg Ticket.state (Head.ticket_initial t.val),
    hpart, hrev, hsys, hparam, hreq, hloss, reset_lanes, reset_encStill, reset_posKvff⟩

end Sys2Proof.Machine
end

section
namespace Sys2Proof.Machine

/-! ## Operations of the head that leave loading, and what the head asks for beyond itself, alone -/

variable (h : Head)

@[simp] theorem Head.forward_boot (t : Nat) : (h.forward t).boot = h.boot := by
  unfold Head.forward
  split_ifs <;> rfl

/-- Steps that leave loading alone do so one after another. -/
theorem Head.foldl_boot {α : Type} (f : Head → α → Head) (hf : ∀ g a, (f g a).boot = g.boot) (l : List α) : (l.foldl f h).boot = h.boot := by
  induction l generalizing h with
  | nil => rfl
  | cons a l ih => exact (ih (f h a)).trans (hf h a)

@[simp] theorem Head.setSlot_boot (k : Nat) (f : SlotTx → SlotTx) : (h.setSlot k f).boot = h.boot := rfl
@[simp] theorem Head.setLoop_boot (i : Nat) (f : Loop → Loop) : (h.setLoop i f).boot = h.boot := rfl

@[simp] theorem Head.sendAs_boot (lane : Nat) (b : Bool) (f : Frame) : (h.sendAs lane b f).boot = h.boot := by
  unfold Head.sendAs
  split_ifs <;> rfl

@[simp] theorem Head.sendField_boot (lane s kind slot epoch : Nat) (retry limp : Bool) (ws : List Word) :
    (h.sendField lane s kind slot epoch retry limp ws).boot = h.boot := h.sendAs_boot _ _ _

@[simp] theorem Head.diverge_boot : h.diverge.boot = h.boot := by
  simp [Head.diverge, Head.redEvent]

@[simp] theorem Head.axisFault_boot (n k : Nat) : (h.axisFault n k).boot = h.boot := by
  unfold Head.axisFault
  split_ifs <;> simp

@[simp] theorem Head.motionShow_boot (n : Nat) : (h.motionShow n).boot = h.boot := by
  simp [Head.motionShow, Head.wrInt, Head.wrSigned]

@[simp] theorem Head.loseRef_boot (n : Nat) : (h.loseRef n).boot = h.boot := by
  unfold Head.loseRef
  split_ifs <;> rfl

@[simp] theorem Head.gatesOffStop_boot (n : Nat) : (h.gatesOffStop n).boot = h.boot := by
  simp [Head.gatesOffStop, Head.declutch]

@[simp] theorem Head.faultAxis_boot (n k : Nat) : (h.faultAxis n k).boot = h.boot := by
  unfold Head.faultAxis
  split_ifs <;> simp

@[simp] theorem Head.loopFault_boot (i k : Nat) : (h.loopFault i k).boot = h.boot := by
  unfold Head.loopFault
  split
  · rfl
  · split
    · exact h.diverge_boot
    · extract_lets faulted told ended
      have htold : told.boot = h.boot := (faulted.raise_boot _ _ _).trans (h.put_boot _ _)
      clear_value told
      have hended : ended.boot = told.boot := by
        unfold ended
        split
        · rw [Head.setLoop_boot, Head.raise_boot, Head.put_boot, Head.put_boot]
        · rfl
      rw [Head.setLoop_boot, Head.put_boot, hended, htold]

@[simp] theorem Head.disableTask_boot (t : Nat) : (h.disableTask t).boot = h.boot := by
  unfold Head.disableTask Head.showQueues Head.setLevel Head.setTaskState
  dsimp only
  split_ifs <;> simp

@[simp] theorem Head.privFlag_boot (k : Nat) : (h.privFlag k).boot = h.boot := h.foldl_boot _ (fun g t => g.setFlag_boot t k) _

@[simp] theorem Head.unitEvent_boot (kind idx : Nat) : (h.unitEvent kind idx).boot = h.boot :=
  h.foldl_boot _ (fun g _ => g.setFlag_boot _ _) _

@[simp] theorem Head.taskGatesOff_boot (t : Nat) : (h.taskGatesOff t).boot = h.boot := by
  unfold Head.taskGatesOff
  split
  next x _ => exact h.foldl_boot _ (fun g y => g.setSlot_boot _ _) (h.cmdSlotsOf x.station)
  next => rfl

@[simp] theorem Head.loopsFault_boot (s k : Nat) : (h.loopsFault s k).boot = h.boot := h.foldl_boot _ (fun g i => g.loopFault_boot i k) _

/-- A head whose task's station takes fault LAW, sends gates-off and tells the privileged tasks. -/
theorem Head.lawFaulted_boot {g x : Head} {t flag : Nat}
    (hx : ((match g.taskStation t with | some s => g.loopsFault s 6 | none => g).taskGatesOff t).privFlag flag = x) : x.boot = g.boot := by
  rw [← hx, Head.privFlag_boot, Head.taskGatesOff_boot]
  cases g.taskStation t with
  | none => rfl
  | some s => exact g.loopsFault_boot s 6

@[simp] theorem Head.failTask_boot (t k code : Nat) : (h.failTask t k code).boot = h.boot := by
  generalize hx : h.failTask t k code = x
  rw [Head.failTask] at hx
  by_cases hsub : h.substitute = true
  · rw [← hx, if_pos hsub, Head.diverge_boot]
  · rw [if_neg hsub] at hx
    dsimp only at hx
    rw [Head.lawFaulted_boot hx, Head.foldl_boot _ _ (fun g n => g.faultAxis_boot n k), Head.put_boot, Head.disableTask_boot]

@[simp] theorem Head.holdSamples_boot (t : Nat) : (h.holdSamples t).boot = h.boot :=
  h.foldl_boot _ (fun g i => by split_ifs <;> simp) _

@[simp] theorem Head.overrun_boot (t : Nat) : (h.overrun t).boot = h.boot := by
  unfold Head.overrun
  dsimp only
  split_ifs <;> simp

@[simp] theorem Head.release_boot (e : Nat) : (h.release e).boot = h.boot := by
  unfold Head.release Head.parkSpend
  dsimp only
  split
  · split_ifs <;> simp
  · simp
  · rfl

@[simp] theorem Head.noteRelease_boot (t : Nat) (closing : Bool) : (h.noteRelease t closing).boot = h.boot := rfl

@[simp] theorem Head.releaseTask_boot (t : Nat) (valid closing : Bool) : (h.releaseTask t valid closing).boot = h.boot := by
  unfold Head.releaseTask
  dsimp only
  generalize hg : h.setTask t _ = g
  have hboot : g.boot = h.boot := by rw [← hg, Head.setTask_boot]
  by_cases hoff : g.taskState t = 0
  · rw [if_pos hoff, ← hboot]
    split
    · simp only [apply_ite Head.boot, Head.release_boot, ite_self]
    · rfl
  · rw [if_neg hoff, Head.setFlag_boot, ← hboot]
    split <;> simp only [apply_ite Head.boot, Head.noteRelease_boot, Head.setTask_boot, Head.release_boot, ite_self]

@[simp] theorem Head.releaseStation_boot (s : Nat) (valid closing : Bool) : (h.releaseStation s valid closing).boot = h.boot :=
  h.foldl_boot _ (fun g t => g.releaseTask_boot t valid closing) _

@[simp] theorem Head.processDue_boot (s : Nat) (valid : Bool) : (h.processDue s valid).boot = h.boot := by
  unfold Head.processDue
  rw [apply_ite Head.boot, Head.foldl_boot, ite_self]
  intro g i
  simp only [Head.setLoop_boot, apply_ite Head.boot, Head.bump_boot, ite_self]

@[simp] theorem Head.reportMissing_boot (s : Nat) : (h.reportMissing s).boot = h.boot := by
  unfold Head.reportMissing
  dsimp only
  split
  · rfl
  · split
    · simp only [Head.releaseStation_boot, apply_ite Head.boot, Head.raise_boot, Head.setNode_boot, ite_self]
    · simp only [Head.processDue_boot, Head.releaseStation_boot, Head.setNode_boot]
    · rw [Head.releaseStation_boot, Head.foldl_boot, Head.setNode_boot]
      intro g n
      rw [apply_ite Head.boot, Head.faultAxis_boot, Head.setMot_boot, ite_self]

/-- A command for the head that leaves loading alone asks for nothing beyond the head. -/
theorem State.onHead_next {s : State} (hs : s.runs) {f : Head → Head} {h : Head} (hf : f s.head = h) (hb : h.boot = s.head.boot) :
    (.next (s.onHead f) : Host.Outcome State Fault Refusal) = .next (s.setHead h) := by
  rw [s.onHead_eq f hs.1 (by rw [hf, hb]; exact hs.2), hf]

end Sys2Proof.Machine
end

section
namespace Sys2Proof.Machine

/-! ## PPS and the trigger pins (R15, R169 to R171) -/

theorem Scale.passes_iff (s : Scale) (u t : Nat) : s.passes u t = true ↔ 1 ≤ t ∧ s.at (t - 1) / u < s.at t / u := by
  simp [Scale.passes]

/-- The next whole second from a tick on. -/
theorem Scale.nextSecond_eq (s : Scale) (t : Nat) : s.nextSecond t =
    if 1 ≤ t ∧ s.at (t - 1) / (10 ^ 9 * 2 ^ 32) < s.at t / (10 ^ 9 * 2 ^ 32) then t
    else s.tickOf (ceilDiv (s.at t) (10 ^ 9 * 2 ^ 32) * (10 ^ 9 * 2 ^ 32)) := by
  simp only [Scale.nextSecond, Scale.nextWhole, Scale.passes_iff]

variable (h : Head)

/-! The clock brought forward changes the tick alone. -/

theorem Head.forward_eq (t : Nat) : h.forward t = { h with now := max h.now t } := by
  unfold Head.forward
  split_ifs with ht
  · rw [Nat.max_eq_right ht.le]
  · rw [Nat.max_eq_left (Nat.le_of_not_lt ht)]

@[simp] theorem Head.forward_time (t : Nat) : (h.forward t).time = h.time := by rw [Head.forward_eq]
@[simp] theorem Head.forward_regs (t : Nat) : (h.forward t).regs = h.regs := by rw [Head.forward_eq]

theorem Head.rd_congr {g h : Head} (hr : g.regs = h.regs) (a : Nat) : g.rd a = h.rd a := by simp only [Head.rd, hr]

@[simp] theorem Head.rd_forward (t a : Nat) : (h.forward t).rd a = h.rd a := Head.rd_congr (h.forward_regs t) a
@[simp] theorem Head.fld_forward (t : Nat) (f : Fld) : (h.forward t).fld f = h.fld f := by simp only [Head.fld, Head.rd_forward]

/-- The tick at which PPS_OUT rises: the next whole second that is not the one it rose at last. -/
def Head.ppsDue (h : Head) : Nat :=
  if h.ppsScale.nextSecond h.now = h.time.ppsLast then h.ppsScale.nextSecond (h.ppsScale.nextSecond h.now + 1)
  else h.ppsScale.nextSecond h.now

theorem Head.ppsRise_eq (hen : h.on TIME_PPS_CTL_OUT_EN = true) (hlow : h.time.ppsHigh = none) (hr : h.boot.recipe.isSome = true) :
    h.ppsRise = { h.forward h.ppsDue with time := { h.time with
      ppsHigh := some ((h.forward h.ppsDue).now + h.fld TIME_PPS_CTL_WIDTH_MS * 200000), ppsLast := (h.forward h.ppsDue).now } } := by
  have hgo : ¬ ((!h.on TIME_PPS_CTL_OUT_EN) = true ∨ h.time.ppsHigh.isSome = true ∨ h.boot.recipe.isNone = true) := by
    simp [hen, hlow, Option.isSome_iff_ne_none.mp hr]
  unfold Head.ppsRise
  rw [if_neg hgo]
  simp only [Head.forward_time, Head.fld_forward, Head.ppsDue]

theorem Head.ppsFall_eq {t : Nat} (ht : h.time.ppsHigh = some t) :
    h.ppsFall = { h with now := max h.now t, time := { h.time with ppsHigh := none } } := by
  unfold Head.ppsFall
  rw [ht]
  simp only [Head.forward_eq]

theorem Head.fld_wrPair_other {f : Fld} {a : Nat} (v : Nat) (h1 : f.addr ≠ a) (h2 : f.addr ≠ a + 4) : (h.wrPair a v).fld f = h.fld f := by
  rw [Head.fld, h.wrPair_other v h1 h2, ← Head.fld]

/-- A rising edge on PPS_IN: its stamps in both scales, the count, the event. -/
theorem Head.ppsIn_eq (t : Nat) : h.ppsIn t =
    ((((h.forward (t + 2)).wrPair TIME_PPS_MT_NS (stampOf (h.time.mt.ns t) 0)).wrPair TIME_PPS_LT_NS (stampOf (h.time.lt.ns t) 1)).wr
      TIME_PPS_CNT ((h.rd TIME_PPS_CNT + 1) % 2 ^ 32)).put TIME_EVT_PPS_IN 1 := by
  unfold Head.ppsIn
  simp only [Head.wrPair_time, Head.forward_time]
  rw [Head.wrPair_other _ _ (by decide) (by decide), Head.wrPair_other _ _ (by decide) (by decide), Head.rd_forward]

/-- The stamp of a trigger leaves its width alone. -/
theorem Head.trgWidth_stamped (k v : Nat) : (h.wrPair (TIME_TRG_STAMP_NS k) v).fld (TIME_TRG_CTL_WIDTH k) = h.fld (TIME_TRG_CTL_WIDTH k) :=
  h.fld_wrPair_other v (by simp only [TIME_TRG_CTL, TIME_TRG_STAMP_NS]; omega) (by simp only [TIME_TRG_CTL, TIME_TRG_STAMP_NS]; omega)

/-- An armed trigger of MODE 1 fires once, when its scale reaches its time by its run. -/
theorem Head.trgFire_once {k : Nat} (ha : (h.trg k).armed = true) (hl : (h.trg k).late = false) (hm : h.fld (TIME_TRG_CTL_MODE k) = 1)
    (hr : h.boot.recipe.isSome = true) {scale : Scale} (hs : h.domainScale (h.trg k).domain = scale) {fired : Nat}
    (hf : scale.tickOf ((h.trg k).time * 2 ^ 32) = fired) (hj : scale.jumped ((h.trg k).time * 2 ^ 32) = false) :
    h.trgFire k = (((h.forward fired).wrPair (TIME_TRG_STAMP_NS k) (stampOf (scale.ns fired) (h.trg k).domain)).setTrg k (fun x => { x with
      armed := false, late := false, pulseEnd := some (fired + max 1 (h.fld (TIME_TRG_CTL_WIDTH k))) })).unitEvent 3 k := by
  have hgo : ¬ ((!(h.trg k).armed) = true ∨ (h.fld (TIME_TRG_CTL_MODE k) ≠ 1 ∧ h.fld (TIME_TRG_CTL_MODE k) ≠ 2) ∨
      h.boot.recipe.isNone = true) := by
    simp [ha, hm, Option.isSome_iff_ne_none.mp hr]
  have hmode : ¬ (1 : Nat) = 2 := by decide
  unfold Head.trgFire
  rw [if_neg hgo]
  generalize (h.trg k).time * 2 ^ 32 = x at hf hj ⊢
  simp only [hs, hf, hj, hl, hm, Bool.false_eq_true, or_self, if_false, hmode, Head.trgWidth_stamped, Head.fld_forward, Nat.reduceBEq]

theorem Head.trgPulseEnd_eq {k t : Nat} (ht : (h.trg k).pulseEnd = some t) :
    h.trgPulseEnd k = (h.forward t).setTrg k (fun x => { x with pulseEnd := none }) := by
  unfold Head.trgPulseEnd
  rw [ht]

/-- The EDGE field selects an edge: 0 the rising ones, 1 the falling ones, 2 both. -/
theorem trgEdge_selected {edge : Nat} {rising : Bool} (he : edge = 2 ∨ edge = (if rising then 0 else 1)) :
    edge = 2 ∨ (edge = 0 ∧ rising) ∨ (edge = 1 ∧ !rising) := by
  cases rising
  · simpa using he
  · simpa using he

theorem Head.trg_forward (t k : Nat) : (h.forward t).trg k = h.trg k := by rw [Head.trg, Head.forward_time, ← Head.trg]

/-- A selected edge on a trigger pin of MODE 0 is stamped. -/
theorem Head.trgEdge_stamps {k : Nat} {rising : Bool} (t : Nat) (hm : h.fld (TIME_TRG_CTL_MODE k) = 0)
    (he : h.fld (TIME_TRG_CTL_EDGE k) = 2 ∨ h.fld (TIME_TRG_CTL_EDGE k) = (if rising then 0 else 1)) :
    let due := h.forward (t + 2)
    let warned := if (h.trg k).unread then due.put TIME_EVT_TRG_OVR (setBit (h.fld TIME_EVT_TRG_OVR) k) else due
    h.trgEdge k rising t = ((warned.wrPair (TIME_TRG_STAMP_NS k) (stampOf (h.time.mt.ns t) 0)).setTrg k (fun x =>
      { x with unread := true })).unitEvent 3 k := by
  intro due warned
  have hgo : ¬ (h.fld (TIME_TRG_CTL_MODE k) ≠ 0 ∨ (!(h.fld (TIME_TRG_CTL_EDGE k) = 2 ∨ (h.fld (TIME_TRG_CTL_EDGE k) = 0 ∧ rising) ∨
      (h.fld (TIME_TRG_CTL_EDGE k) = 1 ∧ !rising) : Bool)) = true) := by
    rintro (hmode | hedge)
    · exact hmode hm
    · rw [Bool.not_eq_true', decide_eq_false_iff_not] at hedge
      exact hedge (trgEdge_selected he)
  have htime : warned.time = h.time := by
    simp only [warned, due, apply_ite Head.time, Head.put_time, Head.forward_time, ite_self]
  unfold Head.trgEdge
  simp only [Head.fld_forward, Head.trg_forward]
  rw [if_neg hgo]
  change ((warned.wrPair _ (stampOf (warned.time.mt.ns t) 0)).setTrg k _).unitEvent 3 k = _
  rw [htime]

@[simp] theorem Head.setTrg_boot (k : Nat) (f : Trigger → Trigger) : (h.setTrg k f).boot = h.boot := rfl

theorem Head.stampTrg_boot (a v k : Nat) (f : Trigger → Trigger) : (((h.wrPair a v).setTrg k f).unitEvent 3 k).boot = h.boot := by
  rw [Head.unitEvent_boot, Head.setTrg_boot, Head.wrPair_boot]

/-- Settles O48: each pin event is one equation of the head, and none of them asks for anything beyond the head. -/
theorem pulsesAndTriggersRun : Obligations.PulsesAndTriggersRun := by
  intro s hs h gives
  refine ⟨fun hen hlow hr => ?_, fun t ht => ?_, fun t => ?_, fun k ha hl hm hr => ?_, fun k t ht => ?_, fun k rising t hm he => ?_⟩
  · intro scale sec next due up
    have hnext (t : Nat) : next t = h.ppsScale.nextSecond t := (h.ppsScale.nextSecond_eq t).symm
    have hup : up = h.forward h.ppsDue := by simp only [up, due, hnext, Head.ppsDue]
    clear_value up
    exact State.onHead_next hs ((h.ppsRise_eq hen hlow hr).trans (by rw [hup])) (by rw [hup]; exact h.forward_boot _)
  · exact State.onHead_next hs (h.ppsFall_eq ht) rfl
  · exact State.onHead_next hs (h.ppsIn_eq t) (by simp [h])
  · intro t scale hj due fired stamped
    exact State.onHead_next hs (h.trgFire_once ha hl hm hr rfl rfl hj) ((due.stampTrg_boot _ _ _ _).trans (h.forward_boot _))
  · exact State.onHead_next hs (h.trgPulseEnd_eq ht) (by simp [h])
  · intro due warned
    have hwarned : warned.boot = h.boot := by
      simp only [warned, due, apply_ite Head.boot, Head.put_boot, Head.forward_boot, ite_self]
    exact State.onHead_next hs (h.trgEdge_stamps t hm he) ((warned.stampTrg_boot _ _ _ _).trans hwarned)

end Sys2Proof.Machine
end

section
namespace Sys2Proof.Machine

/-! ## Departures, deadlines, windows (R20, R21, R147, R219, R220, R258) -/

section Forward

/-! What the clock brought forward leaves of what a departure reads. -/

variable (h : Head) (t : Nat)

@[simp] theorem Head.forward_bell : (h.forward t).bell = h.bell := by rw [Head.forward_eq]
@[simp] theorem Head.forward_net : (h.forward t).net = h.net := by rw [Head.forward_eq]

theorem Head.instantTick_forward (off : Nat) : (h.forward t).instantTick off = h.instantTick off := by
  simp only [Head.instantTick, Head.forward_time, Head.forward_bell]

theorem Head.content?_forward : (h.forward t).content? = h.content? := by simp only [Head.content?, Head.forward_boot]

theorem Head.cmdSlot?_forward (k : Nat) : (h.forward t).cmdSlot? k = h.cmdSlot? k := by
  simp only [Head.cmdSlot?, Head.content?_forward]

theorem Head.node_forward (n : Nat) : (h.forward t).node n = h.node n := by simp only [Head.node, Head.forward_net]

theorem Head.dualMode_forward (n : Nat) : (h.forward t).dualMode n = h.dualMode n := by
  simp only [Head.dualMode, Head.recWord, Head.station?, Head.node_forward, Head.content?_forward]

theorem Head.slotInForce_forward (n lane : Nat) (limp : Bool) : (h.forward t).slotInForce n lane limp = h.slotInForce n lane limp := by
  simp only [Head.slotInForce, Head.node_forward, Head.dualMode_forward]

theorem Head.ownEpoch_forward : (h.forward t).ownEpoch = h.ownEpoch := h.fld_forward t _

end Forward

variable (h : Head)

/-- A task is judged by the departure of its own command slot. -/
theorem Head.taskPaired_own {t k : Nat} {x : CmdSlot} (hx : h.cmdSlot? k = some x) (ht : h.taskCmd t = some k) : h.taskPaired t k = true := by
  simp [Head.taskPaired, ht, hx]

/-- The head after slot `slot` has left lane `lane` at tick `due` under the epoch and the limp bit given. -/
def Head.leaves (h : Head) (x : CmdSlot) (lane slot due epoch : Nat) (limp : Bool) : Head :=
  (h.setSlot (lane * 256 + slot) (fun y => { y with
    committed := decide (due ≤ y.commitAt) && y.committed, history := ((h.bellNo, h.slotPayload x due) :: y.history).take 8 })).sendField
    lane x.station x.kind slot epoch false limp (h.slotPayload x due)

@[simp] theorem Head.leaves_boot (x : CmdSlot) (lane slot due epoch : Nat) (limp : Bool) :
    (h.leaves x lane slot due epoch limp).boot = h.boot := by
  simp [Head.leaves]

/-- What a departure at tick `due` notes of the task that its slot serves (R219, R220). -/
def Head.noteDeparture (h : Head) (x : CmdSlot) (t k due : Nat) : Head :=
  if h.isOverrun t due x.express then h.overrun t else if ((h.slot k).sends due).2 then h.put (SCHED_TSTAT_CONSEC t) 0 else h

/-- A slot in force leaves at its instant; its task's overrun or commit is noted first. -/
theorem Head.departure_leaves {lane slot t due : Nat} {x : CmdSlot} (hx : h.cmdSlot? (lane * 256 + slot) = some x)
    (hrun : h.bell.running = true) (hcyc : h.bell.rollcall = false)
    (hdue : h.instantTick (if x.express then x.dueFirst else x.instant) = due) {g : Head}
    (hg : (h.forward (h.instantTick x.instant)).forward due = g) (hin : g.slotInForce x.station lane x.limp = true)
    (ht : g.slotTask x = some t) (hk : g.taskCmd t = some (lane * 256 + slot))
    (hsub : (g.noteDeparture x t (lane * 256 + slot) due).substitute = false) :
    h.departure lane slot =
      (g.noteDeparture x t (lane * 256 + slot) due).leaves x lane slot due g.ownEpoch ((g.node x.station).limp != 0) := by
  have hpaired : g.taskPaired t (lane * 256 + slot) = true := by
    refine g.taskPaired_own (x := x) ?_ hk
    rw [← hg, Head.cmdSlot?_forward, Head.cmdSlot?_forward, hx]
  have hin' : (h.forward (h.instantTick x.instant)).slotInForce x.station lane x.limp = true := by
    rwa [← hg, Head.slotInForce_forward] at hin
  have hepoch : (h.forward (h.instantTick x.instant)).ownEpoch = g.ownEpoch := by rw [← hg, Head.ownEpoch_forward _ due]
  have hnode : (h.forward (h.instantTick x.instant)).node x.station = g.node x.station := by rw [← hg, Head.node_forward _ due]
  unfold Head.departure
  simp only [hx, hrun, hcyc, hin', Head.instantTick_forward, hdue, hg, hepoch, hnode, ht, hpaired, Bool.and_true, Bool.not_true,
    Bool.false_eq_true, or_self, if_false]
  change (if (Head.setSlot (g.noteDeparture x t (lane * 256 + slot) due) _ _).substitute = true then _ else _) = _
  rw [show (Head.setSlot (g.noteDeparture x t (lane * 256 + slot) due) _ _).substitute = _ from hsub]
  rfl

/-- A task's CONSEC lies beside ROLE in no register. -/
theorem Head.substitute_putConsec (t v : Nat) : (h.put (SCHED_TSTAT_CONSEC t) v).substitute = h.substitute := by
  have hrole : (h.put (SCHED_TSTAT_CONSEC t) v).fld RED_STAT_ROLE = h.fld RED_STAT_ROLE := by
    by_cases ha : RED_STAT = SCHED_TSTAT t
    · exact h.fld_put_apart v ha (by norm_num) (by norm_num) (.inr (by norm_num))
    · exact h.fld_put_other v ha
  simp only [Head.substitute, hrole]

theorem Head.noteDeparture_late {x : CmdSlot} {t k due : Nat} (ho : h.isOverrun t due x.express = true) :
    h.noteDeparture x t k due = h.overrun t := if_pos ho

theorem Head.noteDeparture_committed {x : CmdSlot} {t k due : Nat} (ho : h.isOverrun t due x.express = false)
    (hc : ((h.slot k).sends due).2 = true) : h.noteDeparture x t k due = h.put (SCHED_TSTAT_CONSEC t) 0 := by
  rw [Head.noteDeparture, ho, if_neg Bool.false_ne_true, if_pos hc]

/-- A motion task released in this Bell is judged at its DEADLINE. -/
theorem Head.motionDeadline_judges {t : Nat} (hrun : h.bell.running = true) (hcyc : h.bell.rollcall = false) (hgates : h.bell.gatesOff = false)
    (hm : h.isMotion t = true) (he : h.taskEnabled t = true)
    (hd : h.bell.cyclicCount % max 1 (bits (h.desc t 2) 15 8) = bits (h.desc t 2) 7 0) {g : Head}
    (hg : h.forward (h.instantTick (h.taskDeadline t)) = g) :
    h.motionDeadline t = if 2 ≤ g.taskState t then
      (g.setMot (g.taskAxis t) (fun m => { m with owed := m.owed.map (fun o => (o.1, true)) })).overrun t
    else g.put (SCHED_TSTAT_CONSEC t) 0 := by
  simp only [Head.motionDeadline, hrun, hcyc, hgates, hm, he, hd, hg, Bool.not_true, Bool.false_eq_true, ne_eq, not_true_eq_false, or_self,
    if_false]

/-- Whether a frame of node `n` was used on the channel of a lane in this Bell, and whether a damaged one came. -/
def Node.seenOn (n : Node) (lane : Nat) : Bool := if lane < 4 then n.seenA else n.seenB
def Node.badOn (n : Node) (lane : Nat) : Bool := if lane < 4 then n.badA else n.badB
/-- The run of Bells that node `n` has missed on the channel of a lane. -/
def Node.missOn (n : Node) (lane : Nat) : Nat := if lane < 4 then n.missA else n.missB

/-- A slot of station `s` on a lane counts as missing; a damaged report is no NODE_MISS. -/
def Head.countMiss (h : Head) (s lane : Nat) : Head :=
  (if (h.node s).badOn lane then h else h.bump (NODE_MISS s)).setNode s (fun y =>
    if lane < 4 then { y with missA := y.missA + 1 } else { y with missB := y.missB + 1 })

/-- What the close of a window on a lane notes of station `s`: a miss, and the second in a row on a channel that a dual node can leave. -/
def Head.noteWindow (h : Head) (s lane : Nat) : Head :=
  if (h.node s).seenOn lane ∨ (h.dualMode s = 3 ∧ (h.node s).limp ≠ 0 ∧ lane / 4 + 1 ≠ (h.node s).limp) then h
  else if 2 ≤ ((h.countMiss s lane).node s).missOn lane ∧ (h.node s).limp = 0 ∧ (h.countMiss s lane).otherChannel s lane then
    (h.countMiss s lane).setNode s (fun y => { y with limpNext := if lane < 4 then 2 else 1 })
  else h.countMiss s lane

theorem Head.noteWindow_seen {s lane : Nat} (hs : (h.node s).seenOn lane = true) : h.noteWindow s lane = h := if_pos (.inl hs)

theorem Head.noteWindow_first {s lane : Nat} (hs : (h.node s).seenOn lane = false) (hl : (h.node s).limp = 0)
    (hr : ((h.countMiss s lane).node s).missOn lane < 2) : h.noteWindow s lane = h.countMiss s lane := by
  have hmissed : ¬ ((h.node s).seenOn lane = true ∨ (h.dualMode s = 3 ∧ (h.node s).limp ≠ 0 ∧ lane / 4 + 1 ≠ (h.node s).limp)) := by
    simp [hs, hl]
  exact (if_neg hmissed).trans (if_neg (fun hrun => Nat.not_le_of_lt hr hrun.1))

/-- The window of a slot in force closes at its instant: it is noted, and after a station's last window its report may be missing. -/
theorem Head.windowClose_closes {x : RepSlot} {lane slot : Nat}
    (hx : h.content?.bind (fun c => c.repSlots.find? (fun x => x.lane == lane && x.slot == slot)) = some x)
    (hrun : h.bell.running = true) (hcyc : h.bell.rollcall = false) (hin : h.slotInForce x.station lane x.limp = true)
    (hst : h.fld (NODE_STAT_STATE x.station) ≠ 6) {g : Head} (hg : h.forward (h.closeTick x) = g) :
    h.windowClose lane slot =
      if (g.node x.station).seenThisBell = false ∧ (g.node x.station).judged = false ∧
        (g.noteWindow x.station lane).windowsClosed x.station = true then (g.noteWindow x.station lane).reportMissing x.station
      else g.noteWindow x.station lane := by
  simp only [Head.windowClose, hx, hrun, hcyc, hin, hst, hg, Bool.not_true, Bool.not_eq_true', Bool.false_eq_true, or_self, if_false]
  rfl

@[simp] theorem Head.countMiss_boot (s lane : Nat) : (h.countMiss s lane).boot = h.boot := by
  simp only [Head.countMiss, Head.setNode_boot, apply_ite Head.boot, Head.bump_boot, ite_self]

section Departure

variable {s : State} (hs : s.runs) (hrun : s.head.bell.running = true) (hcyc : s.head.bell.rollcall = false) {lane : Fin 10}
  {slot t due : Nat} {x : CmdSlot} (hx : s.head.cmdSlot? (lane.val * 256 + slot) = some x)
  (hdue : s.head.instantTick (if x.express then x.dueFirst else x.instant) = due) {g : Head}
  (hg : (s.head.forward (s.head.instantTick x.instant)).forward due = g) (hin : g.slotInForce x.station lane.val x.limp = true)
  (ht : g.slotTask x = some t) (hk : g.taskCmd t = some (lane.val * 256 + slot))
include hs hrun hcyc hx hdue hg hin ht hk

/-- The slot of a late task leaves with the overrun noted. -/
theorem exec_slotDeparture_late (ho : g.isOverrun t due x.express = true) (hsub : (g.overrun t).substitute = false) :
    exec (.slotDeparture lane slot) s =
      .next (s.setHead ((g.overrun t).leaves x lane.val slot due g.ownEpoch ((g.node x.station).limp != 0))) := by
  have hnote := g.noteDeparture_late (k := lane.val * 256 + slot) ho
  have hleave := s.head.departure_leaves hx hrun hcyc hdue hg hin ht hk (by rw [hnote]; exact hsub)
  refine State.onHead_next hs (hleave.trans (by rw [hnote])) ?_
  rw [Head.leaves_boot, Head.overrun_boot, ← hg, Head.forward_boot, Head.forward_boot]

/-- The slot of a task that has committed leaves with its run of overruns ended. -/
theorem exec_slotDeparture_committed (ho : g.isOverrun t due x.express = false)
    (hc : ((g.slot (lane.val * 256 + slot)).sends due).2 = true) (hsub : g.substitute = false) :
    exec (.slotDeparture lane slot) s =
      .next (s.setHead ((g.put (SCHED_TSTAT_CONSEC t) 0).leaves x lane.val slot due g.ownEpoch ((g.node x.station).limp != 0))) := by
  have hnote := g.noteDeparture_committed ho hc
  have hleave := s.head.departure_leaves hx hrun hcyc hdue hg hin ht hk (by rw [hnote, Head.substitute_putConsec]; exact hsub)
  refine State.onHead_next hs (hleave.trans (by rw [hnote])) ?_
  rw [Head.leaves_boot, Head.put_boot, ← hg, Head.forward_boot, Head.forward_boot]

end Departure

/-- A motion task's run is judged by what it has come to at its DEADLINE. -/
theorem exec_motionDeadline_judges {s : State} (hs : s.runs) {t : Nat} (hrun : s.head.bell.running = true)
    (hcyc : s.head.bell.rollcall = false) (hgates : s.head.bell.gatesOff = false) (hm : s.head.isMotion t = true)
    (he : s.head.taskEnabled t = true)
    (hd : s.head.bell.cyclicCount % max 1 (bits (s.head.desc t 2) 15 8) = bits (s.head.desc t 2) 7 0) {g : Head}
    (hg : s.head.forward (s.head.instantTick (s.head.taskDeadline t)) = g) :
    exec (.motionDeadline t) s = .next (s.setHead (if 2 ≤ g.taskState t then
      (g.setMot (g.taskAxis t) (fun m => { m with owed := m.owed.map (fun o => (o.1, true)) })).overrun t
    else g.put (SCHED_TSTAT_CONSEC t) 0)) := by
  refine State.onHead_next hs (s.head.motionDeadline_judges hrun hcyc hgates hm he hd hg) ?_
  rw [apply_ite Head.boot, Head.overrun_boot, Head.setMot_boot, Head.put_boot, ite_self, ← hg, Head.forward_boot]

section Window

variable {s : State} (hs : s.runs) (hrun : s.head.bell.running = true) (hcyc : s.head.bell.rollcall = false) {lane : Fin 10} {slot : Nat}
  {x : RepSlot}
  (hx : s.head.content?.bind (fun c => c.repSlots.find? (fun x => x.lane == lane.val && x.slot == slot)) = some x)
  (hin : s.head.slotInForce x.station lane.val x.limp = true) (hst : s.head.fld (NODE_STAT_STATE x.station) ≠ 6) {g : Head}
  (hg : s.head.forward (s.head.closeTick x) = g)
include hs hrun hcyc hx hin hst hg

/-- The window of a slot whose frame has been used closes without a trace. -/
theorem exec_rxWindowClose_seen (hseen : (g.node x.station).seenOn lane.val = true) (hbell : (g.node x.station).seenThisBell = true) :
    exec (.rxWindowClose lane slot) s = .next (s.setHead g) := by
  have hclose := s.head.windowClose_closes hx hrun hcyc hin hst hg
  rw [g.noteWindow_seen hseen, if_neg (fun hb => Bool.false_ne_true (hb.1.symm.trans hbell))] at hclose
  exact State.onHead_next hs hclose (by rw [← hg, Head.forward_boot])

/-- The last window of a station closes without a used frame: the slot counts, the report is missing. -/
theorem exec_rxWindowClose_missing (hseen : (g.node x.station).seenOn lane.val = false) (hl : (g.node x.station).limp = 0)
    (hrunning : ((g.countMiss x.station lane.val).node x.station).missOn lane.val < 2) (hbell : (g.node x.station).seenThisBell = false)
    (hj : (g.node x.station).judged = false) (hw : (g.countMiss x.station lane.val).windowsClosed x.station = true) :
    exec (.rxWindowClose lane slot) s = .next (s.setHead ((g.countMiss x.station lane.val).reportMissing x.station)) := by
  have hclose := s.head.windowClose_closes hx hrun hcyc hin hst hg
  rw [g.noteWindow_first hseen hl hrunning, if_pos ⟨hbell, hj, hw⟩] at hclose
  exact State.onHead_next hs hclose (by rw [Head.reportMissing_boot, Head.countMiss_boot, ← hg, Head.forward_boot])

end Window

/-- Settles O45: the slot leaves with what its task's overrun or commit leaves standing, the deadline judges the run, and the last window
without a used frame counts its report as missing. -/
theorem departuresAndDeadlinesRun : Obligations.DeparturesAndDeadlinesRun := by
  intro s hs hrun hcyc gives
  refine ⟨fun lane slot t x hx => ?_, fun t hgates hm he hd => ?_, fun lane slot c x hc hx => ?_⟩
  · intro due k h hin hsub ht hk leaves
    exact ⟨fun ho hlate => exec_slotDeparture_late hs hrun hcyc hx rfl rfl hin ht hk ho hlate,
      fun ho hsent => exec_slotDeparture_committed hs hrun hcyc hx rfl rfl hin ht hk ho hsent hsub⟩
  · intro h owed
    exact exec_motionDeadline_judges hs hrun hcyc hgates hm he hd rfl
  · intro n h onA bad counted hin hst hj
    have hslot : s.head.content?.bind (fun c => c.repSlots.find? (fun x => x.lane == lane.val && x.slot == slot)) = some x := by
      rw [hc]
      exact hx
    have hcounted : counted = h.countMiss n lane.val := by
      by_cases hlane : lane.val < 4 <;> simp [counted, bad, onA, Head.countMiss, Node.badOn, hlane]
    have hseenOn : (h.node n).seenOn lane.val = if onA then (h.node n).seenA else (h.node n).seenB := by
      simp only [onA, Node.seenOn, decide_eq_true_eq]
    have hmissOn (g : Head) : (g.node n).missOn lane.val = if onA then (g.node n).missA else (g.node n).missB := by
      simp only [onA, Node.missOn, decide_eq_true_eq]
    clear_value counted
    subst hcounted
    exact ⟨fun hseen hbell => exec_rxWindowClose_seen hs hrun hcyc hslot hin hst rfl (hseenOn.trans hseen) hbell,
      fun hseen hl _ hmiss hbell hw => exec_rxWindowClose_missing hs hrun hcyc hslot hin hst rfl (hseenOn.trans hseen) hl
        (by rwa [hmissOn]) hbell hj hw⟩

end Sys2Proof.Machine
end

section
namespace Sys2Proof.Machine

/-! ## What a command leaves of the flash (R34, R59, R80, R452) -/

/-- Key programming and a trim commit leave the flash alone: of what the head asks for beyond itself only a reset touches it. -/
theorem State.settle_flash {s : State} {r : Option (List Word)} (hr : (s.settle r).inReset = false) :
    (s.settle r).store.flash = s.store.flash := by
  rcases s.settle_cases r with ⟨-, e⟩ | ⟨u, rfl, -, e | e | e | e | e⟩
  · rw [e]
  · rw [e, State.enterReset_inReset] at hr
    exact absurd hr.symm Bool.false_ne_true
  all_goals simp only [e, State.commitTrim_flash, State.programKey_flash, State.setHead_store]

/-- A command for the head after which the head is in reset exactly when it was before leaves the flash alone. -/
theorem State.onHeadThen_flash {s : State} {r : Option (List Word)} {f : Head → Head} (h : (s.onHeadThen r f).inReset = s.inReset) :
    (s.onHeadThen r f).store.flash = s.store.flash := by
  unfold State.onHeadThen at h ⊢
  split_ifs at h ⊢ with hr
  · rfl
  · exact State.settle_flash (h.trans (Bool.eq_false_of_not_eq_true hr))

@[simp] theorem State.watchdogToggle_store (s : State) (b : Bool) : (s.watchdogToggle b).store = s.store := by
  unfold State.watchdogToggle; split_ifs <;> rfl
@[simp] theorem State.paramTransfer_store (s : State) (b : Bool) : (s.paramTransfer b).store = s.store := by
  unfold State.paramTransfer; split <;> (try split_ifs) <;> rfl
@[simp] theorem State.islandRecord_store (s : State) (b : Bool) : (s.islandRecord b).store = s.store := by
  unfold State.islandRecord; split_ifs <;> rfl
@[simp] theorem State.earlyOff_store (s : State) (n : Nat) : (s.earlyOff n).store = s.store := by
  unfold State.earlyOff; split_ifs <;> rfl
@[simp] theorem State.islandWdChange_store (s : State) (t : Nat) : (s.islandWdChange t).store = s.store := by
  unfold State.islandWdChange; split_ifs <;> rfl
@[simp] theorem State.sequence_store (s : State) (m : Nat) (r v o : Bool) : (s.sequence m r v o).store = s.store := by
  unfold State.sequence; split_ifs <;> rfl

/-- SVC_EN as a capture sees it is news for the head alone. -/
theorem State.svcEnSeen_flash {s : State} {b : Bool} (h : (s.svcEnSeen b).inReset = s.inReset) :
    (s.svcEnSeen b).store.flash = s.store.flash := by
  unfold State.svcEnSeen at h ⊢
  split_ifs at h ⊢
  · exact State.onHeadThen_flash h
  · exact State.onHeadThen_flash h
  · rfl

theorem State.testPort_flash {s : State} {op : TapOp} {balls scan : Nat} (h : (s.testPort op balls scan).inReset = s.inReset) :
    (s.testPort op balls scan).store.flash = s.store.flash := by
  unfold State.testPort at h ⊢
  dsimp only at h ⊢
  split at h <;> rename_i hc
  · rw [if_pos hc]
    exact State.svcEnSeen_flash h
  · rw [if_neg hc]

/-- Of the commands that reach beyond the head, those that neither work on the flash by themselves nor put the head into reset leave the
flash alone. -/
theorem exec_wide_flash {c : Instr} {s t : State} (hc : wideCommand c = true) (hf : flashCommand c = false) (hr : resetCommand c = false)
    (ht : exec c s = .next t) (h : t.inReset = s.inReset) : t.store.flash = s.store.flash := by
  cases c
  case logRecordWrite | flashOperationDone => exact absurd hf.symm Bool.false_ne_true
  case porstAssert | mainRailLoss => exact absurd hr.symm Bool.false_ne_true
  case testPortInstruction o b n =>
    obtain rfl : t = s.testPort o b n := next_inj ht
    exact State.testPort_flash h
  case vddSafeLoss =>
    obtain rfl : t = s.vddSafeLoss := next_inj ht
    exact State.onHeadThen_flash h
  case watchdogToggle a => rw [next_inj ht]; exact congrArg Store.flash (s.watchdogToggle_store a)
  case paramTransfer b => rw [next_inj ht]; exact congrArg Store.flash (s.paramTransfer_store b)
  case evaluationCycle x => rw [next_inj ht]; rfl
  case islandRecord b => rw [next_inj ht]; exact congrArg Store.flash (s.islandRecord_store b)
  case earlyOff n => rw [next_inj ht]; exact congrArg Store.flash (s.earlyOff_store n.val)
  case islandWdChange x => rw [next_inj ht]; exact congrArg Store.flash (s.islandWdChange_store x)
  case resetSequence m r v o => rw [next_inj ht]; exact congrArg Store.flash (s.sequence_store m.val r v o)
  all_goals exact absurd hc Bool.false_ne_true

/-- Settles O6: a command for the head changes the flash through a reset alone, a step of the island not at all, and of the commands that
reach further only the flash's own and the two resets do. -/
theorem flashChangesByTheseAlone : Obligations.FlashChangesByTheseAlone := by
  intro c s t hf hr ht h
  rcases exec_cases c s with ⟨r, f, e⟩ | ⟨-, f, e⟩ | hwide
  · obtain rfl := next_inj (e.symm.trans ht)
    exact State.onHeadThen_flash h
  · rw [next_inj (e.symm.trans ht), State.onIsland_store]
  · exact exec_wide_flash hwide hf hr ht h

end Sys2Proof.Machine
end

section
namespace Sys2Proof.Machine

/-! ## What stops axes and loops leaves loading alone (R249, R321, R378, R386, R459) -/

variable (h : Head)

@[simp] theorem Head.flagAxis_boot (n k : Nat) : (h.flagAxis n k).boot = h.boot := h.foldl_boot _ (fun g t => g.setFlag_boot t k) _

@[simp] theorem Head.safeFlags_boot (k : Nat) : (h.safeFlags k).boot = h.boot :=
  ((h.privFlag _).foldl_boot _ (fun g n => g.flagAxis_boot n _) _).trans (h.privFlag_boot _)

@[simp] theorem Head.gatedOff_boot (n : Nat) : (h.gatedOff n).boot = h.boot := by
  unfold Head.gatedOff
  dsimp only
  split_ifs
  · exact h.loseRef_boot n
  · rfl

@[simp] theorem Head.gatesLost_boot (k : Nat) : (h.gatesLost k).boot = h.boot := h.foldl_boot _ (fun g n => g.gatedOff_boot n) _

@[simp] theorem Head.commitCode_boot (k c : Nat) : (h.commitCode k c).boot = h.boot := by
  unfold Head.commitCode
  dsimp only
  split_ifs <;> simp

@[simp] theorem Head.loseIsland_boot : h.loseIsland.boot = h.boot := by
  unfold Head.loseIsland
  dsimp only
  split_ifs
  · rfl
  · rw [Head.foldl_boot _ _ (fun g k => by rw [Head.safeFlags_boot, Head.gatesLost_boot]), Head.raise_boot, Head.put_boot, Head.setCore_boot]

@[simp] theorem Head.emit_boot (i : Nat) (en : Bool) (out : Nat) : (h.emit i en out).boot = h.boot := h.setLoop_boot i _

@[simp] theorem Head.presetManual_boot (i uLast : Nat) (keep : Bool) : (h.presetManual i uLast keep).boot = h.boot := by
  unfold Head.presetManual
  dsimp only
  split_ifs <;> simp

@[simp] theorem Head.autoRun_boot (i : Nat) (e : List Int) : (h.autoRun i e).boot = h.boot := rfl

@[simp] theorem Head.presetAuto_boot (i uLast : Nat) : (h.presetAuto i uLast).boot = h.boot := by
  unfold Head.presetAuto
  extract_lets x sp e ul int raw u0 bump bumped entered
  rw [Head.autoRun_boot, Head.setLoop_boot, Head.put_boot, apply_ite Head.boot, Head.put_boot, ite_self]

@[simp] theorem Head.endTune_boot (i result : Nat) (back : Bool) : (h.endTune i result back).boot = h.boot := by
  unfold Head.endTune
  split
  · rfl
  · dsimp only
    split_ifs <;> simp

@[simp] theorem Head.loopIsland_boot (i : Nat) : (h.loopIsland i).boot = h.boot := by
  unfold Head.loopIsland
  extract_lets want ended cleared level preset
  have hended : ended.boot = h.boot := by
    unfold ended
    rw [apply_ite Head.boot, Head.endTune_boot, ite_self]
  have hcleared : cleared.boot = ended.boot := by rw [Head.put_boot, Head.put_boot]
  have hpreset : preset.boot = cleared.boot := by
    unfold preset
    rw [apply_ite Head.boot, Head.setLoop_boot, ite_self]
  simp only [apply_ite Head.boot, Head.emit_boot, Head.put_boot, hpreset, hcleared, hended, ite_self]

@[simp] theorem Head.loopsStop_boot : h.loopsStop.boot = h.boot := by
  refine h.foldl_boot _ (fun g s => ?_) _
  dsimp only
  split_ifs
  · rfl
  · rw [Head.foldl_boot _ _ (fun x y => x.setSlot_boot _ _), Head.foldl_boot _ _ (fun x i => x.loopIsland_boot i)]

/-! ## What passes between core and island (R36, R75, R378, R382 to R387) -/

section Exchange

variable {s : State} (hr : s.inReset = false)
include hr

theorem exec_watchdogToggle (armed : Bool) : exec (.watchdogToggle armed) s = .next (if armed then { s with
    head := { s.head with time := { s.head.time with wdLevel := !s.head.time.wdLevel } }
    wires := { s.wires with wdChanges := s.wires.wdChanges + 1 } } else s) := by
  cases armed <;> exact congrArg Host.Outcome.next (if_neg (by rw [hr]; exact Bool.false_ne_true))

/-- The island is offered a set that it does not hold. -/
theorem exec_paramTransfer_new {r : Recipe} (sound : Bool) (hrec : s.head.boot.recipe = some r)
    (hnew : ¬ (s.island.param.isSome = true ∧ s.island.sig = r.safeSig)) :
    exec (.paramTransfer sound) s = .next (s.onIsland (fun x => x.take r.safety r.safeSig (s.head.on SYS_STRAP_ROLE)
      (sound && crc32 (r.safety.flatMap (fun w => leBytes 4 w.toNat)) == r.safeSig))) := by
  change Host.Outcome.next (s.paramTransfer sound) = _
  unfold State.paramTransfer
  simp only [hr, hrec, if_neg hnew]

/-- A powered island hands over its record. -/
theorem State.islandRecord_eq (hp : s.island.powered = true) (hrec : s.island.record ≠ []) (sound : Bool) :
    s.islandRecord sound = if sound then { s with
      head := s.head.takeRecord s.island.record s.island.events, island := { s.island with events := [] }
      wires := { s.wires with
        ack := (s.head.takeRecord s.island.record s.island.events).ackOuts
        early := band s.wires.early (s.head.takeRecord s.island.record s.island.events).ss1Outs
        askOff := s.wires.askOff && (s.head.takeRecord s.island.record s.island.events).on SAFE_CORE_ISLAND_CLOCK } }
      else s.setHead s.head.badRecord := by
  unfold State.islandRecord
  rw [if_neg (by simp [hr, hp, hrec])]
  cases sound <;> rfl

theorem State.earlyOff_asks {n : Nat} {r : Recipe} (hrec : s.head.boot.recipe = some r) (he : r.early n = true)
    (hc : nth s.head.core.codes n = 1) (hs : 16 ≤ nth s.head.core.still n) :
    s.earlyOff n = { s with wires := { s.wires with early := setBit s.wires.early n } } :=
  if_pos ⟨by simp [hr], by simp [hrec, he], hc, hs⟩

theorem State.islandWdChange_times (hp : s.island.powered = true) (t : Nat) : s.islandWdChange t = { s with
    head := s.head.wdInterval t, wires := { s.wires with askOff := (s.head.wdInterval t).on SAFE_CORE_ISLAND_CLOCK } } :=
  if_neg (by simp [hr, hp])

theorem exec_islandLoss (hw : s.head.boot.want = 0) :
    exec .islandLoss s = .next (s.setHead ((s.head.forward (s.head.core.lastChange.getD 0 + 200000)).loseIsland)) :=
  State.onHead_next ⟨hr, hw⟩ rfl (by rw [Head.loseIsland_boot, Head.forward_boot])

/-- The demand lines of an island without VDD_SAFE read as code 2 at every output, and the island is lost (R36, R386). -/
theorem exec_vddSafeLoss (hw : s.head.boot.want = 0) : exec .vddSafeLoss s = .next { s with
    head := (((List.range 4).foldl (fun (h : Head) k => h.commitCode k 2) s.head).loopsStop.setCore
      (fun x => { x with lastChange := none, badIvl := 0 })).loseIsland
    island := .off, wires := { s.wires with early := 0, ack := 0, askOff := false } } := by
  refine State.onHead_next (s := { s with island := .off, wires := { s.wires with early := 0, ack := 0, askOff := false } }) ⟨hr, hw⟩ rfl ?_
  rw [Head.loseIsland_boot, Head.setCore_boot, Head.loopsStop_boot, Head.foldl_boot _ _ (fun g k => g.commitCode_boot k 2)]

end Exchange

/-- Settles O60: each exchange is one equation of the machine, and neither loss asks the head for anything beyond itself. -/
theorem coreAndIslandExchange : Obligations.CoreAndIslandExchange := by
  intro s hr h
  refine ⟨⟨exec_watchdogToggle hr false, exec_watchdogToggle hr true⟩, fun r sound hrec hnew => exec_paramTransfer_new hr sound hrec hnew,
    fun hp hrec => ⟨?_, ?_⟩, fun n r hrec he hc hs => ?_, fun tick hp => ?_, fun hw => ⟨exec_islandLoss hr hw, exec_vddSafeLoss hr hw⟩⟩
  · exact congrArg Host.Outcome.next (State.islandRecord_eq hr hp hrec false)
  · exact congrArg Host.Outcome.next (State.islandRecord_eq hr hp hrec true)
  · exact congrArg Host.Outcome.next (State.earlyOff_asks hr hrec he hc hs)
  · exact congrArg Host.Outcome.next (State.islandWdChange_times hr hp tick)

end Sys2Proof.Machine
end

section
namespace Sys2Proof.Machine

/-! ## What leaves one register as it was: events, log records, the stores as the reset sequence shows them (R54, R79, R453, R456) -/

/-- The register at `a` reads in `g` as in `h`. -/
def KeepsReg (a : Nat) (h g : Head) : Prop := g.rd a = h.rd a

section KeepsReg

variable {a : Nat} {h g x : Head}

theorem KeepsReg.refl (h : Head) : KeepsReg a h h := rfl
theorem KeepsReg.trans (hg : KeepsReg a h g) (hx : KeepsReg a g x) : KeepsReg a h x := Eq.trans hx hg
theorem KeepsReg.ite (c : Prop) [Decidable c] (hg : KeepsReg a h g) (hx : KeepsReg a h x) : KeepsReg a h (if c then g else x) := by
  split_ifs <;> assumption
theorem KeepsReg.wr (hg : KeepsReg a h g) {b : Nat} (hb : a ≠ b) (v : Nat) : KeepsReg a h (g.wr b v) := (g.rd_wr_other v hb).trans hg
theorem KeepsReg.put (hg : KeepsReg a h g) {f : Fld} (hb : a ≠ f.addr) (v : Nat) : KeepsReg a h (g.put f v) := hg.wr hb _
theorem KeepsReg.foldl {α : Type} (f : Head → α → Head) (hf : ∀ g b, KeepsReg a g (f g b)) (l : List α) : KeepsReg a h (l.foldl f h) := by
  induction l generalizing h with
  | nil => exact .refl h
  | cons b l ih => exact (hf h b).trans ih

end KeepsReg

theorem Head.signal_keepsReg {a : Nat} (h : Head) (e : Nat) : KeepsReg a h (h.signal e) := rfl

section Events

variable {a : Nat} (ha : a < 0x120000) (h : Head)
include ha

/-- An event is shown in the host port's and the background block's registers. -/
theorem Head.report_keepsReg (c s e : Nat) : KeepsReg a h (h.report c s e) := by
  have hcode : a ≠ BKG_RC_LAST := by simp only [BKG_RC_LAST]; omega
  have hns : a ≠ BKG_RC_LAST_NS := by simp only [BKG_RC_LAST_NS]; omega
  have hsec : a ≠ BKG_RC_LAST_NS + 4 := by simp only [BKG_RC_LAST_NS]; omega
  have hcnt : a ≠ BKG_RC_CNT c := by simp only [BKG_RC_CNT]; omega
  have hsum : a ≠ BKG_RC_SUM := by simp only [BKG_RC_SUM]; omega
  have hevt : a ≠ HOST_EVT := by simp only [HOST_EVT]; omega
  exact (((((KeepsReg.refl h).put hcode _).wr hns _).wr hsec _).wr hcnt _).trans
    ((KeepsReg.ite _ ((KeepsReg.refl _).wr hsum _) (.refl _)).trans
      ((KeepsReg.ite _ ((KeepsReg.refl _).put hevt _) (.refl _)).trans (KeepsReg.ite _ ((KeepsReg.refl _).put hevt _) (.refl _))))

theorem Head.logAdd_keepsReg (t c d0 d1 : Nat) : KeepsReg a h (h.logAdd t c d0 d1) := by
  have hstat : a ≠ BKG_LOG_STAT := by simp only [BKG_LOG_STAT]; omega
  have hlost : a ≠ BKG_LOG_LOST := by simp only [BKG_LOG_LOST]; omega
  have hput (r : LogRec) : KeepsReg a h (h.logPut r) := Head.rd_put_other _ _ hstat
  have hloss : KeepsReg a h h.logLost := by
    unfold Head.logLost
    exact (((KeepsReg.refl h).wr hlost _).trans (Head.report_keepsReg ha (h.bump BKG_LOG_LOST) 9 5 _)).trans (Head.signal_keepsReg _ _)
  exact KeepsReg.ite _ (.refl h) (KeepsReg.ite _ (hput _) hloss)

theorem Head.raise_keepsReg (c s i : Nat) : KeepsReg a h (h.raise c s i) := by
  have hreport := (h.signal_keepsReg (evCode c s i)).trans (Head.report_keepsReg ha (h.signal (evCode c s i)) c s (evCode c s i))
  unfold Head.raise
  exact hreport.trans (KeepsReg.ite _ (Head.logAdd_keepsReg ha _ _ _ _ _) (.refl _))

end Events

section Sequence

variable (h : Head)

theorem Head.showTrim_regsOnly (w : Nat → Nat) : RegsOnly h (h.showTrim w) :=
  ((RegsOnly.foldl _ (fun g _ => (RegsOnly.refl g).wr _ _) _).put _ _).put _ _

theorem Head.showKey_regsOnly (k : KeyStore) : RegsOnly h (h.showKey k) :=
  ((((RegsOnly.refl h).put _ _).put _ _).wr _ _).wr _ _

theorem Head.readStores_logOnly (st : Store) : LogOnly h (h.readStores st) := by
  have hshown := ((((RegsOnly.refl h).wr SYS_UID_LO (st.uid.toNat % 2 ^ 32)).wr SYS_UID_HI (st.uid.toNat / 2 ^ 32)).trans
    (Head.showTrim_regsOnly _ st.trimWord)).trans (Head.showKey_regsOnly _ st.key)
  exact hshown.toLog.trans (LogOnly.ite _ (RegsOnly.refl _).toLog (((RegsOnly.refl _).put _ _).toLog.trans (Head.raise_logOnly _ _ _ _)))

theorem Head.showDirectory_regsOnly : RegsOnly h h.showDirectory := by
  unfold Head.showDirectory
  split
  · exact (((RegsOnly.refl h).put _ _).put _ _).put _ _
  · exact .refl h

variable {a : Nat}

theorem Head.showTrim_keepsReg (ha : a < 0x800) (hstat : a ≠ SYS_TRIM_STAT) (w : Nat → Nat) : KeepsReg a h (h.showTrim w) :=
  ((KeepsReg.foldl _ (fun g k => (KeepsReg.refl g).wr (by simp only [SYS_TRIM]; omega) _) _).put hstat _).put hstat _

theorem Head.showKey_keepsReg (ha : a < 0x800) (hs : a ≠ SYS_STATUS) (k : KeyStore) : KeepsReg a h (h.showKey k) :=
  ((((KeepsReg.refl h).put hs _).put hs _).wr (by simp only [BOOT_KEY_STAT]; omega) _).wr (by simp only [BOOT_KEY_CHECK]; omega) _

/-- The stores show in the unique ID, the trim window, the key's and the trim store's status, and nowhere else of the block SYS. -/
theorem Head.readStores_keepsReg (hl : 8 < a) (ha : a < 0x800) (hs : a ≠ SYS_STATUS) (hstat : a ≠ SYS_TRIM_STAT) (st : Store) :
    KeepsReg a h (h.readStores st) := by
  have hshown := ((((KeepsReg.refl h).wr (show a ≠ SYS_UID_LO by simp only [SYS_UID_LO]; omega) (st.uid.toNat % 2 ^ 32)).wr
    (show a ≠ SYS_UID_HI by simp only [SYS_UID_HI]; omega) (st.uid.toNat / 2 ^ 32)).trans
    (Head.showTrim_keepsReg _ ha hstat st.trimWord)).trans (Head.showKey_keepsReg _ ha hs st.key)
  exact hshown.trans (KeepsReg.ite _ (.refl _) (((KeepsReg.refl _).put hs _).trans (Head.raise_keepsReg (by omega) _ _ _ _)))

theorem Head.showDirectory_keepsReg (ha : a < 0x800) : KeepsReg a h h.showDirectory := by
  have hslot : a ≠ BOOT_SLOT := by simp only [BOOT_SLOT]; omega
  have hflash : a ≠ BOOT_FLASH := by simp only [BOOT_FLASH]; omega
  unfold Head.showDirectory
  split
  · exact (((KeepsReg.refl h).put hslot _).put hslot _).put hflash _
  · exact .refl h

/-! Reserving a ticket is the host port's own affair. -/

@[simp] theorem Head.reserveTicket_now : h.reserveTicket.now = h.now := by
  unfold Head.reserveTicket; split <;> (try split_ifs) <;> rfl
@[simp] theorem Head.reserveTicket_boot : h.reserveTicket.boot = h.boot := by
  unfold Head.reserveTicket; split <;> (try split_ifs) <;> rfl
@[simp] theorem Head.reserveTicket_regs : h.reserveTicket.regs = h.regs := by
  unfold Head.reserveTicket; split <;> (try split_ifs) <;> rfl

end Sequence

/-! ## RESET_SEQUENCE (R29, R54, R57) -/

/-- The head as the reset sequence has sampled the straps and read the stores and the directory. -/
def State.sampled (s : State) (mode : Nat) (role svcEn : Bool) : Head :=
  (((({ Head.initial with now := 75328, draws := s.head.draws } : Head).straps mode role svcEn).wr SYS_RESET_CAUSE s.cause).readStores
    s.store).setBoot (fun b => { b with dir := s.store.directory })

/-- The head as the reset sequence leaves it. -/
def State.sequenced (s : State) (mode : Nat) (role svcEn : Bool) : Head :=
  ((((s.sampled mode role svcEn).showDirectory.put SYS_STATUS_STATE (if mode = 3 then 7 else 1)).setHost (fun p =>
    { p with up := true })).reserveTicket).logAdd 1 0 s.cause 0

section Sequenced

variable {s : State}

theorem State.sequence_failed (hr : s.inReset = true) (hs : s.stopped = false) (mode : Nat) (role svcEn : Bool) :
    s.sequence mode role svcEn false = { s with stopped := true, tap := { s.tap with maintenance := mode == 3 } } := by
  rw [State.sequence, if_neg (by simp [hr, hs])]
  rfl

theorem State.sequence_passed (hr : s.inReset = true) (hs : s.stopped = false) (mode : Nat) (role svcEn : Bool) :
    s.sequence mode role svcEn true = { s with
      head := s.sequenced mode role svcEn, wires := { s.wires with wdAlive := true }, inReset := false
      tap := { s.tap with maintenance := mode == 3 } } := by
  rw [State.sequence, if_neg (by simp [hr, hs])]
  rfl

variable (s) (mode : Nat) (role svcEn : Bool)

theorem State.sampled_now : (s.sampled mode role svcEn).now = 75328 := by
  rw [State.sampled, Head.setBoot_now, (Head.readStores_logOnly _ s.store).now]
  rfl

theorem State.sequenced_now : (s.sequenced mode role svcEn).now = 75328 := by
  rw [State.sequenced, Head.logAdd_now, Head.reserveTicket_now, Head.setHost_now, Head.put_now, (Head.showDirectory_regsOnly _).now,
    State.sampled_now]

theorem State.sequenced_dir : (s.sequenced mode role svcEn).boot.dir = s.store.directory := by
  rw [State.sequenced, Head.logAdd_boot, Head.reserveTicket_boot, Head.setHost_boot, Head.put_boot, (Head.showDirectory_regsOnly _).boot,
    State.sampled, Head.setBoot_boot]

/-- Behind the directory only SYS_STATUS of the block SYS is written. -/
theorem State.sequenced_rd {a : Nat} (ha : a < 0x800) :
    (s.sequenced mode role svcEn).rd a = ((s.sampled mode role svcEn).showDirectory.put SYS_STATUS_STATE (if mode = 3 then 7 else 1)).rd a := by
  rw [State.sequenced, Head.logAdd_keepsReg (by omega) _ 1 0 s.cause 0, Head.rd_congr (Head.reserveTicket_regs _), Head.rd_setHost]

theorem State.sequenced_sysState : (s.sequenced mode role svcEn).sysState = if mode = 3 then 7 else 1 := by
  rw [Head.sysState, Head.fld, s.sequenced_rd mode role svcEn (by decide), ← Head.fld, Head.fld_put_same _ _ _ (by decide) (by decide)]
  split_ifs <;> rfl

/-- What the straps and the cause left in the block SYS stands to the end. -/
theorem State.sequenced_strap {a : Nat} (hl : 8 < a) (ha : a < 0x800) (hs : a ≠ SYS_STATUS) (hstat : a ≠ SYS_TRIM_STAT) :
    (s.sequenced mode role svcEn).rd a =
      ((({ Head.initial with now := 75328, draws := s.head.draws } : Head).straps mode role svcEn).wr SYS_RESET_CAUSE s.cause).rd a := by
  rw [s.sequenced_rd mode role svcEn ha, Head.rd_put_other _ _ hs, Head.showDirectory_keepsReg _ ha, State.sampled, Head.rd_setBoot]
  exact Head.readStores_keepsReg _ hl ha hs hstat s.store

theorem State.sequenced_cause : (s.sequenced mode role svcEn).rd SYS_RESET_CAUSE = s.cause % 2 ^ 32 := by
  rw [s.sequenced_strap mode role svcEn (by decide) (by decide) (by decide) (by decide), Head.rd_wr_same]

theorem State.sequenced_bootMode (hm : mode < 4) : (s.sequenced mode role svcEn).fld SYS_STRAP_BOOT_MODE = mode := by
  have hword : (s.sequenced mode role svcEn).rd SYS_STRAP = mode % 4 + b2n role * 4 + b2n svcEn * 8 + b2n svcEn * 16 := by
    rw [s.sequenced_strap mode role svcEn (by decide) (by decide) (by decide) (by decide), Head.rd_wr_other _ _ (by decide), Head.straps,
      Head.putBit, Head.rd_put_other _ _ (by decide), Head.rd_wr_same, Nat.mod_eq_of_lt]
    have := b2n_le role
    have := b2n_le svcEn
    omega
  rw [Head.fld, hword]
  change _ / 2 ^ 0 % 2 ^ 2 = mode
  omega

end Sequenced

/-! ## PORST_N low and the loss of a main rail (R34, R36, R55) -/

/-- No log record was being programmed, or none could be: nothing is torn. -/
theorem State.dropOut_untorn {s : State} {torn : Option Nat} (h : s.inReset = true ∨ torn = none) (cause : Nat) :
    s.dropOut torn cause = { s.enterReset cause with tap := { s.tap with maintenance := false } } := by
  unfold State.dropOut
  rcases h with hr | rfl
  · rw [← s.enterReset_tap cause]
    split
    · rw [if_pos (.inl hr)]
    · rfl
  · rw [← s.enterReset_tap cause]

/-- The first bytes of the record that was being programmed reach the flash. -/
theorem State.dropOut_torn {s : State} {n : Nat} {d : Directory} {r : LogRec} (hr : s.inReset = false) (hf : s.head.logFree = true)
    (hd : s.head.boot.dir = some d) (hn : s.head.logNext = some r) (cause : Nat) :
    s.dropOut (some n) cause = { ((s.logPrepare d).programLog d r (min 31 n)).enterReset cause with
      tap := { ((s.logPrepare d).programLog d r (min 31 n)).tap with maintenance := false } } := by
  rw [← State.enterReset_tap _ cause]
  unfold State.dropOut
  rw [hd, hn]
  dsimp only
  rw [if_neg (by simp [hr, hf])]

/-- Settles O33: either event is a fall into reset with what it tears, and the sequence out of it shows straps, cause, stores and directory
in registers that nothing behind them writes. -/
theorem resetEntersAndLeaves : Obligations.ResetEntersAndLeaves := by
  intro s down
  refine ⟨fun torn h => ?_, fun n d r hr hf hd hn => ?_, fun cause => ?_, fun hr hs mode role svcEn => ⟨?_, ?_⟩⟩
  · exact ⟨congrArg Host.Outcome.next (State.dropOut_untorn h 2), congrArg Host.Outcome.next (State.dropOut_untorn h 1)⟩
  · exact ⟨congrArg Host.Outcome.next (State.dropOut_torn hr hf hd hn 2), congrArg Host.Outcome.next (State.dropOut_torn hr hf hd hn 1)⟩
  · exact ⟨rfl, rfl, rfl, rfl, s.enterReset_island cause, s.cutFlash_key, s.cutFlash_trim⟩
  · have hmode : (mode.val == 3) = decide (mode = 3) := by revert mode; decide
    rw [← hmode]
    exact congrArg Host.Outcome.next (State.sequence_failed hr hs mode.val role svcEn)
  · have hmode : (if mode.val = 3 then 7 else 1) = if mode = 3 then 7 else 1 := by revert mode; decide
    have hpassed := State.sequence_passed hr hs mode.val role svcEn
    have hnow := s.sequenced_now mode.val role svcEn
    have hstate := (s.sequenced_sysState mode.val role svcEn).trans hmode
    have hcause := s.sequenced_cause mode.val role svcEn
    have hboot := s.sequenced_bootMode mode.val role svcEn mode.isLt
    have hdir := s.sequenced_dir mode.val role svcEn
    generalize s.sequenced mode.val role svcEn = g at hpassed hnow hstate hcause hboot hdir
    exact ⟨_, congrArg Host.Outcome.next hpassed, rfl, hnow, hstate, hcause, hboot, hdir, rfl, rfl, rfl⟩

end Sys2Proof.Machine
end

section
namespace Sys2Proof.Machine

/-! ## The clocks of the Engineer view (R30, R441 to R443) -/

section View

variable (h : Head)

/-- An open view closes with its bits and its event; a closed one stays as it is. -/
theorem Head.closeView_event : h.closeView true =
    if h.engineer then ((h.put SYS_STATUS_ENG_OPEN 0).put SYS_TRIM_CTL_VIEW 0).put HOST_EVT_ENG_CLOSED 1 else h := by
  cases he : h.engineer <;> rw [Head.engineer] at he <;> simp [Head.closeView, he]

@[simp] theorem Head.closeView_boot (event : Bool) : (h.closeView event).boot = h.boot := by
  unfold Head.closeView
  dsimp only
  split_ifs <;> rfl

@[simp] theorem Head.engineer_forward (t : Nat) : (h.forward t).engineer = h.engineer := by
  simp only [Head.engineer, Head.on, Head.fld_forward]

theorem Head.engIdleClose_open (he : h.engineer = true) :
    h.engIdleClose = (((h.forward (h.host.idleFrom + 120000000000)).put SYS_STATUS_ENG_OPEN 0).put SYS_TRIM_CTL_VIEW 0).put
      HOST_EVT_ENG_CLOSED 1 := by
  rw [Head.engIdleClose, if_pos he, Head.closeView_event, Head.engineer_forward, if_pos he]

@[simp] theorem Head.forward_host (t : Nat) : (h.forward t).host = h.host := by rw [Head.forward_eq]

@[simp] theorem Head.voidChallenge_boot : h.voidChallenge.boot = h.boot := rfl

@[simp] theorem Head.challengeExpiry_boot : h.challengeExpiry.boot = h.boot := by
  unfold Head.challengeExpiry
  split
  · rw [Head.voidChallenge_boot, Head.forward_boot]
  · rfl

theorem Head.challengeExpiry_open {t : Nat} (ht : h.host.chalTick = some t) :
    h.challengeExpiry = { (((h.forward (t + 200000001)).wr HOST_ENG_CHAL 0).put HOST_ENG_STAT_CHAL_OPEN 0) with
      host := { h.host with chalTick := none } } := by
  unfold Head.challengeExpiry
  rw [ht]
  dsimp only
  rw [Head.voidChallenge, Head.forward_host]

theorem Head.lockExpiry_locked {t : Nat} (ht : h.host.lockFrom = some t) :
    h.lockExpiry = { h with now := max h.now (t + 12000000000), host := { h.host with lockFrom := none } } := by
  unfold Head.lockExpiry
  rw [ht]
  dsimp only
  rw [Head.forward_eq, Head.setHost]

end View

/-! ## The ECC scrub (R449) -/

section Scrub

variable (h : Head)

/-- The head with the single-bit errors of a find in its engines' memories. -/
def Head.struck (f : ScrubFind) : Head := f.upsets.foldl Head.upset h

/-- The head with the word of engine memory that a find corrected free of its error, counted at its engine. -/
def Head.mended (f : ScrubFind) : Head :=
  if f.region = 0 then ((h.struck f).setEngine f.engine (fun g => { g with flawed := g.flawed.erase (findWord f) })).bump (LE_ECC f.engine)
  else h.struck f

theorem Head.struck_boot (f : ScrubFind) : (h.struck f).boot = h.boot :=
  h.foldl_boot Head.upset (fun _ _ => rfl) f.upsets

theorem Head.mended_boot (f : ScrubFind) : (h.mended f).boot = h.boot := by
  unfold Head.mended
  split_ifs
  · rw [Head.bump_boot, Head.setEngine_boot, Head.struck_boot]
  · exact h.struck_boot f

theorem Head.scrubStep_sound {f : ScrubFind} (hw : f.wrap = false) (hb : f.bad = false) :
    h.scrubStep f = if f.corrected then ((h.mended f).bump BKG_ECC_CORR).setLog (fun l => { l with scrubCorr := l.scrubCorr + 1 })
      else h.struck f := by
  unfold Head.scrubStep Head.mended Head.struck
  cases f.corrected <;> simp [hw, hb]

/-- An uncorrectable error outside engine memory, the Supervisor's program and every word that the host can name. -/
theorem Head.scrubStep_bad {f : ScrubFind} (hw : f.wrap = false) (hc : f.corrected = false) (hb : f.bad = true) (h0 : f.region ≠ 0)
    (h5 : f.region ≠ 5) (hh : f.host = none) :
    h.scrubStep f = (((h.struck f).bump BKG_ECC_UNC).wr BKG_ECC_ADDR (f.region % 16 * 2 ^ 28 + f.addr % 2 ^ 24)).raise 9 1 f.region := by
  unfold Head.scrubStep Head.eccBad Head.struck
  simp [hw, hc, hb, h0, h5, hh]

end Scrub

/-! ## Telemetry (R53, R451) -/

section Telemetry

variable (h : Head)

@[simp] theorem Head.railSweep_boot (r uv : Nat) : (h.railSweep r uv).boot = h.boot := by
  unfold Head.railSweep
  dsimp only
  split_ifs <;> simp

@[simp] theorem Head.tempSweep_boot (t : Int) : (h.tempSweep t).boot = h.boot := by
  unfold Head.tempSweep
  simp only [Head.setLog_boot, apply_ite Head.boot, Head.raise_boot, Head.put_boot, ite_self]

@[simp] theorem Head.hourSweep_boot (t : Int) : (h.hourSweep t).boot = h.boot := by
  unfold Head.hourSweep
  simp only [apply_ite Head.boot, Head.raise_boot, Head.bump_boot, Head.setLog_boot, ite_self]

theorem Head.telemetry_sweeps (temp : Int) (a b c d e : Nat) :
    h.telemetry temp [a, b, c, d, e] =
      (((((((h.forward (h.time.mt.tickOf ((h.mtNs / 10000000 + 1) * 10000000 * 2 ^ 32))).railSweep 0 a).railSweep 1 b).railSweep 2 c).railSweep
        3 d).railSweep 4 e).tempSweep temp).hourSweep temp := by
  simp only [Head.telemetry, List.take_succ_cons, List.take_zero, List.zipIdx_cons, List.zipIdx_nil, List.foldl_cons, List.foldl_nil]

end Telemetry

/-! ## Recalibration (R450) -/

section Recalibration

variable (h : Head)

@[simp] theorem Head.calFault_boot (k : Nat) : (h.calFault k).boot = h.boot := by
  rw [Head.calFault, Head.raise_boot, Head.orReg_boot]

@[simp] theorem Head.calLane_boot (c : CalRound) (n : Nat) : (h.calLane c n).boot = h.boot := by
  unfold Head.calLane
  split
  · exact h.calFault_boot _
  · simp only [apply_ite Head.boot, Head.calFault_boot, Head.setLog_boot, ite_self]

theorem Head.calFault_keepsReg {a : Nat} (ha : a < 0x120000) (k : Nat) : KeepsReg a h (h.calFault k) :=
  ((KeepsReg.refl h).wr (by simp only [BKG_CAL]; omega) _).trans (Head.raise_keepsReg ha _ _ _ _)

/-- Which lanes are in use stands in the recipe, LANE_TOPO and RED_CFG. -/
theorem Head.lanesUsed_congr {h g : Head} (hb : g.boot = h.boot) (ht : KeepsReg LANE_TOPO h g) (hc : KeepsReg RED_CFG h g) :
    g.lanesUsed = h.lanesUsed := by
  have hfld {f : Fld} (hf : KeepsReg f.addr h g) : g.fld f = h.fld f := congrArg (bits · f.hi f.lo) hf
  have htopo (c : Nat) : g.topo c = h.topo c := by
    unfold Head.topo
    split_ifs
    · exact hfld ht
    · exact hfld ht
  have hpaired : g.paired = h.paired := congrArg (· != 0) (hfld hc)
  have hside : g.side = h.side := hfld hc
  have hll : g.on LANE_TOPO_LL_USED = h.on LANE_TOPO_LL_USED := congrArg (· != 0) (hfld ht)
  have hcontent : g.content? = h.content? := congrArg (fun b => b.recipe.map (·.content)) hb
  simp only [Head.lanesUsed, Head.fieldLanes, htopo, hpaired, hside, hll, hcontent]

/-- The round's ADC results are judged on the head as it stands, and a fault of theirs takes no lane out of use. -/
theorem Head.recalibrate_eq (c : CalRound) {held : List (Option (Int × Int))}
    (hheld : (c.adc.take 8).zipIdx.map (fun x => x.1.filter (h.calHolds (10 + x.2))) = held) :
    h.recalibrate c = h.lanesUsed.foldl (Head.calLane c) ((if held.any (·.isNone) then h.calFault 0 else h).setLog (fun l =>
      { l with adcCorr := l.adcCorr.zipIdx.map (fun x => (held.getD x.2 none).getD x.1) })) := by
  have hlanes (f : Log → Log) : ((if held.any (·.isNone) then h.calFault 0 else h).setLog f).lanesUsed = h.lanesUsed := by
    split_ifs
    · exact Head.lanesUsed_congr (h.calFault_boot 0) (h.calFault_keepsReg (by decide) 0) (h.calFault_keepsReg (by decide) 0)
    · rfl
  unfold Head.recalibrate
  dsimp only
  rw [hheld, hlanes]

end Recalibration

/-! ## The test port (R51) -/

section TestPort

variable (s : State)

@[simp] theorem State.svcEnSeen_tap (b : Bool) : (s.svcEnSeen b).tap = s.tap := by
  unfold State.svcEnSeen
  split_ifs <;> simp

/-- SAMPLE, and EXTEST with BOOT_MODE 0b11, capture the balls and show SVC_EN's level. -/
theorem State.testPort_captures {op : TapOp} (h : op = .sample ∨ op = .extest ∧ s.tap.maintenance = true) (balls scan : Nat) :
    s.testPort op balls scan = ({ s with tap := { s.tap with
      instr := op, data := s.captured balls, boundary := BitVec.ofNat 48 scan } } : State).svcEnSeen (balls.testBit svcEnCell) := by
  unfold State.testPort
  exact if_pos (by simpa using h)

theorem State.testPort_keeps {op : TapOp} (h : ¬(op = .sample ∨ op = .extest ∧ s.tap.maintenance = true)) (balls scan : Nat) :
    s.testPort op balls scan = { s with tap := { s.tap with instr := op, data := if op = .idcode then 0x112803D5 else 0 } } := by
  unfold State.testPort
  exact if_neg (by simpa using h)

/-- Whatever is captured, the port takes the instruction and stays in or out of Maintenance. -/
theorem State.testPort_tap (op : TapOp) (balls scan : Nat) :
    (s.testPort op balls scan).tap.instr = op ∧ (s.testPort op balls scan).tap.maintenance = s.tap.maintenance := by
  by_cases h : op = .sample ∨ op = .extest ∧ s.tap.maintenance = true
  · rw [s.testPort_captures h, State.svcEnSeen_tap]
    exact ⟨rfl, rfl⟩
  · rw [s.testPort_keeps h]
    exact ⟨rfl, rfl⟩

end TestPort

/-! ## The commands of background, view and test port -/

section Commands

variable {s : State} (hs : s.runs)
include hs

/-- SVC_EN low shows in its strap bit and closes an open view. -/
theorem exec_svcEnLow {low : Head} (hlow : low = { s.head with pins := { s.head.pins with svcEn := false } }.put SYS_STRAP_SVC_EN_LIVE 0) :
    exec .svcEnLow s = .next (s.setHead (if s.head.engineer then
      ((low.put SYS_STATUS_ENG_OPEN 0).put SYS_TRIM_CTL_VIEW 0).put HOST_EVT_ENG_CLOSED 1 else low)) := by
  have hopen : low.engineer = s.head.engineer := by
    rw [hlow]
    exact congrArg (· != 0) (Head.fld_put_other _ 0 (by decide))
  have hclose : s.head.svcEnLow = low.closeView true := by rw [hlow, Head.svcEnLow]
  rw [← hopen, ← Head.closeView_event, ← hclose]
  exact State.onHead_next hs rfl (by rw [hclose, Head.closeView_boot, hlow, Head.put_boot])

theorem exec_engIdleClose (he : s.head.engineer = true) :
    exec .engIdleClose s = .next (s.setHead ((((s.head.forward (s.head.host.idleFrom + 120000000000)).put SYS_STATUS_ENG_OPEN 0).put
      SYS_TRIM_CTL_VIEW 0).put HOST_EVT_ENG_CLOSED 1)) :=
  State.onHead_next hs (s.head.engIdleClose_open he) (by simp only [Head.put_boot, Head.forward_boot])

theorem exec_challengeExpiry {t : Nat} (ht : s.head.host.chalTick = some t) :
    exec .challengeExpiry s = .next (s.setHead { (((s.head.forward (t + 200000001)).wr HOST_ENG_CHAL 0).put HOST_ENG_STAT_CHAL_OPEN 0) with
      host := { s.head.host with chalTick := none } }) :=
  State.onHead_next hs (s.head.challengeExpiry_open ht) (s.head.challengeExpiry_open ht ▸ s.head.challengeExpiry_boot)

theorem exec_engineerLockExpiry {t : Nat} (ht : s.head.host.lockFrom = some t) :
    exec .engineerLockExpiry s = .next (s.setHead { s.head with
      now := max s.head.now (t + 12000000000), host := { s.head.host with lockFrom := none } }) :=
  State.onHead_next hs (s.head.lockExpiry_locked ht) rfl

theorem exec_scrubStep_sound {f : ScrubFind} (hw : f.wrap = false) (hb : f.bad = false) :
    exec (.scrubStep f) s = .next (s.setHead (if f.corrected then ((s.head.mended f).bump BKG_ECC_CORR).setLog (fun l =>
      { l with scrubCorr := l.scrubCorr + 1 }) else s.head.struck f)) := by
  refine State.onHead_next hs (s.head.scrubStep_sound hw hb) ?_
  simp only [apply_ite Head.boot, Head.setLog_boot, Head.bump_boot, Head.mended_boot, Head.struck_boot, ite_self]

theorem exec_scrubStep_bad {f : ScrubFind} (hw : f.wrap = false) (hc : f.corrected = false) (hb : f.bad = true) (h0 : f.region ≠ 0)
    (h5 : f.region ≠ 5) (hh : f.host = none) :
    exec (.scrubStep f) s = .next (s.setHead ((((s.head.struck f).bump BKG_ECC_UNC).wr BKG_ECC_ADDR
      (f.region % 16 * 2 ^ 28 + f.addr % 2 ^ 24)).raise 9 1 f.region)) :=
  State.onHead_next hs (s.head.scrubStep_bad hw hc hb h0 h5 hh) (by rw [Head.raise_boot, Head.wr_boot, Head.bump_boot, Head.struck_boot])

theorem exec_telemetry (temp : Int) (a b c d e : Nat) :
    exec (.telemetry temp [a, b, c, d, e]) s = .next (s.setHead ((((((((s.head.forward (s.head.time.mt.tickOf
      ((s.head.mtNs / 10000000 + 1) * 10000000 * 2 ^ 32))).railSweep 0 a).railSweep 1 b).railSweep 2 c).railSweep 3 d).railSweep 4 e).tempSweep
        temp).hourSweep temp)) :=
  State.onHead_next hs (s.head.telemetry_sweeps temp a b c d e)
    (by simp only [Head.hourSweep_boot, Head.tempSweep_boot, Head.railSweep_boot, Head.forward_boot])

theorem exec_recalibration (round : CalRound) {held : List (Option (Int × Int))}
    (hheld : (round.adc.take 8).zipIdx.map (fun x => x.1.filter (s.head.calHolds (10 + x.2))) = held) :
    exec (.recalibration round) s = .next (s.setHead (s.head.lanesUsed.foldl (Head.calLane round)
      ((if held.any (·.isNone) then s.head.calFault 0 else s.head).setLog (fun l =>
        { l with adcCorr := l.adcCorr.zipIdx.map (fun x => (held.getD x.2 none).getD x.1) })))) := by
  refine State.onHead_next hs (s.head.recalibrate_eq round hheld) ?_
  rw [Head.foldl_boot _ _ (fun g n => g.calLane_boot round n), Head.setLog_boot, apply_ite Head.boot, Head.calFault_boot, ite_self]

end Commands

/-- Settles O39: each clock and each service is one equation of the head that asks for nothing beyond it, and the test port takes its
instruction whether it captures or not. -/
theorem viewEndsAndServicesRun : Obligations.ViewEndsAndServicesRun := by
  refine ⟨fun s hs => ⟨exec_svcEnLow hs rfl, exec_engIdleClose hs, fun t ht => exec_challengeExpiry hs ht,
    fun t ht => exec_engineerLockExpiry hs ht⟩, fun s hs => ?_⟩
  refine ⟨fun f hw hb => exec_scrubStep_sound hs hw hb, fun f hw hc hb h0 h5 hh => exec_scrubStep_bad hs hw hc hb h0 h5 hh,
    exec_telemetry hs, fun round => exec_recalibration hs round rfl, fun op balls scan => ?_⟩
  obtain ⟨hi, hm⟩ := s.testPort_tap op balls scan
  refine ⟨fun hc => ?_, fun h1 h2 => ?_, _, rfl, ?_, ?_⟩
  · exact congrArg Host.Outcome.next (s.testPort_captures hc balls scan)
  · exact congrArg Host.Outcome.next (s.testPort_keeps (not_or.mpr ⟨h1, h2⟩) balls scan)
  · simp only [TestPort.drives, hi, hm, Bool.and_eq_true, Bool.or_eq_true, beq_iff_eq]
  · simp only [TestPort.floats, hi, hm, Bool.and_eq_true, beq_iff_eq]

end Sys2Proof.Machine
end

section
namespace Sys2Proof.Machine

/-! ## The commands that reach beyond the head, and one step of the machine (R12, R16) -/

/-- What a command that reaches beyond the head makes of the machine. -/
inductive WideStep (s : State) : State → Prop
  | logRecordWrite (fails : LogEnd) : WideStep s (s.logRecordWrite fails)
  | testPort (op : TapOp) (balls scan : Nat) : WideStep s (s.testPort op balls scan)
  | flashDone (good : Bool) : WideStep s (s.flashDone good)
  | watchdogToggle (armed : Bool) : WideStep s (s.watchdogToggle armed)
  | paramTransfer (sound : Bool) : WideStep s (s.paramTransfer sound)
  | evaluationCycle (x : EvalIn) : WideStep s (s.evaluationCycle x)
  | islandRecord (sound : Bool) : WideStep s (s.islandRecord sound)
  | earlyOff (n : Nat) : WideStep s (s.earlyOff n)
  | islandWdChange (tick : Nat) : WideStep s (s.islandWdChange tick)
  | vddSafeLoss : WideStep s s.vddSafeLoss
  | dropOut (torn : Option Nat) (cause : Nat) : WideStep s (s.dropOut torn cause)
  | sequence (mode : Nat) (role svcEn romOk : Bool) : WideStep s (s.sequence mode role svcEn romOk)

theorem exec_wideStep {c : Instr} {s t : State} (hc : wideCommand c = true) (ht : exec c s = .next t) : WideStep s t := by
  cases c
  case logRecordWrite b => exact next_inj ht ▸ .logRecordWrite b
  case testPortInstruction o b n => exact next_inj ht ▸ .testPort o b n
  case flashOperationDone g => exact next_inj ht ▸ .flashDone g
  case watchdogToggle a => exact next_inj ht ▸ .watchdogToggle a
  case paramTransfer b => exact next_inj ht ▸ .paramTransfer b
  case evaluationCycle x => exact next_inj ht ▸ .evaluationCycle x
  case islandRecord b => exact next_inj ht ▸ .islandRecord b
  case earlyOff n => exact next_inj ht ▸ .earlyOff n.val
  case islandWdChange x => exact next_inj ht ▸ .islandWdChange x
  case vddSafeLoss => exact next_inj ht ▸ .vddSafeLoss
  case porstAssert n => exact next_inj ht ▸ .dropOut n 2
  case mainRailLoss n => exact next_inj ht ▸ .dropOut n 1
  case resetSequence m r v o => exact next_inj ht ▸ .sequence m.val r v o
  all_goals exact absurd hc Bool.false_ne_true

/-- What one step makes of the machine: a tick of an empty queue, a command for the head, a step of the island alone, or a command that
reaches beyond the head. `u` is the machine with the front command taken off its queue. -/
theorem step_cases {s t : State} (ht : step s = .next t) :
    t = s.idle ∨ ∃ u : State, u.head = s.head ∧ u.store = s.store ∧
      ((∃ r f, t = u.onHeadThen r f) ∨ (∃ f, t = u.onIsland f) ∨ WideStep u t) := by
  cases hp : s.pending with
  | nil => exact .inl (next_inj ((step_empty s hp).symm.trans ht))
  | cons c rest =>
    have hexec : exec c { s with pending := rest } = .next t := by
      rw [← step_cons, ← hp]
      exact ht
    refine .inr ⟨{ s with pending := rest }, rfl, rfl, ?_⟩
    rcases exec_cases c { s with pending := rest } with ⟨r, f, e⟩ | ⟨-, f, e⟩ | hwide
    · exact .inl ⟨r, f, next_inj (e.symm.trans hexec)⟩
    · exact .inr (.inl ⟨f, next_inj (e.symm.trans hexec)⟩)
    · exact .inr (.inr (exec_wideStep hwide hexec))

/-- To the head the loss of VDD_SAFE is a command of its own, once the island and its wires are gone. -/
theorem State.vddSafeLoss_onHead (s : State) : ∃ (u : State) (f : Head → Head), u.head = s.head ∧ u.store = s.store ∧ s.vddSafeLoss = u.onHead f :=
  ⟨{ s with island := .off, wires := { s.wires with early := 0, ack := 0, askOff := false } }, _, rfl, rfl, rfl⟩

@[simp] theorem State.idle_store (s : State) : s.idle.store = s.store := by
  unfold State.idle; split_ifs <;> rfl

end Sys2Proof.Machine
end

section
namespace Sys2Proof.Machine

/-! ## The stores keep their canonical form (R60, R77) -/

variable {s t : State}

theorem Store.wf_congr {a b : Store} (h : a = b) (hb : b.wf = true) : a.wf = true := h ▸ hb

theorem State.wf_svcEnSeen (b : Bool) (h : s.store.wf = true) : (s.svcEnSeen b).store.wf = true := by
  unfold State.svcEnSeen
  split_ifs
  · exact State.wf_onHead _ h
  · exact State.wf_onHead _ h
  · exact h

theorem State.wf_testPort (op : TapOp) (balls scan : Nat) (h : s.store.wf = true) : (s.testPort op balls scan).store.wf = true := by
  by_cases hc : op = .sample ∨ op = .extest ∧ s.tap.maintenance = true
  · rw [s.testPort_captures hc]
    exact State.wf_svcEnSeen _ h
  · rw [s.testPort_keeps hc]
    exact h

theorem WideStep.wf (hst : WideStep s t) (h : s.store.wf = true) : t.store.wf = true := by
  cases hst with
  | logRecordWrite b => exact State.wf_logRecordWrite b h
  | testPort o b n => exact State.wf_testPort o b n h
  | flashDone g => exact State.wf_flashDone g h
  | dropOut n c => exact State.wf_dropOut n c h
  | vddSafeLoss => exact State.wf_onHead _ h
  | watchdogToggle a => exact Store.wf_congr (s.watchdogToggle_store a) h
  | paramTransfer b => exact Store.wf_congr (s.paramTransfer_store b) h
  | evaluationCycle x => exact h
  | islandRecord b => exact Store.wf_congr (s.islandRecord_store b) h
  | earlyOff n => exact Store.wf_congr (s.earlyOff_store n) h
  | islandWdChange x => exact Store.wf_congr (s.islandWdChange_store x) h
  | sequence m r v o => exact Store.wf_congr (s.sequence_store m r v o) h

/-- Settles O5: every step writes the flash and the trim store by operations that keep the canonical form, or leaves them alone. -/
theorem storesStayCanonical : Obligations.StoresStayCanonical := by
  intro s t h ht
  rcases step_cases ht with rfl | ⟨u, -, hu, ⟨r, f, rfl⟩ | ⟨f, rfl⟩ | hwide⟩
  · exact Store.wf_congr s.idle_store h
  · exact State.wf_onHeadThen r f (Store.wf_congr hu h)
  · exact Store.wf_congr hu h
  · exact hwide.wf (Store.wf_congr hu h)

end Sys2Proof.Machine
end
section
namespace Sys2Proof.Machine

/-! ## The key store and the unique ID (R65, R66, R79) -/

/-- The key store is programmed, or its programming has failed. -/
def KeyStore.spent (k : KeyStore) : Prop := k.locked = true ∨ k.fault = true

/-- In `u` a spent key store and the unique ID are as in `s`. -/
def Store.KeepsOnce (s u : Store) : Prop := (s.key.spent → u.key = s.key) ∧ u.uid = s.uid

theorem Store.KeepsOnce.of_eq {s u : Store} (hk : u.key = s.key) (hu : u.uid = s.uid) : s.KeepsOnce u := ⟨fun _ => hk, hu⟩

/-- What an operation keeps of the stores it starts with, it keeps of any equal to them. -/
theorem Store.KeepsOnce.from_eq {s s' u : Store} (hs : s' = s) (h : s'.KeepsOnce u) : s.KeepsOnce u := hs ▸ h

theorem Store.KeepsOnce.of_store {s u : Store} (h : u = s) : s.KeepsOnce u := .of_eq (congrArg Store.key h) (congrArg Store.uid h)

section OneTime

variable (s : State)

/-- A spent key store is not programmed again. -/
theorem State.programKey_spent (h : s.store.key.spent) (r : Option (List Word)) : s.programKey r = s := if_pos h

theorem State.programKey_keepsOnce (r : Option (List Word)) : s.store.KeepsOnce (s.programKey r).store :=
  ⟨fun h => congrArg (fun u => u.store.key) (s.programKey_spent h r), s.programKey_uid r⟩

theorem State.settle_keepsOnce (r : Option (List Word)) : s.store.KeepsOnce (s.settle r).store := by
  rcases s.settle_cases r with ⟨-, e⟩ | ⟨t, ht, -, e⟩
  · exact .of_store (congrArg State.store e)
  · have hstore : t.store = s.store := by rw [ht, State.setHead_store]
    rw [← hstore]
    rcases e with e | e | e | e | e <;> rw [e]
    · exact .of_eq t.cutFlash_key t.cutFlash_uid
    · exact .of_store rfl
    · exact t.programKey_keepsOnce r
    · exact .of_eq t.commitTrim_key t.commitTrim_uid
    · have hkept := t.programKey_keepsOnce r
      exact ⟨fun h => ((t.programKey r).commitTrim_key).trans (hkept.1 h), ((t.programKey r).commitTrim_uid).trans hkept.2⟩

theorem State.onHeadThen_keepsOnce (r : Option (List Word)) (f : Head → Head) : s.store.KeepsOnce (s.onHeadThen r f).store := by
  unfold State.onHeadThen
  split_ifs
  · exact .of_store rfl
  · exact (s.setHead (f s.head)).settle_keepsOnce r

/-! The event log, the flash operations and the resets work on the flash alone. -/

@[simp] theorem State.eraseLog_key (d : Directory) (k : Nat) : (s.eraseLog d k).store.key = s.store.key := id rfl
@[simp] theorem State.eraseLog_uid (d : Directory) (k : Nat) : (s.eraseLog d k).store.uid = s.store.uid := id rfl
@[simp] theorem State.programLog_key (d : Directory) (r : LogRec) (n : Nat) : (s.programLog d r n).store.key = s.store.key := id rfl
@[simp] theorem State.programLog_uid (d : Directory) (r : LogRec) (n : Nat) : (s.programLog d r n).store.uid = s.store.uid := id rfl

@[simp] theorem State.logPrepare_key (d : Directory) : (s.logPrepare d).store.key = s.store.key := by
  unfold State.logPrepare; split <;> simp
@[simp] theorem State.logPrepare_uid (d : Directory) : (s.logPrepare d).store.uid = s.store.uid := by
  unfold State.logPrepare; split <;> simp
@[simp] theorem State.logAhead_key (d : Directory) (b : Bool) : (s.logAhead d b).store.key = s.store.key := by
  unfold State.logAhead; split_ifs <;> simp
@[simp] theorem State.logAhead_uid (d : Directory) (b : Bool) : (s.logAhead d b).store.uid = s.store.uid := by
  unfold State.logAhead; split_ifs <;> simp
@[simp] theorem State.logProgram_key (d : Directory) (r : LogRec) : (s.logProgram d r).store.key = s.store.key := by
  simp [State.logProgram]
@[simp] theorem State.logProgram_uid (d : Directory) (r : LogRec) : (s.logProgram d r).store.uid = s.store.uid := by
  simp [State.logProgram]

theorem State.logRecordWrite_keepsOnce (b : LogEnd) : s.store.KeepsOnce (s.logRecordWrite b).store := by
  unfold State.logRecordWrite
  by_cases hr : s.inReset = true ∨ (!s.head.logFree) = true
  · rw [if_pos hr]
    exact .of_store rfl
  · rw [if_neg hr]
    split
    · split_ifs
      · exact .of_store rfl
      · exact .of_eq (s.logPrepare_key _) (s.logPrepare_uid _)
      · exact .of_eq (by simp) (by simp)
    · exact .of_store rfl

theorem State.dropOut_keepsOnce (n : Option Nat) (cause : Nat) : s.store.KeepsOnce (s.dropOut n cause).store := by
  have reset (t : State) (hk : t.store.key = s.store.key) (hu : t.store.uid = s.store.uid) :
      s.store.KeepsOnce (t.enterReset cause).store := .of_eq (t.cutFlash_key.trans hk) (t.cutFlash_uid.trans hu)
  unfold State.dropOut
  refine reset _ ?_ ?_
  · split
    · split_ifs <;> simp
    · rfl
  · split
    · split_ifs <;> simp
    · rfl

theorem State.flashDone_keepsOnce (g : Bool) : s.store.KeepsOnce (s.flashDone g).store := by
  have ended (x : FlashOp) (h : Head) :
      s.store.KeepsOnce ({ s with head := h, store := if g then s.store.perform x else s.store } : State).store := by
    cases g
    · exact .of_store rfl
    · exact .of_eq (s.store.perform_key x) (s.store.perform_uid x)
  unfold State.flashDone
  by_cases hr : s.inReset = true
  · rw [if_pos hr]
    exact .of_store rfl
  · rw [if_neg hr]
    split
    · exact ended _ _
    · exact ended _ _
    · exact .of_store rfl

theorem State.svcEnSeen_keepsOnce (b : Bool) : s.store.KeepsOnce (s.svcEnSeen b).store := by
  unfold State.svcEnSeen
  split_ifs
  · exact s.onHeadThen_keepsOnce _ _
  · exact s.onHeadThen_keepsOnce _ _
  · exact .of_store rfl

theorem State.testPort_keepsOnce (op : TapOp) (balls scan : Nat) : s.store.KeepsOnce (s.testPort op balls scan).store := by
  by_cases hc : op = .sample ∨ op = .extest ∧ s.tap.maintenance = true
  · rw [s.testPort_captures hc]
    refine .from_eq ?_ (State.svcEnSeen_keepsOnce _ _)
    rfl
  · rw [s.testPort_keeps hc]
    exact .of_store rfl

theorem State.vddSafeLoss_keepsOnce : s.store.KeepsOnce s.vddSafeLoss.store := by
  obtain ⟨u, f, -, hstore, e⟩ := s.vddSafeLoss_onHead
  rw [e]
  exact .from_eq hstore (u.onHeadThen_keepsOnce none f)

end OneTime

/-- No command that reaches beyond the head works on a spent key store or the unique ID. -/
theorem WideStep.keepsOnce {s t : State} (hst : WideStep s t) : s.store.KeepsOnce t.store := by
  cases hst with
  | logRecordWrite b => exact s.logRecordWrite_keepsOnce b
  | testPort o b n => exact s.testPort_keepsOnce o b n
  | flashDone g => exact s.flashDone_keepsOnce g
  | dropOut n c => exact s.dropOut_keepsOnce n c
  | vddSafeLoss => exact s.vddSafeLoss_keepsOnce
  | watchdogToggle a => exact .of_store (s.watchdogToggle_store a)
  | paramTransfer b => exact .of_store (s.paramTransfer_store b)
  | evaluationCycle x => exact .of_store rfl
  | islandRecord b => exact .of_store (s.islandRecord_store b)
  | earlyOff n => exact .of_store (s.earlyOff_store n)
  | islandWdChange x => exact .of_store (s.islandWdChange_store x)
  | sequence m r v o => exact .of_store (s.sequence_store m r v o)

/-- Settles O7: of all operations only key programming touches the key store, and it leaves a spent one alone. -/
theorem oneTimeStoresStay : Obligations.OneTimeStoresStay := by
  intro s t ht
  have kept : s.store.KeepsOnce t.store := by
    rcases step_cases ht with rfl | ⟨u, -, hu, ⟨r, f, rfl⟩ | ⟨f, rfl⟩ | hwide⟩
    · exact .of_store s.idle_store
    · exact .from_eq hu (u.onHeadThen_keepsOnce r f)
    · exact .of_store hu
    · exact .from_eq hu hwide.keepsOnce
  exact kept

end Sys2Proof.Machine
end

section
namespace Sys2Proof.Machine

/-! ## What the head asks for beyond itself is done in the step (R55, R66, R78) -/

/-- The head asks for nothing beyond itself. -/
def State.asksNothing (s : State) : Prop := s.head.boot.want = 0

theorem State.asksNothing_of_boot {s t : State} (h : s.asksNothing) (hb : t.head.boot = s.head.boot) : t.asksNothing :=
  (congrArg Boot.want hb).trans h

section Asks

variable {s : State}

@[simp] theorem Head.showTrim_boot (h : Head) (w : Nat → Nat) : (h.showTrim w).boot = h.boot := (h.showTrim_regsOnly w).boot
@[simp] theorem Head.showKey_boot (h : Head) (k : KeyStore) : (h.showKey k).boot = h.boot := (h.showKey_regsOnly k).boot
@[simp] theorem Head.showDirectory_boot (h : Head) : h.showDirectory.boot = h.boot := h.showDirectory_regsOnly.boot
@[simp] theorem Head.readStores_boot (h : Head) (st : Store) : (h.readStores st).boot = h.boot := (h.readStores_logOnly st).boot

@[simp] theorem State.programKey_boot (r : Option (List Word)) : (s.programKey r).head.boot = s.head.boot := by
  unfold State.programKey
  split
  · rfl
  · simp

@[simp] theorem State.commitTrim_boot : s.commitTrim.head.boot = s.head.boot := by
  unfold State.commitTrim State.retrim
  simp

theorem State.settle_asksNothing (r : Option (List Word)) : (s.settle r).asksNothing := by
  rcases s.settle_cases r with ⟨hw, e⟩ | ⟨t, rfl, -, e | e | e | e | e⟩ <;> rw [e]
  · exact hw
  · rfl
  · rfl
  all_goals simp only [State.asksNothing, State.commitTrim_boot, State.programKey_boot, State.setHead_head, Head.setBoot_boot]

theorem State.onHeadThen_asksNothing (h : s.asksNothing) (r : Option (List Word)) (f : Head → Head) : (s.onHeadThen r f).asksNothing := by
  unfold State.onHeadThen
  split_ifs
  · exact h
  · exact State.settle_asksNothing r

@[simp] theorem Head.logWritten_boot (h : Head) (d : Directory) : (h.logWritten d).boot = h.boot := by simp [Head.logWritten]
@[simp] theorem Head.logFailed_boot (h : Head) (d : Directory) : (h.logFailed d).boot = h.boot := by simp [Head.logFailed]
@[simp] theorem Head.aheadFailed_boot (h : Head) : h.aheadFailed.boot = h.boot := by simp [Head.aheadFailed]

@[simp] theorem State.eraseLog_boot (d : Directory) (k : Nat) : (s.eraseLog d k).head.boot = s.head.boot := by
  simp [State.eraseLog]
@[simp] theorem State.programLog_head (d : Directory) (r : LogRec) (n : Nat) : (s.programLog d r n).head = s.head := rfl
@[simp] theorem State.logPrepare_boot (d : Directory) : (s.logPrepare d).head.boot = s.head.boot := by
  unfold State.logPrepare; split <;> simp
@[simp] theorem State.logProgram_boot (d : Directory) (r : LogRec) : (s.logProgram d r).head.boot = s.head.boot := by
  simp [State.logProgram]
@[simp] theorem State.logAhead_boot (d : Directory) (b : Bool) : (s.logAhead d b).head.boot = s.head.boot := by
  unfold State.logAhead; split_ifs <;> simp

@[simp] theorem State.logRecordWrite_boot (b : LogEnd) : (s.logRecordWrite b).head.boot = s.head.boot := by
  unfold State.logRecordWrite
  by_cases hr : s.inReset = true ∨ (!s.head.logFree) = true
  · rw [if_pos hr]
  · rw [if_neg hr]
    split
    · split_ifs <;> simp
    · rfl

@[simp] theorem Head.takePage_boot (h : Head) (b : List Nat) : (h.takePage b).boot = h.boot := h.foldl_boot _ (fun g _ => g.wr_boot _ _) _

theorem State.flashDone_asksNothing (h : s.asksNothing) (g : Bool) : (s.flashDone g).asksNothing := by
  unfold State.flashDone
  by_cases hr : s.inReset = true
  · rw [if_pos hr]
    exact h
  · rw [if_neg hr]
    split
    · dsimp only
      split <;> simpa [State.asksNothing] using h
    · dsimp only
      split <;> simpa [State.asksNothing] using h
    · exact h

theorem State.svcEnSeen_asksNothing (h : s.asksNothing) (b : Bool) : (s.svcEnSeen b).asksNothing := by
  unfold State.svcEnSeen
  split_ifs
  · exact State.onHeadThen_asksNothing h _ _
  · exact State.onHeadThen_asksNothing h _ _
  · exact h

theorem State.testPort_asksNothing (h : s.asksNothing) (op : TapOp) (balls scan : Nat) : (s.testPort op balls scan).asksNothing := by
  by_cases hc : op = .sample ∨ op = .extest ∧ s.tap.maintenance = true
  · rw [s.testPort_captures hc]
    exact State.svcEnSeen_asksNothing (by exact h) _
  · rw [s.testPort_keeps hc]
    exact h

@[simp] theorem Head.soundNow_boot (h : Head) : h.soundNow.boot = h.boot := by
  unfold Head.soundNow
  split
  · rfl
  · split_ifs <;> rfl

@[simp] theorem Head.badRecord_boot (h : Head) : h.badRecord.boot = h.boot := by
  unfold Head.badRecord
  dsimp only
  rw [apply_ite Head.boot, Head.loseIsland_boot, ite_self, Head.setCore_boot, Head.wrapFld, Head.put_boot]

@[simp] theorem Head.takeRecord_boot (h : Head) (record : List Word) (events : List Nat) : (h.takeRecord record events).boot = h.boot := by
  unfold Head.takeRecord
  dsimp only
  rw [Head.foldl_boot _ _ (fun g e => g.raise_boot 7 _ _), Head.loopsStop_boot, Head.foldl_boot _ _ (fun g k => g.commitCode_boot k _),
    Head.soundNow_boot, Head.setCore_boot, Head.foldl_boot _ _ (fun g w => g.wr_boot _ _)]

@[simp] theorem State.islandRecord_boot (sound : Bool) : (s.islandRecord sound).head.boot = s.head.boot := by
  unfold State.islandRecord
  split_ifs <;> simp

@[simp] theorem Head.wdInterval_boot (h : Head) (t : Nat) : (h.wdInterval t).boot = h.boot := by
  unfold Head.wdInterval
  dsimp only
  split
  · simp
  · split_ifs <;> simp

@[simp] theorem State.islandWdChange_boot (t : Nat) : (s.islandWdChange t).head.boot = s.head.boot := by
  unfold State.islandWdChange
  split_ifs <;> simp

@[simp] theorem State.earlyOff_head (n : Nat) : (s.earlyOff n).head = s.head := by
  unfold State.earlyOff; split_ifs <;> rfl

@[simp] theorem State.paramTransfer_head (b : Bool) : (s.paramTransfer b).head = s.head := by
  unfold State.paramTransfer; split <;> (try split_ifs) <;> rfl

@[simp] theorem State.watchdogToggle_boot (b : Bool) : (s.watchdogToggle b).head.boot = s.head.boot := by
  unfold State.watchdogToggle; split_ifs <;> rfl

theorem State.sequenced_want (mode : Nat) (role svcEn : Bool) : (s.sequenced mode role svcEn).boot.want = 0 := by
  simp only [State.sequenced, State.sampled, Head.logAdd_boot, Head.reserveTicket_boot, Head.setHost_boot, Head.put_boot,
    Head.showDirectory_boot, Head.setBoot_boot, Head.readStores_boot, Head.wr_boot]
  rfl

theorem State.sequence_asksNothing (h : s.asksNothing) (mode : Nat) (role svcEn romOk : Bool) :
    (s.sequence mode role svcEn romOk).asksNothing := by
  by_cases hs : s.inReset = true ∧ s.stopped = false
  · cases romOk
    · rw [State.sequence_failed hs.1 hs.2]
      exact h
    · rw [State.sequence_passed hs.1 hs.2, State.asksNothing, State.sequenced_want]
  · unfold State.sequence
    rw [if_pos (by cases hr : s.inReset <;> simp_all)]
    exact h

theorem State.vddSafeLoss_asksNothing (h : s.asksNothing) : s.vddSafeLoss.asksNothing := by
  obtain ⟨u, f, hhead, -, e⟩ := s.vddSafeLoss_onHead
  rw [e]
  exact State.onHeadThen_asksNothing (State.asksNothing_of_boot h (congrArg Head.boot hhead)) none f

theorem State.idle_asksNothing (h : s.asksNothing) : s.idle.asksNothing := by
  unfold State.idle; split_ifs <;> exact h

end Asks

/-- Of the commands that reach beyond the head, none leaves a request behind. -/
theorem WideStep.asksNothing {s t : State} (hst : WideStep s t) (h : s.asksNothing) : t.asksNothing := by
  cases hst with
  | logRecordWrite b => exact State.asksNothing_of_boot h (State.logRecordWrite_boot b)
  | testPort o b n => exact State.testPort_asksNothing h o b n
  | flashDone g => exact State.flashDone_asksNothing h g
  | dropOut n c => rfl
  | vddSafeLoss => exact State.vddSafeLoss_asksNothing h
  | watchdogToggle a => exact State.asksNothing_of_boot h (State.watchdogToggle_boot a)
  | paramTransfer b => exact State.asksNothing_of_boot h (congrArg Head.boot (State.paramTransfer_head b))
  | evaluationCycle x => exact h
  | islandRecord b => exact State.asksNothing_of_boot h (State.islandRecord_boot b)
  | earlyOff n => exact State.asksNothing_of_boot h (congrArg Head.boot (State.earlyOff_head n))
  | islandWdChange x => exact State.asksNothing_of_boot h (State.islandWdChange_boot x)
  | sequence m r v o => exact State.sequence_asksNothing h m r v o

/-- Settles O8: a command for the head settles what it asks for, and no other command asks. -/
theorem nothingStaysAsked : Obligations.NothingStaysAsked := by
  intro s t h ht
  have left : t.asksNothing := by
    rcases step_cases ht with rfl | ⟨u, hu, -, ⟨r, f, rfl⟩ | ⟨f, rfl⟩ | hwide⟩
    · exact State.idle_asksNothing h
    · exact State.onHeadThen_asksNothing (State.asksNothing_of_boot h (congrArg Head.boot hu)) r f
    · exact State.asksNothing_of_boot h (congrArg Head.boot hu)
    · exact hwide.asksNothing (State.asksNothing_of_boot h (congrArg Head.boot hu))
  exact left

end Sys2Proof.Machine
end
section
namespace Sys2Proof.Machine

/-! ## Starting the network, failing a load and stopping the acquisition ask for nothing beyond the head (R56, R68, R76, R137) -/

variable (h : Head)

@[simp] theorem Head.freeTicket_boot (t : Nat) : (h.freeTicket t).boot = h.boot := by
  simp [Head.freeTicket]

@[simp] theorem Head.finishTicket_boot (t status : Nat) (data : List Word) (shadow : Bool) (idx : Nat) :
    (h.finishTicket t status data shadow idx).boot = h.boot := by
  unfold Head.finishTicket
  split_ifs <;> simp

@[simp] theorem Head.recessAbort_boot : h.recessAbort.boot = h.boot := by
  refine (Head.foldl_boot _ _ (fun g x => ?_) _).trans rfl
  split
  · exact g.finishTicket_boot _ _ _ _ _
  · split_ifs <;> simp

@[simp] theorem Head.setLaneState_boot (n k : Nat) : (h.setLaneState n k).boot = h.boot := by
  simp [Head.setLaneState]

@[simp] theorem Head.enableLane_boot (n : Nat) : (h.enableLane n).boot = h.boot := by
  unfold Head.enableLane
  dsimp only
  split_ifs <;> simp

@[simp] theorem Head.laneOff_boot (n : Nat) : (h.laneOff n).boot = h.boot := by
  simp [Head.laneOff]

@[simp] theorem Head.lanesOff_boot : h.lanesOff.boot = h.boot := h.foldl_boot _ (fun g n => g.laneOff_boot n) _

@[simp] theorem Head.relane_boot : h.relane.boot = h.boot := by
  unfold Head.relane Head.lineLanesOff
  rw [Head.foldl_boot _ _ (fun g n => g.enableLane_boot n), Head.foldl_boot _ _ (fun g n => g.laneOff_boot n)]

@[simp] theorem Head.claimEpoch_boot : h.claimEpoch.boot = h.boot := by
  simp [Head.claimEpoch]

@[simp] theorem Head.setSteer_boot (f : Steering → Steering) : (h.setSteer f).boot = h.boot := id rfl
@[simp] theorem Head.setRc_boot (f : RollCall → RollCall) : (h.setRc f).boot = h.boot := id rfl
@[simp] theorem Head.rcLanesInit_boot : h.rcLanesInit.boot = h.boot := h.setRc_boot _

@[simp] theorem Head.restMt_boot : h.restMt.boot = h.boot := by
  unfold Head.restMt
  dsimp only
  split_ifs <;> simp [Head.runMt]

@[simp] theorem Head.rcFreeTickets_boot : h.rcFreeTickets.boot = h.boot := by
  refine h.foldl_boot _ (fun g x => ?_) _
  cases x.held <;> dsimp only <;> split_ifs <;> simp

@[simp] theorem Head.rcStation_boot (k : Nat) : (h.rcStation k).boot = h.boot := by
  simp [Head.rcStation]

/-- What a Roll Call's start leaves of loading: everything. -/
@[simp] theorem Head.rollCallStart_boot : h.rollCallStart.boot = h.boot := by
  simp [Head.rollCallStart, Head.foldl_boot, apply_ite Head.boot, Head.wrapFld]

@[simp] theorem Head.listen_boot : h.listen.boot = h.boot := by
  simp [Head.listen]

@[simp] theorem Head.startNetwork_want : h.startNetwork.boot.want = h.boot.want := by
  unfold Head.startNetwork
  dsimp only
  split_ifs
  · rw [Head.listen_boot, Head.foldl_boot _ _ (fun g n => g.enableLane_boot n), Head.setBoot_boot]
  · rw [Head.rollCallStart_boot, Head.setBoot_boot]

@[simp] theorem Head.noteFail_boot (code sec : Nat) : (h.noteFail code sec).boot = h.boot := by
  simp [Head.noteFail]

@[simp] theorem Head.enterNoRecipe_want : h.enterNoRecipe.boot.want = h.boot.want := by
  simp [Head.enterNoRecipe]

@[simp] theorem Head.loadFail_want (code sec : Nat) : (h.loadFail code sec).boot.want = h.boot.want := by
  unfold Head.loadFail
  split
  · dsimp only
    split_ifs <;> simp
  · dsimp only
    split_ifs <;> simp
  · dsimp only
    split_ifs <;> simp
  · simp
  · rfl

@[simp] theorem Head.hostLoadFail_want : h.hostLoadFail.boot.want = h.boot.want := by
  unfold Head.hostLoadFail
  dsimp only
  split_ifs <;> simp

@[simp] theorem Head.setAcqState_boot (k : Nat) : (h.setAcqState k).boot = h.boot := h.put_boot _ _

@[simp] theorem Head.acqWrite_boot (i : Nat) (ws : List Word) : (h.acqWrite i ws).boot = h.boot := id rfl

@[simp] theorem Head.acqClose_boot : h.acqClose.boot = h.boot := by
  simp [Head.acqClose, Head.wrapFld]

@[simp] theorem Head.acqStop_boot : h.acqStop.boot = h.boot := by
  unfold Head.acqStop
  split <;> simp

@[simp] theorem Head.acqHalt_boot : h.acqHalt.boot = h.boot := by
  unfold Head.acqHalt
  split <;> simp

end Sys2Proof.Machine
end
section
namespace Sys2Proof.Machine

/-! ## The words of the block BOOT (R56, R59, R70, R72, R80) -/

/-- The registers of BOOT that the requests of start-up, host load, reload, directory and flash are written to. -/
def bootWords : List Nat := [BOOT_RELEASE, BOOT_HL_CTL, BOOT_HL_DATA, BOOT_RELOAD, BOOT_SLOT, BOOT_FLOP_ADDR, BOOT_FLOP]

/-- Any view writes them, each as one word. -/
theorem bootWords_plain : ∀ a ∈ bootWords, plainWord false a = true := by decide +kernel

theorem bootWords_block : ∀ a ∈ bootWords, 0x10000 ≤ a ∧ a < 0x20000 := by decide

/-- The RW bits of three of them, and that GO and ABORT lie within what any view may write. -/
theorem bootWords_masks : stored BOOT_RELEASE = 0 ∧ stored BOOT_HL_CTL = 0xFFFFFF ∧ stored BOOT_FLOP_ADDR = 0xFFFFFFFF ∧
    ∀ e, BOOT_RELEASE_GO.within e = true ∧ BOOT_HL_CTL_ABORT.within e = true := by decide +kernel

theorem Head.writeBlock_bootWord (h : Head) (key : List Nat) {a : Nat} (ha : a ∈ bootWords) (v : Nat) (e : Bool) :
    h.writeBlock key a v e = h.writeBoot a v := by
  obtain ⟨hl, hu⟩ := bootWords_block a ha
  obtain ⟨off, rfl⟩ := Nat.exists_eq_add_of_le hl
  exact h.writeBlock_boot key off v e (by omega)

/-- No reload and no role closes them (Table 03-8, Table 17-6). -/
theorem Head.blockBusy_bootWord (h : Head) {a : Nat} (ha : a ∈ bootWords) : h.blockBusy a = false := by
  have hopen : ∀ a ∈ bootWords, reloadBlock a = false ∧ ([0, 1, 0xF].contains (a / 65536)) = true := by decide
  obtain ⟨hreload, hrole⟩ := hopen a ha
  rw [Head.blockBusy, hreload, hrole, Bool.and_false, Bool.not_true, Bool.and_false, Bool.or_false]

/-- Past the checks of address and access the block's rule alone decides. -/
theorem Head.writeWord_bootWord (h : Head) (key : List Nat) {a : Nat} (ha : a ∈ bootWords) (v : Nat) (e : Bool) :
    h.writeWord key a v e = h.writeBoot a v :=
  (h.writeWord_plain key a v e (plainWord_view (bootWords_plain a ha) e) (h.blockBusy_bootWord ha)).trans
    (h.writeBlock_bootWord key ha v e)

/-! The block's rule for each of them. -/

theorem Head.writeBoot_slot (h : Head) (v : Nat) : h.writeBoot BOOT_SLOT v = h.writeSlot v := by unfold Head.writeBoot; rfl
theorem Head.writeBoot_release (h : Head) (v : Nat) : h.writeBoot BOOT_RELEASE v = h.writeRelease v := by unfold Head.writeBoot; rfl
theorem Head.writeBoot_reload (h : Head) (v : Nat) : h.writeBoot BOOT_RELOAD v = h.writeReload v := by unfold Head.writeBoot; rfl
theorem Head.writeBoot_hlCtl (h : Head) (v : Nat) : h.writeBoot BOOT_HL_CTL v = h.writeHlCtl v := by unfold Head.writeBoot; rfl
theorem Head.writeBoot_hlData (h : Head) (v : Nat) : h.writeBoot BOOT_HL_DATA v = h.writeHlData v := by unfold Head.writeBoot; rfl
theorem Head.writeBoot_flop (h : Head) (v : Nat) : h.writeBoot BOOT_FLOP v = h.writeFlop v := by unfold Head.writeBoot; rfl
theorem Head.writeBoot_flopAddr (h : Head) (v : Nat) : h.writeBoot BOOT_FLOP_ADDR v = (h.store BOOT_FLOP_ADDR v, 0) := by
  unfold Head.writeBoot; rfl

/-- A word whose every bit is RW is taken as it is. -/
theorem Head.store_whole (h : Head) {a v : Nat} (ha : stored a = 0xFFFFFFFF) (hv : v < 2 ^ 32) : h.store a v = h.wr a v := by
  have hnone : bandNot (h.rd a) 0xFFFFFFFF = 0 := by simp [bandNot]
  have hall : band v 0xFFFFFFFF = v := by
    simp only [band, BitVec.toNat_and, BitVec.toNat_ofNat]
    rw [Nat.mod_eq_of_lt hv, show 0xFFFFFFFF % 2 ^ 32 = 2 ^ 32 - 1 by norm_num, Nat.and_two_pow_sub_one_eq_mod, Nat.mod_eq_of_lt hv]
  rw [Head.store, ha, hnone, hall, bor]
  congr 1
  simpa using hv

/-- A reload of slot `slot` that nothing refuses is taken; outside NO_RECIPE no sample is taken and no pass of the table runs from then on. -/
theorem Head.requestReload_taken (h : Head) (slot : Nat)
    (hwhy : (if h.sysState = 6 then (if h.boot.reload ≠ .none then 3 else 0) else h.changeRefuse h.coSafe) = 0) {asked told taken : Head}
    (hasked : asked = (h.put BOOT_RELOAD_REFUSE 0).setBoot (fun b => { b with reload := .accepted slot (h.fld BOOT_STATUS_SLOT) }))
    (htold : told = if h.activePair then asked.setRed (fun r => { r with reloadOut := some (slot, h.bellNo) }) else asked)
    (htaken : taken = (told.put BOOT_RELOAD_SLOT slot).put BOOT_RELOAD_BUSY 1) :
    h.requestReload slot = (if h.sysState = 6 then taken else (taken.acqHalt.put MST_STAT_RUN 0).put SYS_STATUS_STATE 5, 0) := by
  have hfld {f : Fld} (hf : f.addr ≠ BOOT_RELOAD) : asked.fld f = h.fld f := by
    rw [hasked, Head.fld_setBoot, Head.fld_put_other _ _ hf]
  have hpair : asked.activePair = h.activePair := by
    simp only [Head.activePair, Head.paired, Head.on, Head.role, hfld (f := RED_CFG_PAIR) (by decide), hfld (f := RED_STAT_ROLE) (by decide)]
  have hbell : asked.bellNo = h.bellNo := by
    rw [Head.bellNo, hasked, Head.rd_setBoot, Head.rd_put_other _ _ (by decide), ← Head.bellNo]
  have hstate : taken.sysState = h.sysState := by
    have htells : told.sysState = asked.sysState := by rw [htold]; split_ifs <;> rfl
    rw [htaken, Head.sysState, Head.fld_put_other _ _ (by decide), Head.fld_put_other _ _ (by decide), ← Head.sysState, htells]
    exact hfld (by decide)
  have hslot : (h.put BOOT_RELOAD_REFUSE 0).fld BOOT_STATUS_SLOT = h.fld BOOT_STATUS_SLOT := Head.fld_put_other _ _ (by decide)
  unfold Head.requestReload
  dsimp only
  rw [hwhy, if_neg (by simp), hslot, ← hasked, hpair, hbell, ← htold, ← htaken, hstate]
  split_ifs <;> rfl

theorem Head.writeReload_request (h : Head) {slot : Nat} (hslot : slot < 16) : h.writeReload (slot + 256) = h.requestReload slot := by
  have hreq : bit (slot + 256) 8 = true := by
    simp only [bit, beq_iff_eq]
    omega
  have hnum : bits (slot + 256) 3 0 = slot := by
    simp only [bits]
    omega
  rw [Head.writeReload, if_pos hreq, hnum]

/-- An operation on the flash that nothing forbids begins (R80). -/
theorem Head.writeFlop_begins {h : Head} {op addr len : Nat} {x : FlashOp} (hop : 1 ≤ op ∧ op ≤ 3) (hfree : h.boot.flop = none)
    (haddr : h.rd BOOT_FLOP_ADDR = addr) (hlen : len = if op = 1 then 4096 else 256) (halign : addr % len = 0)
    (hmay : op = 3 ∨ h.serviceState = true ∨ h.flashProtected addr len = false)
    (hx : x = if op = 1 then .erase addr else if op = 2 then .program addr ((List.range 64).map (fun k =>
      BitVec.ofNat 32 (h.rd (BOOT_FLOP_DATA k)))) else .read addr) :
    h.writeFlop op = ((h.setBoot (fun b => { b with flop := some x })).put BOOT_FLOP_RESULT 1, 0) := by
  have hop7 : bits op 2 0 = op := by
    simp only [bits]
    omega
  have hgo : ¬(addr % len ≠ 0 ∨ op ≠ 3 ∧ (!h.serviceState) = true ∧ h.flashProtected addr len = true) := by
    rintro (hc | ⟨h3, hs, hp⟩)
    · exact hc halign
    · rcases hmay with hm | hm | hm
      · exact h3 hm
      · simp [hm] at hs
      · simp [hm] at hp
  unfold Head.writeFlop
  dsimp only
  rw [hop7, haddr, ← hlen, if_neg (by omega), if_neg (by simp [hfree]), if_neg (by omega), if_neg hgo, ← hx]

/-- What the address of an operation leaves as it was. -/
theorem Head.flashProtected_wr (h : Head) (a v addr len : Nat) : (h.wr a v).flashProtected addr len = h.flashProtected addr len := by
  simp only [Head.flashProtected, Head.wr_boot]

theorem Head.serviceState_wr (h : Head) {a : Nat} (ha : a ≠ SYS_STATUS) (v : Nat) : (h.wr a v).serviceState = h.serviceState := by
  simp only [Head.serviceState, Head.sysState, h.fld_wr_other (g := SYS_STATUS_STATE) v (Ne.symm ha)]

/-- A rewrite of the directory (R59): the other copy takes the next sequence number with the selection and the fallback written. -/
theorem Head.writeSlot_update (h : Head) {sel fb v : Nat} (hsel : sel < 16) (hfb : fb ≤ 15 ∨ fb = 255) {d n : Directory}
    (hd : h.boot.dir = some d) (hop : h.boot.dirOp = none)
    (hn : n = { d with copyB := !d.copyB, seq := (d.seq + 1) % 2 ^ 32, selSlot := sel, fallback := fb })
    (hv : v = sel + fb * 256 + 65536) :
    h.writeSlot v = ((((h.put BOOT_SLOT_SEL sel).put BOOT_SLOT_FALLBACK fb).setBoot (fun b =>
      { b with dirOp := some (.directory n.copyB n.bytes) })).put BOOT_SLOT_UPDATE 1, 0) := by
  have hupd : bit v 16 = true := by
    simp only [bit, beq_iff_eq]
    omega
  have hs7 : bits v 7 0 = sel := by
    simp only [bits]
    omega
  have hf15 : bits v 15 8 = fb := by
    simp only [bits]
    omega
  have hstored : ((h.put BOOT_SLOT_SEL sel).put BOOT_SLOT_FALLBACK fb).boot.dir = some d := hd
  unfold Head.writeSlot
  dsimp only
  rw [hupd, hs7, hf15, if_neg (by simp [hd, hop]), if_neg (by omega), hstored, hn]

section Requests

variable {s : State} (hs : s.serves)
include hs

/-- One accepted word of BOOT. -/
theorem State.write_boot {a w : Nat} {h' : Head} (ha : a ∈ bootWords) (hw : w < 2 ^ 32) (hb : s.head.writeBoot a w = (h', 0))
    (hq : h'.boot.want = s.head.boot.want) : s.write [(a, w)] = s.accepted h' [(a, BitVec.ofNat 32 w)] :=
  s.write_one a w h' hs (plainWord_view (bootWords_plain a ha) _) hw ((Head.writeBlock_bootWord _ _ ha _ _).trans hb) (hq.trans hs.1.2)

/-- Two accepted words of BOOT. -/
theorem State.write_bootTwo {a b : Nat} {v w : Word} {h₁ h₂ : Head} (ha : a ∈ bootWords) (hb : b ∈ bootWords)
    (hv : s.head.writeBoot a v.toNat = (h₁, 0)) (hw : h₁.writeBoot b w.toNat = (h₂, 0)) (hq : h₂.boot.want = s.head.boot.want) :
    s.write [(a, v.toNat), (b, w.toNat)] = s.accepted h₂ [(a, v), (b, w)] := by
  have hmap : ∀ a ∈ bootWords, ∀ b ∈ bootWords, addrFault [a, b] = none := by decide +kernel
  have hdeny (c : Nat) (hc : c ∈ bootWords) : writeDenied s.head.engineer c = false := by
    have hp := plainWord_view (bootWords_plain c hc) s.head.engineer
    simp only [plainWord, Bool.and_eq_true, Bool.not_eq_true'] at hp
    obtain ⟨⟨⟨⟨-, hopen⟩, -⟩, -⟩, -⟩ := hp
    exact hopen
  have hrun : s.head.runWrites s.key s.head.engineer [(a, v), (b, w)] = (h₂, none) := by
    simp [Head.runWrites, List.zipIdx, Head.writeWord_bootWord _ _ ha, Head.writeWord_bootWord _ _ hb, hv, hw]
  obtain ⟨late, hcommit⟩ := s.head.commitWrite_ok s.key s.head.engineer [(a, v), (b, w)] h₂ (hmap a ha b hb) (by simp [hdeny a ha, hdeny b hb]) hrun
  have hmirror (l : List (Nat × Word)) : (h₂.mirrorWrites l).boot = h₂.boot := by
    unfold Head.mirrorWrites; split_ifs <;> rfl
  have hdirect : s.head.directWrite s.key [(a, v), (b, w)] =
      (h₂.mirrorWrites [(a, v), (b, w)]).accepted.setHost (fun p => { p with last := 0 }) := by
    simp only [Head.directWrite, hcommit, if_true]
  unfold State.write State.accepted
  simp only [List.map_cons, List.map_nil, BitVec.ofNat_toNat, BitVec.setWidth_eq]
  rw [State.onHead_eq s _ hs.1.1, hdirect]
  rw [hdirect, Head.setHost_boot, Head.accepted, Head.setHost_boot, hmirror, hq, hs.1.2]

/-! ### BOOT_RELEASE and the host load (R56, R70) -/

theorem exec_bootRelease (h : s.head.sysState = 2) :
    exec .bootRelease s = .next (s.accepted s.head.startNetwork [(BOOT_RELEASE, 1)]) := by
  obtain ⟨hstored, -, -, hin⟩ := bootWords_masks
  have hword : s.head.fieldWord BOOT_RELEASE_GO 1 = 1 := by
    unfold Head.fieldWord
    rw [hstored]
    simp [band, putBits, bits]
  have hrule : s.head.writeBoot BOOT_RELEASE 1 = (s.head.startNetwork, 0) := by
    rw [Head.writeBoot_release, Head.writeRelease, if_pos ⟨rfl, h⟩]
  have hwrite := s.writeField_one BOOT_RELEASE_GO 1 _ hs (plainWord_view (bootWords_plain BOOT_RELEASE (by decide)) _) (hin _).1
    ((Head.writeBlock_bootWord _ _ (by decide) _ _).trans (hword.symm ▸ hrule)) ((Head.startNetwork_want _).trans hs.1.2)
  rw [hword] at hwrite
  exact congrArg Host.Outcome.next hwrite

theorem exec_hostLoadStart {len : Nat} (h16 : len % 16 = 0) (hl : 512 ≤ len) (hu : len ≤ 0x800000) (hm : s.head.fld SYS_STRAP_BOOT_MODE = 2) :
    exec (.hostLoadStart len) s = .next (s.accepted ((s.head.put BOOT_HL_CTL_LEN len).setBoot (fun b =>
      { b with hl := some ⟨len, [], s.head.now⟩, hostImage := none })) [(BOOT_HL_CTL, BitVec.ofNat 32 (2 ^ 31 + len))]) := by
  have hstart : bit (2 ^ 31 + len) 31 = true := by
    simp only [bit, beq_iff_eq]
    omega
  have hlen : bits (2 ^ 31 + len) 23 0 = len := by
    simp only [bits]
    omega
  have hrule : s.head.writeHlCtl (2 ^ 31 + len) = ((s.head.put BOOT_HL_CTL_LEN len).setBoot (fun b =>
      { b with hl := some ⟨len, [], s.head.now⟩, hostImage := none }), 0) := by
    unfold Head.writeHlCtl
    dsimp only
    rw [hstart, hlen, if_pos rfl, if_neg (by simp [hm]), if_neg (by omega)]
  have hwrite := State.write_boot hs (a := BOOT_HL_CTL) (w := 2 ^ 31 + len) (by decide) (by omega)
    ((s.head.writeBoot_hlCtl _).trans hrule) rfl
  rw [← hwrite]
  change Host.Outcome.next (s.write [(BOOT_HL_CTL, 2 ^ 31 + len % 2 ^ 24)]) = _
  rw [Nat.mod_eq_of_lt (show len < 2 ^ 24 by omega)]

theorem exec_hostLoadAbort (h : s.head.boot.hl.isSome = true ∨ s.head.boot.hostImage.isSome = true) :
    exec .hostLoadAbort s = .next (s.accepted s.head.hostLoadFail
      [(BOOT_HL_CTL, BitVec.ofNat 32 (s.head.fieldWord BOOT_HL_CTL_ABORT 1))]) := by
  obtain ⟨-, hstored, -, hin⟩ := bootWords_masks
  have hstart : bit (s.head.fieldWord BOOT_HL_CTL_ABORT 1) 31 = false := by
    rw [bit_eq_bits, s.head.bits_fieldWord_other BOOT_HL_CTL_ABORT 1 31 (by decide) (by decide) (.inl (by decide)), hstored]
    simp [bits]
  have habort : bit (s.head.fieldWord BOOT_HL_CTL_ABORT 1) 30 = true := by
    rw [bit_eq_bits, s.head.bits_fieldWord_same BOOT_HL_CTL_ABORT 1 (by decide)]
    rfl
  have hrule : s.head.writeHlCtl (s.head.fieldWord BOOT_HL_CTL_ABORT 1) = (s.head.hostLoadFail, 0) := by
    unfold Head.writeHlCtl
    dsimp only
    rw [hstart, habort, if_neg Bool.false_ne_true, if_pos rfl, if_pos h]
  exact congrArg Host.Outcome.next (s.writeField_one BOOT_HL_CTL_ABORT 1 _ hs
    (plainWord_view (bootWords_plain BOOT_HL_CTL (by decide)) _) (hin _).2
    ((Head.writeBlock_bootWord _ _ (by decide) _ _).trans ((s.head.writeBoot_hlCtl _).trans hrule))
    ((Head.hostLoadFail_want _).trans hs.1.2))

theorem exec_bootHlData (w : Word) {l : HostLoad} (h : s.head.boot.hl = some l) :
    exec (.bootHlData w) s = .next (s.accepted (if l.len ≤ 4 * (l.words.length + 1) then
        s.head.setBoot (fun b => { b with hl := none, hostImage := some (w :: l.words).reverse })
      else s.head.setBoot (fun b => { b with hl := some ⟨l.len, w :: l.words, s.head.now⟩ })) [(BOOT_HL_DATA, w)]) := by
  have hrule : s.head.writeHlData w.toNat = (if l.len ≤ 4 * (l.words.length + 1) then
        s.head.setBoot (fun b => { b with hl := none, hostImage := some (w :: l.words).reverse })
      else s.head.setBoot (fun b => { b with hl := some ⟨l.len, w :: l.words, s.head.now⟩ }), 0) := by
    unfold Head.writeHlData
    rw [h]
    dsimp only
    rw [BitVec.ofNat_toNat, BitVec.setWidth_eq, List.length_cons]
    split_ifs <;> rfl
  have hwrite := State.write_boot hs (a := BOOT_HL_DATA) (by decide) w.isLt ((s.head.writeBoot_hlData _).trans hrule)
    (by split_ifs <;> rfl)
  rw [BitVec.ofNat_toNat, BitVec.setWidth_eq] at hwrite
  exact congrArg Host.Outcome.next hwrite

/-! ### Reload, directory and flash (R59, R72, R74, R80) -/

theorem exec_bootReloadReq (slot : Fin 16)
    (hwhy : (if s.head.sysState = 6 then (if s.head.boot.reload ≠ .none then 3 else 0) else s.head.changeRefuse s.head.coSafe) = 0)
    {asked told taken : Head}
    (hasked : asked = (s.head.put BOOT_RELOAD_REFUSE 0).setBoot (fun b =>
      { b with reload := .accepted slot.val (s.head.fld BOOT_STATUS_SLOT) }))
    (htold : told = if s.head.activePair then asked.setRed (fun r => { r with reloadOut := some (slot.val, s.head.bellNo) }) else asked)
    (htaken : taken = (told.put BOOT_RELOAD_SLOT slot.val).put BOOT_RELOAD_BUSY 1) :
    exec (.bootReloadReq slot) s = .next (s.accepted (if s.head.sysState = 6 then taken
      else (taken.acqHalt.put MST_STAT_RUN 0).put SYS_STATUS_STATE 5) [(BOOT_RELOAD, BitVec.ofNat 32 (slot.val + 256))]) := by
  have hrule := (s.head.writeBoot_reload _).trans ((s.head.writeReload_request slot.isLt).trans
    (s.head.requestReload_taken slot.val hwhy hasked htold htaken))
  have hwant : taken.boot.want = s.head.boot.want := by
    rw [htaken, Head.put_boot, Head.put_boot, htold, apply_ite Head.boot, Head.setRed_boot, ite_self, hasked, Head.setBoot_boot, Head.put_boot]
  refine congrArg Host.Outcome.next (State.write_boot hs (by decide) (by omega) hrule ?_)
  rw [apply_ite Head.boot, Head.put_boot, Head.put_boot, Head.acqHalt_boot, ite_self, hwant]

theorem exec_bootSlotUpdate (sel : Fin 16) (fb : Fin 256) (hfb : fb.val ≤ 15 ∨ fb.val = 255) {d n : Directory}
    (hd : s.head.boot.dir = some d) (hop : s.head.boot.dirOp = none)
    (hn : n = { d with copyB := !d.copyB, seq := (d.seq + 1) % 2 ^ 32, selSlot := sel.val, fallback := fb.val }) :
    exec (.bootSlotUpdate sel fb) s = .next (s.accepted ((((s.head.put BOOT_SLOT_SEL sel.val).put BOOT_SLOT_FALLBACK fb.val).setBoot (fun b =>
        { b with dirOp := some (.directory n.copyB n.bytes) })).put BOOT_SLOT_UPDATE 1)
      [(BOOT_SLOT, BitVec.ofNat 32 (sel.val + fb.val * 256 + 65536))]) := by
  have hexec : exec (.bootSlotUpdate sel fb) s = .next (s.write [(BOOT_SLOT, sel.val + fb.val * 256 + 65536)]) := id rfl
  obtain ⟨w, hw⟩ : ∃ w, w = sel.val + fb.val * 256 + 65536 := ⟨_, rfl⟩
  have hsel := sel.isLt
  have hfall := fb.isLt
  rw [hexec, ← hw]
  exact congrArg Host.Outcome.next (State.write_boot hs (by decide) (by omega)
    ((s.head.writeBoot_slot _).trans (s.head.writeSlot_update hsel hfb hd hop hn hw)) (by simp))

/-- An operation on the flash: its address, then its number. -/
theorem State.write_flop {addr : Word} {op : Word} {len : Nat} {x : FlashOp} (hop : 1 ≤ op.toNat ∧ op.toNat ≤ 3)
    (hfree : s.head.boot.flop = none) (hlen : len = if op.toNat = 1 then 4096 else 256) (halign : addr.toNat % len = 0)
    (hmay : op.toNat = 3 ∨ s.head.serviceState = true ∨ s.head.flashProtected addr.toNat len = false)
    (hx : x = if op.toNat = 1 then .erase addr.toNat else if op.toNat = 2 then .program addr.toNat ((List.range 64).map (fun k =>
      BitVec.ofNat 32 (s.head.rd (BOOT_FLOP_DATA k)))) else .read addr.toNat) :
    s.write [(BOOT_FLOP_ADDR, addr.toNat), (BOOT_FLOP, op.toNat)] =
      s.accepted (((s.head.wr BOOT_FLOP_ADDR addr.toNat).setBoot (fun b => { b with flop := some x })).put BOOT_FLOP_RESULT 1)
        [(BOOT_FLOP_ADDR, addr), (BOOT_FLOP, op)] := by
  obtain ⟨-, -, hstored, -⟩ := bootWords_masks
  have hdata (k : Nat) : (s.head.wr BOOT_FLOP_ADDR addr.toNat).rd (BOOT_FLOP_DATA k) = s.head.rd (BOOT_FLOP_DATA k) :=
    Head.rd_wr_other _ _ (by simp only [BOOT_FLOP_DATA, BOOT_FLOP_ADDR]; omega)
  have hfirst : s.head.writeBoot BOOT_FLOP_ADDR addr.toNat = (s.head.wr BOOT_FLOP_ADDR addr.toNat, 0) := by
    rw [Head.writeBoot_flopAddr, Head.store_whole _ hstored addr.isLt]
  have hsecond := Head.writeFlop_begins (h := s.head.wr BOOT_FLOP_ADDR addr.toNat) (x := x) hop (by rw [Head.wr_boot, hfree])
    (by rw [Head.rd_wr_same, Nat.mod_eq_of_lt addr.isLt]) hlen halign
    (by rw [Head.serviceState_wr _ (by decide), Head.flashProtected_wr]; exact hmay) (by simp only [hdata]; exact hx)
  exact State.write_bootTwo hs (by decide) (by decide) hfirst ((Head.writeBoot_flop _ _).trans hsecond) (by simp)

end Requests

/-- Settles O26: each request is one word of BOOT (two for the flash) that the block's rule takes. -/
theorem loadAndFlashRequestsRun : Obligations.LoadAndFlashRequestsRun := by
  unfold Obligations.LoadAndFlashRequestsRun
  intro s hs
  have ⟨_, hreload, _⟩ := hs
  refine ⟨fun h => exec_bootRelease hs h, fun len h16 hl hu hm => exec_hostLoadStart hs h16 hl hu hm, fun h => exec_hostLoadAbort hs h,
    fun w l h => exec_bootHlData hs w h, fun slot => ⟨fun h6 => ?_, fun h6 hwhy => ?_⟩,
    fun sel fb d hfb hd hop => exec_bootSlotUpdate hs sel fb hfb hd hop rfl,
    fun addr hfree => ⟨fun halign hmay => ?_, fun halign hmay => ?_, fun halign => ?_⟩⟩
  · have htaken := exec_bootReloadReq hs slot (by rw [if_pos h6]; simp [hreload]) rfl rfl rfl
    rwa [if_pos h6] at htaken
  · have htaken := exec_bootReloadReq hs slot (by rw [if_neg h6]; exact hwhy) rfl rfl rfl
    rwa [if_neg h6] at htaken
  · exact congrArg Host.Outcome.next (State.write_flop hs (op := 1) (by decide) hfree rfl halign (.inr hmay) rfl)
  · exact congrArg Host.Outcome.next (State.write_flop hs (op := 2) (by decide) hfree rfl halign (.inr hmay) rfl)
  · exact congrArg Host.Outcome.next (State.write_flop hs (op := 3) (by decide) hfree rfl halign (.inl rfl) rfl)

end Sys2Proof.Machine
end
section
namespace Sys2Proof.Machine

/-! ## A recipe coming into force asks for nothing beyond the head (R56, R68, R73, R74) -/

variable (h : Head)

/-- Of two heads that keep what is known of loading, either. -/
theorem Head.ite_boot {h a b : Head} {c : Prop} [Decidable c] (ha : a.boot = h.boot) (hb : b.boot = h.boot) :
    (if c then a else b).boot = h.boot := by
  rw [apply_ite Head.boot, ha, hb, ite_self]

@[simp] theorem Head.tell_boot (e : Nat) : (h.tell e).boot = h.boot := id rfl
@[simp] theorem Head.setVm_boot (v : Nat) (f : Vm → Vm) : (h.setVm v f).boot = h.boot := id rfl
@[simp] theorem Head.freshParts_boot (c : Content) (same : Bool) : (h.freshParts c same).boot = h.boot := id rfl

@[simp] theorem Head.freshNet_boot (same : Bool) : (h.freshNet same).boot = h.boot := by
  cases same <;> rfl

@[simp] theorem Head.recipeRegs_boot (r : Recipe) : (h.recipeRegs r).boot = h.boot := by
  simp [Head.recipeRegs, Head.foldl_boot]

@[simp] theorem Head.fillShunt_boot (k : Nat) : (h.fillShunt k).boot = h.boot := by
  simp [Head.fillShunt, Head.foldl_boot, apply_ite Head.boot]

@[simp] theorem Head.takeReference_boot : h.takeReference.boot = h.boot := by
  unfold Head.takeReference
  extract_lets stop stepped
  have hstop (g : Head) : (stop g).boot = g.boot := g.setSteer_boot _
  have hstepped : stepped.boot = h.boot := Head.ite_boot (h.put_boot _ _) rfl
  split
  · rw [Head.setSteer_boot, hstop, Head.put_boot, Head.put_boot, Head.put_boot]
  · refine Head.ite_boot hstepped ?_
    split
    · rw [Head.put_boot, hstepped]
    · rw [hstop, Head.put_boot, Head.put_boot, hstepped]

@[simp] theorem Head.carryVm_boot (old : Head) (v : Nat) : (old.carryVm h v).boot = h.boot := by
  simp [Head.carryVm, Head.vmRebase, apply_ite Head.boot]

@[simp] theorem Head.carryLoop_boot (old : Head) (i : Nat) : (old.carryLoop h i).boot = h.boot := by
  simp [Head.carryLoop, apply_ite Head.boot]

@[simp] theorem Head.setTaskState_boot (t k : Nat) : (h.setTaskState t k).boot = h.boot := h.put_boot _ _

@[simp] theorem Head.enableTask_boot (t : Nat) : (h.enableTask t).boot = h.boot := by
  simp [Head.enableTask, apply_ite Head.boot, Head.setFlag_boot]

@[simp] theorem Head.install_want (r : Recipe) (fallback : Bool) : (h.install r fallback).boot.want = h.boot.want := by
  unfold Head.install
  extract_lets same net regs shunts _ timed _ b _ _ inForce vms loops tasks runs
  have hshunts : shunts.boot = h.boot := by
    rw [Head.foldl_boot _ _ (fun g k => g.fillShunt_boot k), Head.recipeRegs_boot, Head.freshNet_boot, Head.freshParts_boot]
  have hforce : inForce.boot = b := Head.takeReference_boot _
  have hwant : b.want = shunts.boot.want := id rfl
  have hruns : runs.boot = inForce.boot := by
    rw [Head.put_boot, Head.foldl_boot _ _ (fun g t => g.enableTask_boot t), Head.foldl_boot _ _ (fun g i => g.carryLoop_boot h i),
      Head.foldl_boot _ _ (fun g v => g.carryVm_boot h v)]
  rw [apply_ite Head.boot, Head.tell_boot, ite_self, hruns, hforce, hwant, hshunts]

@[simp] theorem Head.seeEpoch_boot (e : Nat) : (h.seeEpoch e).boot = h.boot := by
  simp [Head.seeEpoch, apply_ite Head.boot]

@[simp] theorem Head.resumeAt_boot (st : Store) (d : Directory) (por k : Nat) : (h.resumeAt st d por k).boot = h.boot := by
  unfold Head.resumeAt
  extract_lets base records used next clear c seq bumped written seen
  have hwritten : written.boot = h.boot := by rw [Head.wr_boot, Head.wr_boot, Head.bumpBy_boot, Head.bumpBy_boot]
  have hseen : seen.boot = written.boot := by
    unfold seen
    cases c.1 with
    | none => rfl
    | some e => exact written.seeEpoch_boot e
  rw [Head.setLog_boot, hseen, hwritten]

@[simp] theorem Head.takeLog_boot (st : Store) (por : Nat) : (h.takeLog st por).boot = h.boot := by
  unfold Head.takeLog
  split_ifs
  · rfl
  · split
    · rfl
    · split <;> simp

@[simp] theorem Head.reloadIdle_want (r : Recipe) (fallback : Bool) : (h.reloadIdle r fallback).boot.want = h.boot.want := by
  simp [Head.reloadIdle, apply_ite Head.boot]

/-- A load that ends in a recipe asks for nothing beyond the head, where reading the event log does not. -/
theorem Head.loadDone_want (r : Recipe) (us : Nat) {log : Head → Head} (hlog : ∀ g : Head, (log g).boot = g.boot) :
    (h.loadDone r us log).boot.want = h.boot.want := by
  unfold Head.loadDone
  dsimp only
  split
  · split_ifs <;> simp [hlog]
  · split_ifs <;> simp [hlog]
  · split_ifs <;> simp
  · simp

/-! ## The ends of loads and of flash operations (R67 to R70, R80) -/

section Ends

variable {s : State} (hs : s.runs)
include hs

/-- A load that was due ends as its image decides. -/
theorem exec_recipeLoad {src : LoadFrom} (hdue : s.head.loadDue = some src) (c : Content) (refuse : Option Nat) (readFault : Bool)
    (us : Nat) {h' : Head} (hend : s.head.loadEnd (s.checkImage src c refuse readFault) us (fun h => h.takeLog s.store (s.cause % 2)) = h')
    (hwant : h'.boot.want = s.head.boot.want) : exec (.recipeLoad c refuse readFault us) s = .next (s.setHead h') := by
  obtain ⟨hr, hw⟩ := hs
  refine congrArg Host.Outcome.next ?_
  unfold State.recipeLoad
  rw [State.onHead_eq s _ hr] <;> simp only [hdue, hend]
  exact hwant.trans hw

theorem exec_hostLoadTimeout {l : HostLoad} (hl : s.head.boot.hl = some l) :
    exec .hostLoadTimeout s = .next (s.setHead (s.head.forward (l.lastTick + 200000001)).hostLoadFail) := by
  obtain ⟨hr, hw⟩ := hs
  have hfail : s.head.hostLoadTimeout = (s.head.forward (l.lastTick + 200000001)).hostLoadFail := by
    simp only [Head.hostLoadTimeout, hl]
  refine congrArg Host.Outcome.next ?_
  rw [State.onHead_eq s _ hr] <;> simp only [hfail]
  rw [Head.hostLoadFail_want, Head.forward_boot, hw]

theorem exec_flashOperationDone_flop {x : FlashOp} (hx : s.head.boot.flop = some x) {ended : Nat → Head}
    (hended : ended = fun result => (s.head.setBoot (fun b => { b with flop := none })).put BOOT_FLOP_RESULT result) :
    exec (.flashOperationDone false) s = .next (s.setHead (ended 3)) ∧
      exec (.flashOperationDone true) s = .next { s with
        head := match (generalizing := false) x with
          | .read addr => (ended 0).takePage (s.store.bytes addr 256)
          | _ => ended 0
        store := s.store.perform x } := by
  obtain ⟨hr, -⟩ := hs
  have hbad : s.flashDone false = s.setHead (ended 3) := by
    simp [State.flashDone, hr, hx, hended, State.setHead]
  have hgood : s.flashDone true = { s with
      head := match (generalizing := false) x with
        | .read addr => (ended 0).takePage (s.store.bytes addr 256)
        | _ => ended 0
      store := s.store.perform x } := by
    cases x <;> simp [State.flashDone, hr, hx, hended]
  exact ⟨congrArg Host.Outcome.next hbad, congrArg Host.Outcome.next hgood⟩

theorem exec_flashOperationDone_directory {copyB : Bool} {bytes : List Nat} (hflop : s.head.boot.flop = none)
    (hdir : s.head.boot.dirOp = some (.directory copyB bytes)) {ended : Head}
    (hended : ended = (s.head.setBoot (fun b => { b with dirOp := none })).put BOOT_SLOT_UPDATE 0) :
    exec (.flashOperationDone false) s = .next (s.setHead ended) ∧
      exec (.flashOperationDone true) s = .next { s with
        head := (ended.setBoot (fun b => { b with dir := parseDirectory copyB bytes })).showDirectory
        store := s.store.perform (.directory copyB bytes) } := by
  obtain ⟨hr, -⟩ := hs
  have hbad : s.flashDone false = s.setHead ended := by
    simp [State.flashDone, hr, hflop, hdir, hended, State.setHead]
  have hgood : s.flashDone true = { s with
      head := (ended.setBoot (fun b => { b with dir := parseDirectory copyB bytes })).showDirectory
      store := s.store.perform (.directory copyB bytes) } := by
    simp [State.flashDone, hr, hflop, hdir, hended]
  exact ⟨congrArg Host.Outcome.next hbad, congrArg Host.Outcome.next hgood⟩

end Ends

/-- Settles O34: each of these commands acts on the head as its rule says and asks for nothing beyond it. -/
theorem loadsAndFlashOperationsEnd : Obligations.LoadsAndFlashOperationsEnd := by
  unfold Obligations.LoadsAndFlashOperationsEnd
  intro s hs
  refine ⟨fun src c refuse readFault us hdue => ⟨fun code sec himage => ?_, fun r himage => ?_⟩,
    fun l hl => exec_hostLoadTimeout hs hl, fun x hx => exec_flashOperationDone_flop hs hx rfl,
    fun copyB bytes hflop hdir => exec_flashOperationDone_directory hs hflop hdir rfl⟩
  · refine exec_recipeLoad hs hdue c refuse readFault us (by rw [himage, Head.loadEnd]) ?_
    rw [Head.logAdd_boot, Head.loadFail_want, Head.setBoot_boot]
  · refine exec_recipeLoad hs hdue c refuse readFault us (by rw [himage, Head.loadEnd]) ?_
    rw [Head.logAdd_boot, Head.loadDone_want _ _ _ (fun g => g.takeLog_boot _ _), Head.setBoot_boot]

end Sys2Proof.Machine
end
section
namespace Sys2Proof.Machine

/-! ## The motion laws ask for nothing beyond the head (chapters 11 and 12) -/

variable (h : Head)

theorem Head.repeatStep_boot {f : Head → Head} (hf : ∀ g, (f g).boot = g.boot) (n : Nat) : (repeatStep f n h).boot = h.boot := by
  induction n generalizing h with
  | zero => rfl
  | succ n ih => exact (ih (f h)).trans (hf h)

@[simp] theorem Head.draw_boot : h.draw.boot = h.boot := id rfl
@[simp] theorem Head.wrapFld_boot (f : Fld) : (h.wrapFld f).boot = h.boot := h.put_boot _ _
@[simp] theorem Head.wrInt_boot (a : Nat) (v : Int) : (h.wrInt a v).boot = h.boot := h.wr_boot _ _
@[simp] theorem Head.wrQ_boot (a : Nat) (v : Int) : (h.wrQ a v).boot = h.boot := h.wr_boot _ _
@[simp] theorem Head.setMail_boot (n o v : Nat) : (h.setMail n o v).boot = h.boot := id rfl

@[simp] theorem Head.setMailLong_boot (n o : Nat) (v : Int) : (h.setMailLong n o v).boot = h.boot :=
  (Head.setMail_boot _ _ _ _).trans (Head.setMail_boot _ _ _ _)

@[simp] theorem Head.moveDone_boot (n id : Nat) : (h.moveDone n id).boot = h.boot := by
  unfold Head.moveDone
  extract_lets put raised
  have hraised : raised.boot = h.boot := by rw [Head.raise_boot, Head.wrapFld_boot, Head.put_boot]
  exact Head.ite_boot ((Head.raise_boot _ _ _ _).trans hraised) hraised

@[simp] theorem Head.profile_boot (n : Nat) : (h.profile n).boot = h.boot := by
  unfold Head.profile
  extract_lets was res moved limited
  have hlimited : limited.boot = moved.boot := Head.ite_boot (Head.raise_boot _ _ _ _) rfl
  rw [Head.foldl_boot _ _ (fun g id => g.moveDone_boot n id), hlimited, Head.setMot_boot]

@[simp] theorem Head.declutch_boot (n : Nat) : (h.declutch n).boot = h.boot :=
  (Head.setFol_boot _ _ _).trans (Head.put_boot _ _ _)

@[simp] theorem Head.motionFault_boot (n k : Nat) : (h.motionFault n k).boot = h.boot := by
  unfold Head.motionFault
  extract_lets faulted
  refine Head.ite_boot rfl (Head.ite_boot h.diverge_boot ?_)
  rw [Head.setMot_boot, Head.declutch_boot, Head.raise_boot, Head.orReg_boot]

@[simp] theorem Head.stopMove_boot (n c dec after : Nat) : (h.stopMove n c dec after).boot = h.boot :=
  (Head.setMot_boot _ _ _).trans (Head.ite_boot (h.declutch_boot n) rfl)

@[simp] theorem Head.followIsland_boot (e n : Nat) : (h.followIsland e n).boot = h.boot :=
  Head.ite_boot (Head.ite_boot rfl (h.stopMove_boot _ _ _ _)) (Head.ite_boot (h.setMot_boot _ _) rfl)

@[simp] theorem Head.rampBell_boot (n : Nat) : (h.rampBell n).boot = h.boot := by
  unfold Head.rampBell
  extract_lets
  rw [Head.setMot_boot, Head.setMot_boot]
  exact Head.ite_boot (h.raise_boot _ _ _) rfl

@[simp] theorem Head.speedComp_boot (e n : Nat) : (h.speedComp e n).boot = h.boot := by
  unfold Head.speedComp
  extract_lets
  rw [Head.setEngine_boot, Head.setMot_boot, Head.setMot_boot]

@[simp] theorem Head.putRefs_boot (e n : Nat) : (h.putRefs e n).boot = h.boot := h.setEngine_boot _ _

@[simp] theorem Head.holdRefs_boot (e n : Nat) : (h.holdRefs e n).boot = h.boot :=
  (Head.setEngine_boot _ _ _).trans (h.setMot_boot _ _)

@[simp] theorem lawSpeed_boot (div e : Nat) : (lawSpeed div e h).boot = h.boot := by
  unfold lawSpeed
  extract_lets n ctrl followed ramped out
  have hfollowed : followed.boot = h.boot := Head.ite_boot (h.followIsland_boot e n) rfl
  have hramped : ramped.boot = followed.boot :=
    Head.ite_boot (Head.ite_boot rfl (Head.repeatStep_boot _ (fun g => g.rampBell_boot n) div)) (followed.setMot_boot _ _)
  have hout : out.boot = ramped.boot := Head.ite_boot (ramped.putRefs_boot e n) (ramped.speedComp_boot e n)
  refine Head.ite_boot rfl (Head.ite_boot ?_ ?_)
  · exact (Head.motionShow_boot _ n).trans (Head.ite_boot (h.putRefs_boot e n) (h.holdRefs_boot e n))
  · rw [Head.motionShow_boot, hout, hramped, hfollowed]

@[simp] theorem Head.positionLoop_boot (div e n : Nat) : (h.positionLoop div e n).boot = h.boot := by
  unfold Head.positionLoop
  extract_lets m modulo p vff fe vcmd aff feRun tm corr model x off modelRun ran err
  have herr : err.boot = ran.boot := Head.ite_boot (ran.motionFault_boot n 0) rfl
  have hran : ran.boot = h.boot := h.setMot_boot _ _
  exact (Head.ite_boot (err.motionFault_boot n 1) rfl).trans (herr.trans hran)

@[simp] theorem lawPosition_boot (div e : Nat) : (lawPosition div e h).boot = h.boot := by
  unfold lawPosition
  extract_lets n ctrl followed ready moved refs out
  have hfollowed : followed.boot = h.boot := Head.ite_boot (h.followIsland_boot e n) rfl
  have hmoved : moved.boot = followed.boot :=
    Head.ite_boot rfl (Head.ite_boot (Head.repeatStep_boot _ (fun g => g.profile_boot n) div) rfl)
  have hout : out.boot = refs.boot := Head.ite_boot rfl (refs.positionLoop_boot div e n)
  refine Head.ite_boot rfl (Head.ite_boot ?_ ?_)
  · exact (Head.motionShow_boot _ n).trans (Head.ite_boot (h.putRefs_boot e n) rfl)
  · rw [Head.motionShow_boot, hout, Head.putRefs_boot, hmoved, hfollowed]

@[simp] theorem Head.stepRun_boot (e n : Nat) (valid run : Bool) : (h.stepRun e n valid run).boot = h.boot := by
  unfold Head.stepRun
  extract_lets pref moved off loss counted lost
  have hlost : lost.boot = counted.boot := Head.ite_boot (counted.motionFault_boot n 2) rfl
  rw [Head.motionShow_boot, hlost, Head.setMot_boot]

@[simp] theorem camEval_boot (e : Nat) : (camEval e h).boot = h.boot := by
  unfold camEval
  extract_lets n followed
  have hfollowed : followed.boot = h.boot := Head.ite_boot (h.followIsland_boot e n) rfl
  refine Head.ite_boot rfl ?_
  rw [Head.putRefs_boot, Head.setMot_boot, hfollowed]

/-! ## The current laws and the Placement Test (chapter 10) -/

@[simp] theorem Head.catchStart_boot (n : Nat) : (h.catchStart n).1.boot = h.boot := by
  unfold Head.catchStart
  extract_lets recent caught
  split_ifs
  · exact h.faultAxis_boot n 10
  · rw [Head.raise_boot, Head.put_boot, Head.bump_boot, Head.setAxis_boot]

@[simp] theorem Head.ptEnd_boot (n result : Nat) : (h.ptEnd n result).boot = h.boot := by
  unfold Head.ptEnd
  rw [Head.setAxis_boot, Head.put_boot, Head.put_boot]

@[simp] theorem Head.ptAdvance_boot (n : Nat) : (h.ptAdvance n).boot = h.boot :=
  Head.ite_boot (h.ptEnd_boot _ _) ((Head.setAxis_boot _ _ _).trans (h.put_boot _ _))

@[simp] theorem Head.ptBad_boot (n code : Nat) : (h.ptBad n code).boot = h.boot := h.setAxis_boot _ _

@[simp] theorem Head.ptPulse_boot (n : Nat) (di : Int) : (h.ptPulse n di).boot = h.boot := by
  unfold Head.ptPulse
  extract_lets p it d l reps noted md mq written judged
  have hjudged : judged.boot = written.boot := Head.ite_boot rfl (written.ptBad_boot n 7)
  have hwritten : written.boot = h.boot := by rw [Head.wr_boot, Head.wr_boot, Head.setAxis_boot]
  refine Head.ite_boot ?_ (Head.ite_boot (h.setAxis_boot _ _) ?_)
  · exact Head.ite_boot (h.setAxis_boot _ _) (Head.ite_boot ((Head.ptAdvance_boot _ n).trans (h.ptBad_boot n 7)) (h.setAxis_boot _ _))
  · rw [Head.ptAdvance_boot, hjudged, hwritten]

@[simp] theorem Head.ptEncoder_boot (n : Nat) (dc back err : Int) (runs : Nat) : (h.ptEncoder n dc back err runs).boot = h.boot := by
  unfold Head.ptEncoder
  extract_lets cpr d pp written judged
  have hwritten : written.boot = h.boot := (Head.putBit_boot _ _ _).trans (h.put_boot _ _)
  clear_value written
  have hjudged : judged.boot = written.boot := Head.ite_boot (written.ptBad_boot n 7) rfl
  exact Head.ite_boot ((Head.ptAdvance_boot _ n).trans (h.ptBad_boot n 6))
    ((Head.ptAdvance_boot _ n).trans ((judged.put_boot _ _).trans (hjudged.trans hwritten)))

@[simp] theorem Head.takeObserver_boot (n th : Nat) : (h.takeObserver n th).boot = h.boot :=
  (Head.setMot_boot _ _ _).trans (h.setAxis_boot _ _)

@[simp] theorem Head.applyFx_boot (n : Nat) (x : Head × Bool) (f : AxFx) : (Head.applyFx n x f).1.boot = x.1.boot := by
  cases f with
  | fault k => exact x.1.faultAxis_boot n k
  | state k =>
    simp only [Head.applyFx]
    split_ifs <;> simp
  | nowin b => cases b <;> simp [Head.applyFx]
  | shifted b => cases b <;> simp [Head.applyFx]
  | vlimit b => exact x.1.putBit_boot _ _
  | ilimit b => exact x.1.putBit_boot _ _
  | catchStart => exact x.1.catchStart_boot n
  | word a v => exact x.1.wr_boot a v

theorem Head.foldl_applyFx_boot (n : Nat) (l : List AxFx) (x : Head × Bool) : (l.foldl (Head.applyFx n) x).1.boot = x.1.boot := by
  induction l generalizing x with
  | nil => rfl
  | cons f l ih => exact (ih _).trans (Head.applyFx_boot n x f)

@[simp] theorem Head.currentLaw_boot (e : Nat) (prep : Bool) (f : Ctx → Ctx) : (h.currentLaw e prep f).boot = h.boot := by
  unfold Head.currentLaw
  extract_lets g c ran
  exact (Head.ite_boot rfl (Head.foldl_applyFx_boot _ _ _)).trans (h.setEngine_boot _ _)

end Sys2Proof.Machine
end
section
namespace Sys2Proof.Machine

/-! ## The laws of a Loop Engine ask for nothing beyond the head (R200, R252) -/

variable (h : Head)

@[simp] theorem Head.ptRun_boot (n : Nat) (x : Nat → Int) (prot : Nat) : (h.ptRun n x prot).boot = h.boot := by
  unfold Head.ptRun
  extract_lets p b next
  have hnext (g : Head) (acc : List Int) (angle : Nat) : (next g acc angle).boot = g.boot := g.setAxis_boot _ _
  split
  · exact Head.ite_boot (h.ptEnd_boot n 4) (Head.ite_boot (h.ptAdvance_boot n) (hnext h _ _))
  · exact Head.ite_boot (hnext h _ _) ((Head.ptAdvance_boot _ n).trans (h.wr_boot _ _))
  · exact Head.ite_boot ((Head.ptPulse_boot _ n _).trans (hnext h _ _)) (hnext h _ _)
  · exact Head.ite_boot ((hnext _ _ _).trans (h.setAxis_boot _ _)) ((Head.ptEncoder_boot _ n _ _ _ _).trans (h.setAxis_boot _ _))
  · exact Head.ite_boot (hnext h _ _) ((Head.ptAdvance_boot _ n).trans (h.wr_boot _ _))
  · rfl

@[simp] theorem Head.afterFoc_boot (e : Nat) (prep : Bool) (step : Nat) : (h.afterFoc e prep step).boot = h.boot := by
  unfold Head.afterFoc
  extract_lets g n x pt prot
  exact Head.ite_boot rfl (Head.ite_boot (Head.ite_boot (h.ptRun_boot n x prot) rfl) (Head.ite_boot (h.takeObserver_boot n _) rfl))

@[simp] theorem Head.lawStepper_boot (e : Nat) : (h.lawStepper e).boot = h.boot := by
  unfold Head.lawStepper
  extract_lets n ran
  exact (Head.ite_boot rfl (ran.stepRun_boot e n _ _)).trans (h.currentLaw_boot e _ _)

@[simp] theorem Head.runLaw_boot (e entry : Nat) : (h.runLaw e entry).boot = h.boot := by
  unfold Head.runLaw
  extract_lets g on
  have hon (f : Head → Head) (hf : ∀ g, (f g).boot = g.boot) : (on h f).boot = h.boot := Head.ite_boot (hf h) rfl
  split
  case h_12 => exact hon _ (lawSpeed_boot · _ e)
  case h_13 => exact hon _ (lawPosition_boot · _ e)
  case h_14 => exact hon _ (camEval_boot · e)
  case h_18 => exact h.lawStepper_boot e
  all_goals simp only [Head.afterFoc_boot, Head.currentLaw_boot, Head.setEngine_boot]

/-! ## A process node's loops (chapter 13) -/

@[simp] theorem Head.showFit_boot (i : Nat) (f : Fit) (ku : Dbl) (per : Nat) : (h.showFit i f ku per).boot = h.boot := by
  unfold Head.showFit
  extract_lets
  rw [Head.wrInt_boot, Head.wrInt_boot, Head.wrQ_boot, Head.wrInt_boot, Head.wr_boot, Head.wr_boot, Head.wr_boot, Head.wr_boot]

@[simp] theorem Head.tuneSample_boot (i : Nat) : (h.tuneSample i).boot = h.boot := by
  unfold Head.tuneSample
  split
  · rfl
  · extract_lets pv bias amp hys sp counted win spanW settled s64 windowed up phased off dead crossed third switched four conv shown per span out
    have hshown : shown.boot = h.boot := by rw [Head.put_boot, Head.setLoop_boot]
    refine (Head.ite_boot ?_ (Head.ite_boot (shown.endTune_boot i 3 true) (shown.emit_boot i true out))).trans hshown
    split
    · rw [Head.endTune_boot, Head.setLoop_boot, Head.showFit_boot]
    · exact shown.endTune_boot i 2 true

@[simp] theorem Head.startTune_boot (i : Nat) : (h.startTune i).boot = h.boot := by
  unfold Head.startTune
  extract_lets
  rw [Head.setLoop_boot, Head.put_boot, Head.put_boot, Head.foldl_boot _ _ (fun g a => g.wr_boot a 0)]

@[simp] theorem Head.takeSet_boot (i b : Nat) : (h.takeSet i b).boot = h.boot := by
  unfold Head.takeSet
  split
  · exact h.setLoop_boot _ _
  · rfl

@[simp] theorem Head.takeModel_boot (i : Nat) : (h.takeModel i).boot = h.boot := Head.ite_boot (h.setLoop_boot _ _) rfl

@[simp] theorem Head.modelRun_boot (i : Nat) (fresh : Bool) : (h.modelRun i fresh).boot = h.boot := by
  unfold Head.modelRun
  extract_lets x w u filled d ud y lim off n counted ran
  have hcounted : counted.boot = h.boot := Head.ite_boot (h.bump_boot _) rfl
  have hran : ran.boot = counted.boot := counted.setLoop_boot _ _
  exact (Head.ite_boot (ran.loopFault_boot i 3) rfl).trans (hran.trans hcounted)

@[simp] theorem Head.deviation_boot (i : Nat) : (h.deviation i).boot = h.boot :=
  Head.ite_boot rfl (Head.ite_boot ((Head.setLoop_boot _ _ _).trans (h.raise_boot _ _ _)) (Head.ite_boot (h.setLoop_boot _ _) rfl))

@[simp] theorem Head.showLoop_boot (i : Nat) : (h.showLoop i).boot = h.boot := by
  unfold Head.showLoop
  rw [Head.wrQ_boot, Head.wrQ_boot, Head.wrQ_boot, Head.wrQ_boot]

@[simp] theorem Head.modeRun_boot (i b : Nat) (newSet : Bool) : (h.modeRun i b newSet).boot = h.boot := by
  unfold Head.modeRun
  extract_lets was uLast due req asked x sp ramp spAct ramped ran now modelled
  have hasked : asked.boot = h.boot := Head.ite_boot (h.setLoop_boot _ _) rfl
  clear_value was
  have hended : (if was = 3 then asked.endTune i 5 false else asked).boot = asked.boot := Head.ite_boot (asked.endTune_boot i 5 false) rfl
  have hran : ran.boot = asked.boot := by
    unfold ran
    refine Head.ite_boot (asked.endTune_boot i 5 true) ?_
    split
    · exact (Head.presetManual_boot _ i _ _).trans hended
    · exact (Head.presetAuto_boot _ i _).trans hended
    · exact (Head.tuneSample_boot _ i).trans (asked.startTune_boot i)
    · split
      · exact asked.emit_boot i true _
      · exact Head.ite_boot (asked.presetAuto_boot i _) ((ramped.autoRun_boot i _).trans (asked.setLoop_boot i _))
      · exact asked.tuneSample_boot i
      · rfl
  have hmodelled : modelled.boot = ran.boot := Head.ite_boot (ran.modelRun_boot i _) rfl
  rw [Head.deviation_boot, hmodelled, hran, hasked]

@[simp] theorem Head.sampleRun_boot (i b : Nat) : (h.sampleRun i b).boot = h.boot := by
  unfold Head.sampleRun
  extract_lets x pvs taken judged newSet fresh ran
  have hjudged : judged.boot = taken.boot := Head.ite_boot (taken.loopFault_boot i 2) rfl
  have hran : ran.boot = fresh.boot := Head.ite_boot rfl (fresh.modeRun_boot i b newSet)
  refine Head.ite_boot (h.bump_boot _) ?_
  rw [Head.showLoop_boot, hran, Head.takeModel_boot, Head.takeSet_boot, hjudged, Head.setLoop_boot]

@[simp] theorem Head.loopReport_boot (i : Nat) (w : Option Nat) : (h.loopReport i w).boot = h.boot := by
  unfold Head.loopReport
  split
  · extract_lets st summed first second
    have hfirst : first.boot = summed.boot := Head.ite_boot (summed.loopFault_boot i 0) rfl
    have hsecond : second.boot = first.boot := Head.ite_boot (first.loopFault_boot i 1) rfl
    exact (Head.ite_boot (second.loopFault_boot i 2) rfl).trans (hsecond.trans (hfirst.trans (h.setLoop_boot _ _)))
  · exact Head.ite_boot (h.loopFault_boot i 4) rfl

@[simp] theorem Head.emitFault_boot (i : Nat) : (h.emitFault i).boot = h.boot := Head.ite_boot (h.emit_boot _ _ _) (h.emit_boot _ _ _)

@[simp] theorem Head.loopBell_boot (i : Nat) : (h.loopBell i).boot = h.boot := by
  unfold Head.loopBell
  split
  · rfl
  · extract_lets reported late ended sampled
    have hreported : reported.boot = h.boot := by rw [Head.loopIsland_boot, Head.loopReport_boot, Head.setLoop_boot]
    have hended : ended.boot = reported.boot := Head.ite_boot (reported.endTune_boot i 4 true) rfl
    have hsampled : sampled.boot = ended.boot := Head.ite_boot (ended.sampleRun_boot i _) rfl
    refine (Head.ite_boot (sampled.emit_boot i false 0) (Head.ite_boot (sampled.emitFault_boot i)
      (Head.ite_boot (sampled.emit_boot i false 0) rfl))).trans (hsampled.trans (hended.trans hreported))

/-! ## COMMIT and END of a task (R197, R257, R308) -/

@[simp] theorem Head.commitStation_boot (k : Nat) (ws : List Word) : (h.commitStation k ws).boot = h.boot :=
  h.foldl_boot _ (fun g _ => g.setSlot_boot _ _) _

@[simp] theorem Head.processRun_boot (k : Nat) : (h.processRun k).boot = h.boot :=
  (Head.commitStation_boot _ _ _).trans (h.foldl_boot _ (fun g i => g.loopBell_boot i) _)

@[simp] theorem Head.loopRecords_boot (t e : Nat) : (h.loopRecords t e).boot = h.boot := by
  unfold Head.loopRecords
  extract_lets win
  split
  · rfl
  · exact h.foldl_boot _ (fun g i => (Head.setEngine_boot _ _ _).trans g.draw_boot) _

@[simp] theorem Head.commitStage_boot (e : Nat) : (h.commitStage e).boot = h.boot := by
  unfold Head.commitStage
  extract_lets g t clean
  refine (Head.ite_boot rfl ?_).trans (h.setEngine_boot _ _)
  split
  · exact (Head.setTask_boot _ _ _).trans (Head.ite_boot (clean.commitStation_boot _ _)
      ((Head.loopRecords_boot _ t e).trans (clean.processRun_boot _)))
  · rfl

@[simp] theorem Head.handOver_boot (e t : Nat) : (h.handOver e t).boot = h.boot := by
  unfold Head.handOver
  extract_lets n g x owed m fl
  have howed : owed.boot = h.boot := h.setMot_boot _ _
  refine Head.ite_boot rfl (Head.ite_boot (Head.ite_boot ?_ (Head.ite_boot howed ?_)) (Head.ite_boot ?_ rfl))
  · rw [Head.setMail_boot, Head.setMail_boot, Head.setMail_boot, Head.setMail_boot, howed]
  · rw [Head.setMail_boot, Head.setMail_boot, howed]
  · rw [Head.setMail_boot, Head.setMailLong_boot, Head.setMailLong_boot]

@[simp] theorem Head.endTask_boot (e : Nat) : (h.endTask e).boot = h.boot := by
  unfold Head.endTask
  extract_lets g t committed handed free kept ready
  have hcommitted : committed.boot = h.boot := Head.ite_boot (h.commitStage_boot e) rfl
  have hready : ready.boot = kept.boot := Head.ite_boot ((Head.tryReady_boot _ t).trans (kept.setTaskState_boot t 1)) rfl
  refine Head.ite_boot (h.setEngine_boot _ _) ?_
  rw [Head.foldl_boot _ _ (fun g c => g.setFlag_boot c 2), hready, Head.setTask_boot, Head.setEngine_boot, Head.handOver_boot, hcommitted]

/-! ## An instruction and the bench commands (R202, R204) -/

@[simp] theorem Head.engineFault_boot (e code : Nat) : (h.engineFault e code).boot = h.boot := by
  unfold Head.engineFault
  extract_lets g t noted off kept freed failed
  have hoff : off.boot = h.boot := (noted.setEngine_boot e _).trans (h.wr_boot _ _)
  clear_value off
  have hkept : kept.boot = off.boot := off.setTask_boot t _
  clear_value kept
  have hfreed : freed.boot = kept.boot := Head.ite_boot (kept.setTaskState_boot t 1) rfl
  clear_value freed
  have hfailed : failed.boot = freed.boot := freed.failTask_boot t 1 code
  have hraised : (if failed.substitute then failed else failed.raise 0 5 0).boot = failed.boot :=
    Head.ite_boot rfl (failed.raise_boot 0 5 0)
  exact (Head.ite_boot rfl (hraised.trans (hfailed.trans (hfreed.trans hkept)))).trans hoff

@[simp] theorem Head.budgetFault_boot (e : Nat) : (h.budgetFault e).boot = h.boot := by
  unfold Head.budgetFault
  extract_lets g
  split
  · rw [Head.engineFault_boot, Head.spend_boot]
  · rfl

@[simp] theorem Head.issueFault_boot (e code : Nat) : (h.issueFault e code).boot = h.boot :=
  Head.ite_boot (h.budgetFault_boot e) ((Head.engineFault_boot _ e code).trans (h.spend_boot e 1))

@[simp] theorem Head.lawCut_boot (e entry : Nat) : (h.lawCut e entry).boot = h.boot :=
  (Head.setEngine_boot _ _ _).trans h.draw_boot

@[simp] theorem Head.countEcc_boot (e : Nat) (ws : List (Nat × Nat)) : (h.countEcc e ws).boot = h.boot := h.bumpBy_boot _ _

@[simp] theorem Head.instrEvent_boot (e : Nat) (ev : LEvent) : (h.instrEvent e ev).boot = h.boot := by
  cases ev with
  | none => rfl
  | endTask => exact h.endTask_boot e
  | commit => exact h.commitStage_boot e
  | park => exact Head.ite_boot (h.setEngine_boot _ _) (h.setEngine_boot _ _)
  | law entry => exact (Head.setEngine_boot _ _ _).trans (h.runLaw_boot e entry)

@[simp] theorem Head.issue_boot (e : Nat) (i : LInstr) : (h.issue e i).boot = h.boot := by
  unfold Head.issue
  extract_lets g ws pt counted
  have hcounted : counted.boot = h.boot := h.countEcc_boot e ws
  have hcut (law : Option Nat) : (law.elim counted (counted.lawCut e)).boot = counted.boot := by
    cases law with
    | none => rfl
    | some entry => exact counted.lawCut_boot e entry
  refine Head.ite_boot rfl (Head.ite_boot (h.issueFault_boot e 5) (Eq.trans ?_ hcounted))
  split
  · exact counted.issueFault_boot e _
  · extract_lets mended law
    split
    · exact (Head.issueFault_boot _ e _).trans (Head.ite_boot rfl (counted.lawCut_boot e _))
    · extract_lets total closing
      refine Head.ite_boot ((Head.budgetFault_boot _ e).trans (hcut _)) ?_
      rw [Head.instrEvent_boot, Head.spend_boot, Head.setEngine_boot]

@[simp] theorem Head.benchHalt_boot (e : Nat) (on : Bool) : (h.benchHalt e on).boot = h.boot := by
  unfold Head.benchHalt
  extract_lets put g
  have hput : put.boot = h.boot := h.putBit_boot _ _
  exact (Head.ite_boot (Head.ite_boot (put.setEngine_boot _ _) rfl) (Head.ite_boot (put.setEngine_boot _ _) rfl)).trans hput

@[simp] theorem Head.benchRun_boot (e : Nat) : (h.benchRun e).boot = h.boot := h.setEngine_boot _ _

@[simp] theorem Head.benchStep_boot (e : Nat) : (h.benchStep e).boot = h.boot := by
  unfold Head.benchStep
  extract_lets g runs stepped
  have hstepped : stepped.boot = runs.boot := by
    refine Head.ite_boot (runs.engineFault_boot e 2) (Head.ite_boot (runs.issueFault_boot e 5) ?_)
    split
    · exact runs.issue_boot e _
    · exact runs.engineFault_boot e 1
  exact Head.ite_boot rfl ((Head.ite_boot (stepped.setEngine_boot _ _) rfl).trans (hstepped.trans (h.setEngine_boot _ _)))

end Sys2Proof.Machine
end
section
namespace Sys2Proof.Machine

/-! ## Requests beyond the head are done in the step that asks for them (R55, R66, R78) -/

/-- A head that asks for what bit `k` of `Boot.want` stands for. -/
def Head.asks (h : Head) (k : Nat) : Head := h.setBoot (fun b => { b with want := setBit b.want k })

/-- What an accepted write notes for the host and the partner lies beside what the head knows of loading. -/
theorem State.accepted_setBoot (s : State) (h : Head) (f : Boot → Boot) (ws : List (Nat × Word)) :
    s.accepted (h.setBoot f) ws = s.setHead ((s.accepted h ws).head.setBoot f) := by
  unfold State.accepted Head.mirrorWrites
  rw [show (h.setBoot f).activePair = h.activePair from rfl]
  split_ifs <;> rfl

theorem State.accepted_boot (s : State) (h : Head) (ws : List (Nat × Word)) : (s.accepted h ws).head.boot = h.boot := by
  unfold State.accepted Head.mirrorWrites
  split_ifs <;> rfl

theorem State.accepted_draws (s : State) (h : Head) (ws : List (Nat × Word)) : (s.accepted h ws).head.draws = h.draws := by
  unfold State.accepted Head.mirrorWrites
  split_ifs <;> rfl

/-- A request taken back leaves the head as it was before it. -/
theorem Head.unask (h : Head) (k : Nat) (hw : h.boot.want = 0) : (h.asks k).setBoot (fun b => { b with want := 0 }) = h := by
  have hboot : { h.boot with want := 0 } = h.boot := by rw [← hw]
  exact congrArg (fun b => { h with boot := b }) hboot

/-- An accepted word that asks for one thing: it is done on the head that the word leaves without the request. -/
theorem State.settle_asks (s : State) {h : Head} (hw : h.boot.want = 0) (ws : List (Nat × Word)) (r : Option (List Word)) :
    (s.accepted (h.asks 0) ws).settle r = (s.accepted h ws).enterReset 4 ∧
      (s.accepted (h.asks 1) ws).settle r = (s.accepted h ws).programKey r ∧
      (s.accepted (h.asks 2) ws).settle r = (s.accepted h ws).commitTrim := by
  have hback (k : Nat) : (s.accepted (h.asks k) ws).setHead ((s.accepted (h.asks k) ws).head.setBoot (fun b => { b with want := 0 })) =
      s.accepted h ws := by
    rw [Head.asks, State.accepted_setBoot]
    exact congrArg s.setHead ((s.accepted h ws).head.unask k ((congrArg Boot.want (s.accepted_boot h ws)).trans hw))
  have hwant (k : Nat) : (s.accepted (h.asks k) ws).head.boot.want = setBit 0 k := by
    rw [State.accepted_boot, Head.asks, Head.setBoot_boot, hw]
  refine ⟨?_, ?_, ?_⟩ <;> simp [State.settle, hwant, hback, setBit, bit]

/-- A head that has drawn `d` free values. -/
def Head.drew (h : Head) (d : Nat) : Head := { h with draws := d }

/-- What a reset leaves open of the host's operation on the flash. -/
def State.cutOperation (s : State) : State :=
  match s.head.boot.flop with
  | some (.erase addr) => s.tear addr 4096
  | some (.program addr _) => s.tear addr 256
  | _ => s

/-- A reset leaves the older copy of a directory that is being rewritten. -/
def State.cutDirectory (s : State) : State :=
  match s.head.boot.dirOp with
  | some (.directory copyB _) => { s with store := s.store.erase (if copyB then 0x1000 else 0) 4096 }
  | _ => s

theorem State.cutFlash_eq (s : State) : s.cutFlash = s.cutOperation.cutDirectory := id rfl

/-- Of the head a torn write takes the number of free values drawn, and nothing else. -/
theorem State.tear_setHead (s : State) {h : Head} (hd : h.draws = s.head.draws) (addr n : Nat) :
    (s.setHead h).tear addr n = (s.tear addr n).setHead (h.drew (s.tear addr n).head.draws) := by
  simp only [State.tear, State.setHead, Head.drew, hd]

theorem State.cutOperation_setHead (s : State) {h : Head} (hb : h.boot = s.head.boot) (hd : h.draws = s.head.draws) :
    (s.setHead h).cutOperation = s.cutOperation.setHead (h.drew s.cutOperation.head.draws) := by
  unfold State.cutOperation
  rw [State.setHead_head, hb]
  split
  · exact s.tear_setHead hd _ 4096
  · exact s.tear_setHead hd _ 256
  · rw [← hd]
    rfl

theorem State.cutOperation_boot (s : State) : s.cutOperation.head.boot = s.head.boot := by
  unfold State.cutOperation
  split <;> rfl

theorem State.cutDirectory_setHead (s : State) {h : Head} (hb : h.boot = s.head.boot) :
    (s.setHead h).cutDirectory = s.cutDirectory.setHead h := by
  unfold State.cutDirectory
  rw [State.setHead_head, hb]
  split <;> rfl

theorem State.cutDirectory_head (s : State) : s.cutDirectory.head = s.head := by
  unfold State.cutDirectory
  split <;> rfl

/-- A reset cuts the operation on the flash under way; of the head nothing else matters (R34, R59). -/
theorem State.enterReset_setHead (s : State) {h : Head} (hb : h.boot = s.head.boot) (hd : h.draws = s.head.draws) (cause : Nat) :
    (s.setHead h).enterReset cause = s.enterReset cause := by
  have hcut : (s.setHead h).cutFlash = s.cutFlash.setHead (h.drew s.cutFlash.head.draws) := by
    rw [State.cutFlash_eq, State.cutFlash_eq, s.cutOperation_setHead hb hd, State.cutDirectory_setHead, State.cutDirectory_head]
    exact hb.trans s.cutOperation_boot.symm
  unfold State.enterReset
  rw [hcut]
  rfl

end Sys2Proof.Machine
end
section
namespace Sys2Proof.Machine

/-! ## The words of the Engineer view (R55, R66, R78, R204, R335, R412, R444) -/

/-- The registers that these requests are written to, beside LE_CTL. -/
def engineerWords : List Nat := [SYS_SWRST, SYS_TRIM_CTL, BOOT_KEY_PROG, MST_FORCE, RED_CTL]

/-- Each is one word that the Engineer view may write; HALT alone of LE_CTL is RW, VIEW alone of SYS_TRIM_CTL. -/
theorem engineerWords_masks : (∀ a ∈ engineerWords, plainWord true a = true) ∧
    SYS_TRIM_CTL_COMMIT.within true = true ∧ RED_CTL_HANDOFF.alone true = true ∧
    ∀ e < 16, plainWord true (LE_CTL e) = true ∧ stored (LE_CTL e) = 1 ∧
      (LE_CTL_RUN e).within true = true ∧ (LE_CTL_STEP e).within true = true ∧ (LE_CTL_HALT e).within true = true := by
  decide +kernel

theorem Head.writeBlock_swrst (h : Head) (key : List Nat) (v : Nat) (e : Bool) : h.writeBlock key SYS_SWRST v e = h.writeSwrst v := by
  unfold Head.writeBlock Head.writeSys
  rfl

theorem Head.writeBlock_trimCtl (h : Head) (key : List Nat) (v : Nat) (e : Bool) : h.writeBlock key SYS_TRIM_CTL v e = h.writeTrimCtl v := by
  unfold Head.writeBlock Head.writeSys
  rfl

theorem Head.writeBlock_keyProg (h : Head) (key : List Nat) (v : Nat) (e : Bool) : h.writeBlock key BOOT_KEY_PROG v e = h.writeKeyProg v := by
  unfold Head.writeBlock Head.writeBoot
  rfl

theorem Head.writeBlock_force (h : Head) (key : List Nat) (v : Nat) (e : Bool) : h.writeBlock key MST_FORCE v e = h.writeForce v := by
  unfold Head.writeBlock Head.writeMst
  rfl

theorem Head.writeBlock_redCtl (h : Head) (key : List Nat) (v : Nat) (e : Bool) : h.writeBlock key RED_CTL v e = h.writeRedCtl v := by
  unfold Head.writeBlock
  rfl

theorem Head.writeBlock_leCtl (h : Head) (key : List Nat) {n : Nat} (hn : n < 16) (v : Nat) (e : Bool) :
    h.writeBlock key (LE_CTL n) v e = h.writeLeCtl n v := by
  have haddr : LE_CTL n = 0x50000 + (0x100 + 0x20 * n) := by simp only [LE_CTL]; omega
  have hslot : (LE_CTL n - 0x50100) / 0x20 = n := by omega
  rw [haddr, h.writeBlock_le key _ v e (by omega), ← haddr]
  unfold Head.writeLe
  dsimp only
  rw [if_neg (by omega), if_neg (by simp only [LE_SEL]; omega), hslot, if_pos rfl]

/-- COMMIT in Maintenance mode, with the part's unique ID staged and the store not worn out: the commit is asked for where the staged words
are plausible, else refused (R78). -/
theorem Head.writeTrimCtl_commit (h : Head) {v : Nat} {stage : Nat → Nat}
    (hstage : stage = fun k => (h.boot.trimStage.get zeroWord k).toNat) (hcommit : bit v 1 = true) (hmode : h.sysState = 7)
    (hlo : stage 2 = h.rd SYS_UID_LO) (hhi : stage 3 = h.rd SYS_UID_HI) (hcount : h.fld SYS_TRIM_STAT_COUNT < 1000) :
    h.writeTrimCtl v = if trimPlausible stage then ((h.put SYS_TRIM_CTL_VIEW (bits v 0 0)).asks 2, 0) else (h.put SYS_TRIM_STAT_REFUSE 1, 7) := by
  subst hstage
  unfold Head.writeTrimCtl
  dsimp only at hlo hhi ⊢
  rw [hcommit, if_neg (by decide), if_neg (by simp [hmode])]
  by_cases hgood : trimPlausible (fun k => (h.boot.trimStage.get zeroWord k).toNat) = true
  · rw [if_neg (by simp [hlo, hhi, hgood]; omega), if_pos hgood]
    rfl
  · rw [if_pos (by simp [hgood]), if_neg hgood]

/-- A command for the head takes what its rule makes of the head that stands. -/
theorem State.onHeadThen_congr (s : State) (r : Option (List Word)) {f g : Head → Head} (hfg : f s.head = g s.head) :
    s.onHeadThen r f = s.onHeadThen r g := by
  unfold State.onHeadThen
  rw [hfg]

theorem State.writeField_eq (s : State) (f : Fld) (v : Nat) : s.writeField f v =
    s.onHeadThen none (fun h => h.directWrite s.key [(f.addr, BitVec.ofNat 32 (s.head.fieldWord f v))]) := by
  unfold State.writeField State.onHead
  exact s.onHeadThen_congr none rfl

section Requests

variable {s : State} (hs : s.serves) (he : s.head.engineer = true)
include hs he

/-- One accepted word of the Engineer view, whatever it asks for. -/
theorem State.directWrite_engineer {a : Nat} {w : Word} {h' : Head} (hp : plainWord true a = true)
    (hb : s.head.writeBlock s.key a w.toNat true = (h', 0)) (r : Option (List Word)) :
    s.onHeadThen r (fun h => h.directWrite s.key [(a, w)]) = (s.accepted h' [(a, w)]).settle r := by
  obtain ⟨⟨hr, -⟩, hl, hu⟩ := hs
  have hbusy : s.head.blockBusy a = false := by simp [Head.blockBusy, hl, hu]
  have hword := (s.head.writeWord_plain s.key a w.toNat true hp hbusy).trans hb
  simp only [plainWord, Bool.and_eq_true, Option.isNone_iff_eq_none, Bool.not_eq_true'] at hp
  obtain ⟨⟨⟨⟨hmap, hopen⟩, -⟩, -⟩, -⟩ := hp
  have hrun : s.head.runWrites s.key true [(a, w)] = (h', none) := by
    simp [Head.runWrites, List.zipIdx, hword]
  obtain ⟨late, hcommit⟩ := s.head.commitWrite_ok s.key true [(a, w)] h' hmap (by simpa using hopen) hrun
  have hdirect : s.head.directWrite s.key [(a, w)] = (s.accepted h' [(a, w)]).head := by
    simp only [Head.directWrite, he, hcommit, if_true, State.accepted, State.setHead_head]
  unfold State.onHeadThen
  rw [hr, if_neg Bool.false_ne_true]
  dsimp only
  rw [hdirect]
  rfl

/-- A word of the Engineer view that its rule refuses: what the rule notes of it stays, the host is told. -/
theorem State.directWrite_refused {a st : Nat} {w : Word} {h' : Head} (hp : plainWord true a = true) (hst : st ≠ 0)
    (hb : s.head.writeBlock s.key a w.toNat true = (h', st)) (hboot : h'.boot = s.head.boot) (r : Option (List Word)) :
    s.onHeadThen r (fun h => h.directWrite s.key [(a, w)]) =
      s.setHead ((h'.bump HOST_CNT_REFUSED).setHost (fun p => { p with last := st })) := by
  obtain ⟨⟨hr, hwant⟩, hl, hu⟩ := hs
  have hbusy : s.head.blockBusy a = false := by simp [Head.blockBusy, hl, hu]
  have hword := (s.head.writeWord_plain s.key a w.toNat true hp hbusy).trans hb
  simp only [plainWord, Bool.and_eq_true, Option.isNone_iff_eq_none, Bool.not_eq_true'] at hp
  obtain ⟨⟨⟨⟨hmap, hopen⟩, -⟩, -⟩, -⟩ := hp
  have hcommit : s.head.commitWrite s.key true [(a, w)] = (h', st, false, 0) := by
    simp [Head.commitWrite, Head.runWrites, hmap, List.zipIdx, hopen, hword, hst, firstFault]
  have hdirect : s.head.directWrite s.key [(a, w)] = (h'.bump HOST_CNT_REFUSED).setHost (fun p => { p with last := st }) := by
    simp only [Head.directWrite, he, hcommit, if_neg hst]
  unfold State.onHeadThen
  rw [hr, if_neg Bool.false_ne_true]
  dsimp only
  rw [hdirect, State.settle, State.setHead_head, Head.setHost_boot, Head.bump_boot, hboot, hwant]
  exact if_pos rfl

/-! ### Reset, key programming, trim commit (R55, R66, R78) -/

theorem exec_sysSwrst : exec (.sysSwrst 0xA5C3) s = .next (s.enterReset 4) := by
  obtain ⟨hplain, -⟩ := engineerWords_masks
  have ⟨⟨_, hwant⟩, _⟩ := hs
  have hrule : s.head.writeBlock s.key SYS_SWRST (0xA5C3 : Word).toNat true = (s.head.asks 0, 0) := by
    rw [Head.writeBlock_swrst, Head.writeSwrst, if_pos (by decide), Head.asks]
  have hreset := State.directWrite_engineer hs he (hplain SYS_SWRST (by decide)) hrule none
  rw [(s.settle_asks hwant _ none).1] at hreset
  refine congrArg Host.Outcome.next (hreset.trans ?_)
  exact s.enterReset_setHead (s.accepted_boot s.head _) (s.accepted_draws s.head _) 4

theorem exec_sysSwrst_other {w : Word} (hw : w ≠ 0xA5C3) : exec (.sysSwrst w) s = .next (s.accepted s.head [(SYS_SWRST, w)]) := by
  obtain ⟨hplain, -⟩ := engineerWords_masks
  have ⟨⟨_, hwant⟩, _⟩ := hs
  have hnat : w.toNat ≠ 0xA5C3 := fun hc => hw (BitVec.eq_of_toNat_eq hc)
  have hrule : s.head.writeBlock s.key SYS_SWRST w.toNat s.head.engineer = (s.head, 0) := by
    rw [Head.writeBlock_swrst, Head.writeSwrst, if_neg hnat]
  have hwrite := s.write_one SYS_SWRST w.toNat s.head hs (by rw [he]; exact hplain _ (by decide)) w.isLt hrule hwant
  rw [BitVec.ofNat_toNat, BitVec.setWidth_eq] at hwrite
  exact congrArg Host.Outcome.next hwrite

theorem exec_trimCommit {stage : Nat → Nat} (hstage : stage = fun k => (s.head.boot.trimStage.get zeroWord k).toNat) {w : Nat}
    (hw : w = s.head.fieldWord SYS_TRIM_CTL_COMMIT 1) (hmode : s.head.sysState = 7) (hlo : stage 2 = s.head.rd SYS_UID_LO)
    (hhi : stage 3 = s.head.rd SYS_UID_HI) (hcount : s.head.fld SYS_TRIM_STAT_COUNT < 1000) :
    exec .trimCommit s = .next (if trimPlausible stage
      then (s.accepted (s.head.put SYS_TRIM_CTL_VIEW (bits w 0 0)) [(SYS_TRIM_CTL, BitVec.ofNat 32 w)]).commitTrim
      else s.setHead (((s.head.put SYS_TRIM_STAT_REFUSE 1).bump HOST_CNT_REFUSED).setHost (fun p => { p with last := 7 }))) := by
  obtain ⟨hplain, hin, -⟩ := engineerWords_masks
  have ⟨⟨hr, hwant⟩, _⟩ := hs
  have hlt : w < 2 ^ 32 := hw ▸ s.head.fieldWord_lt SYS_TRIM_CTL_COMMIT 1 (by decide) (by decide)
  have hcommit : bit w 1 = true := by
    rw [hw, bit_eq_bits, s.head.bits_fieldWord_same SYS_TRIM_CTL_COMMIT 1 (by decide)]
    rfl
  have hword : (BitVec.ofNat 32 w).toNat = w := by rw [BitVec.toNat_ofNat, Nat.mod_eq_of_lt hlt]
  have hrule := s.head.writeTrimCtl_commit hstage hcommit hmode hlo hhi hcount
  refine congrArg Host.Outcome.next ((s.writeField_eq SYS_TRIM_CTL_COMMIT 1).trans ?_)
  rw [← hw, show SYS_TRIM_CTL_COMMIT.addr = SYS_TRIM_CTL from rfl]
  by_cases hgood : trimPlausible stage = true
  · rw [if_pos hgood] at hrule ⊢
    rw [State.directWrite_engineer hs he (hplain SYS_TRIM_CTL (by decide)) (by rw [Head.writeBlock_trimCtl, hword, hrule]) none]
    obtain ⟨-, -, hdone⟩ := s.settle_asks (h := s.head.put SYS_TRIM_CTL_VIEW (bits w 0 0)) hwant [(SYS_TRIM_CTL, BitVec.ofNat 32 w)] none
    exact hdone
  · rw [if_neg hgood] at hrule ⊢
    rw [State.directWrite_refused hs he (hplain SYS_TRIM_CTL (by decide)) (st := 7) (by decide)
      (by rw [Head.writeBlock_trimCtl, hword, hrule]) (Head.put_boot _ _ _) none]

theorem exec_bootKeyProg (readBack : Option (List Word)) (hmode : s.head.sysState = 7) (htried : s.head.boot.keyTried = false)
    (hblank : s.head.on SYS_STATUS_KEY_BLANK = true) (hfault : s.head.on SYS_STATUS_KEY_FAULT = false)
    (hdata : ∀ k < 9, (s.head.boot.keyData.get (fun _ => none) k).isSome = true) :
    exec (.bootKeyProg 0x5A3C readBack) s = .next ((s.accepted (s.head.setBoot (fun b => { b with keyTried := true }))
      [(BOOT_KEY_PROG, 0x5A3C)]).programKey readBack) := by
  obtain ⟨hplain, -⟩ := engineerWords_masks
  have ⟨⟨_, hwant⟩, _⟩ := hs
  have hfull : (List.range 9).any (fun k => (s.head.boot.keyData.get (fun _ => none) k).isNone) = false := by
    rw [List.any_eq_false]
    intro k hk
    rw [Option.isNone_iff_eq_none, ← Option.not_isSome_iff_eq_none, hdata k (List.mem_range.mp hk)]
    exact not_not_intro rfl
  have hrule : s.head.writeBlock s.key BOOT_KEY_PROG (0x5A3C : Word).toNat true =
      ((s.head.setBoot (fun b => { b with keyTried := true })).asks 1, 0) := by
    rw [Head.writeBlock_keyProg, Head.writeKeyProg, if_neg (by decide), if_neg]
    · rfl
    · simp [hmode, htried, hblank, hfault, hfull]
  have hprog := State.directWrite_engineer hs he (hplain BOOT_KEY_PROG (by decide)) hrule readBack
  rw [(s.settle_asks (h := s.head.setBoot (fun b => { b with keyTried := true })) hwant _ readBack).2.1] at hprog
  exact congrArg Host.Outcome.next hprog

/-! ### Bench, table of states, hand-over (R204, R335, R412, R444) -/

theorem exec_mstForce (st : Fin 64) (hstate : bit (s.head.rd (MST_STATES (2 * st.val))) 31 = true) :
    exec (.mstForce st) s = .next (s.accepted { s.head with mst := { s.head.mst with force := some st.val } }
      [(MST_FORCE, BitVec.ofNat 32 (64 + st.val))]) := by
  obtain ⟨hplain, -⟩ := engineerWords_masks
  have ⟨⟨_, hwant⟩, _⟩ := hs
  have hst := st.isLt
  have hnum : (64 + st.val) % 64 = st.val := by omega
  have hforce : bit (64 + st.val) 6 = true := by
    simp only [bit, beq_iff_eq]
    omega
  have hrule : s.head.writeBlock s.key MST_FORCE (64 + st.val) s.head.engineer =
      ({ s.head with mst := { s.head.mst with force := some st.val } }, 0) := by
    rw [Head.writeBlock_force, Head.writeForce, hnum]
    dsimp only
    rw [hstate, hforce, if_neg (by decide), if_pos rfl]
  exact congrArg Host.Outcome.next (s.write_one MST_FORCE _ _ hs (by rw [he]; exact hplain _ (by decide)) (by omega) hrule hwant)

theorem exec_handoff (hpair : s.head.activePair = true) (hpartner : s.head.partnerState = 5) :
    exec .handoff s = .next (s.accepted ((s.head.setRed (fun r => { r with handoffBell := some (bellAfter s.head.bellNo 1) })).redEvent 7)
      [(RED_CTL, 1)]) := by
  obtain ⟨-, -, halone, -⟩ := engineerWords_masks
  have hrule : s.head.writeBlock s.key RED_CTL (2 ^ 0) s.head.engineer =
      ((s.head.setRed (fun r => { r with handoffBell := some (bellAfter s.head.bellNo 1) })).redEvent 7, 0) := by
    rw [Head.writeBlock_redCtl, Head.writeRedCtl, if_neg (by decide), if_neg (by simp [hpair, hpartner])]
  have hboot : ((s.head.setRed (fun r => { r with handoffBell := some (bellAfter s.head.bellNo 1) })).redEvent 7).boot = s.head.boot := by
    rw [Head.redEvent, Head.raise_boot, Head.put_boot, Head.orReg_boot, Head.setRed_boot]
  exact congrArg Host.Outcome.next (s.writeField_bit RED_CTL 0 _ hs (by rw [he]; exact halone) hrule hboot)

/-- A field of LE_CTL: the engine is halted or let go as HALT says, then runs or steps as the word asks. -/
theorem State.writeField_leCtl (n : Nat) (hn : n < 16) (hopen : s.head.benchOpen = true) {f : Fld} (hf : f.addr = LE_CTL n)
    (hin : f.within true = true) {w : Nat} (hw : w = s.head.fieldWord f 1) {halted ran stepped : Head}
    (hhalted : halted = s.head.benchHalt n (bit w 0)) (hran : ran = if bit w 2 then halted.benchRun n else halted)
    (hstepped : stepped = if bit w 1 then ran.benchStep n else ran) :
    s.writeField f 1 = s.accepted stepped [(LE_CTL n, BitVec.ofNat 32 w)] := by
  obtain ⟨-, -, -, hle⟩ := engineerWords_masks
  obtain ⟨hplain, -⟩ := hle n hn
  have ⟨⟨_, hwant⟩, _⟩ := hs
  have hrule : s.head.writeBlock s.key f.addr (s.head.fieldWord f 1) s.head.engineer = (stepped, 0) := by
    rw [hf, Head.writeBlock_leCtl _ _ hn, ← hw, Head.writeLeCtl, hopen, if_neg (by decide)]
    dsimp only
    rw [← hhalted, ← hran, ← hstepped]
  have hboot : stepped.boot = s.head.boot := by
    have hrunBoot : ran.boot = halted.boot := hran ▸ Head.ite_boot (halted.benchRun_boot n) rfl
    have hstepBoot : stepped.boot = ran.boot := hstepped ▸ Head.ite_boot (ran.benchStep_boot n) rfl
    rw [hstepBoot, hrunBoot, hhalted, Head.benchHalt_boot]
  have hwrite := s.writeField_one f 1 stepped hs (by rw [he, hf]; exact hplain) (by rw [he]; exact hin) hrule (by rw [hboot, hwant])
  rwa [hf, ← hw] at hwrite

end Requests

/-- The bits of a word that writes 1 into the field of LE_CTL at bit `b`. -/
theorem Head.bit_fieldWord_leCtl (h : Head) {n : Nat} (hn : n < 16) (b k : Nat) (hb : b < 32) (hk : k < 32) :
    bit (h.fieldWord ⟨LE_CTL n, b, b⟩ 1) k = (decide (k = b) || (decide (k = 0) && bit (h.pendingRd (LE_CTL n)) 0)) := by
  obtain ⟨-, -, -, hle⟩ := engineerWords_masks
  obtain ⟨-, hstored, -⟩ := hle n hn
  rw [bit_eq_bits]
  by_cases hkb : k = b
  · subst hkb
    have hset := h.bits_fieldWord_same ⟨LE_CTL n, k, k⟩ 1 (Nat.le_succ k)
    simp [hset]
  · rw [h.bits_fieldWord_other ⟨LE_CTL n, b, b⟩ 1 k (Nat.le_succ b) hk (by dsimp only; omega), hstored]
    by_cases h0 : k = 0
    · subst h0
      simp [hkb, bit, bits, Nat.and_one_is_mod]
    · have hzero : bits 1 k k = 0 := by
        simp [bits, Nat.div_eq_of_lt (Nat.one_lt_two_pow h0)]
      simp [hzero, hkb, h0]


/-- Settles O27: each request is one word of the Engineer view; what it asks for beyond the head is done in the same step. -/
theorem engineerOnlyRequestsRun : Obligations.EngineerOnlyRequestsRun := by
  unfold Obligations.EngineerOnlyRequestsRun
  intro s hs he
  refine ⟨exec_sysSwrst hs he, fun w hw => exec_sysSwrst_other hs he hw,
    fun hmode hlo hhi hcount => exec_trimCommit hs he rfl rfl hmode hlo hhi hcount,
    fun readBack hmode htried hblank hfault hdata => exec_bootKeyProg hs he readBack hmode htried hblank hfault hdata,
    fun e hopen => ?_, fun st hstate => exec_mstForce hs he st hstate, fun hpair hpartner => exec_handoff hs he hpair hpartner⟩
  obtain ⟨-, -, -, hle⟩ := engineerWords_masks
  obtain ⟨-, -, hrun, hstep, hhalt⟩ := hle e.val e.isLt
  refine ⟨congrArg Host.Outcome.next ?_, congrArg Host.Outcome.next ?_, congrArg Host.Outcome.next ?_⟩
  · refine State.writeField_leCtl hs he e.val e.isLt hopen (f := LE_CTL_RUN e.val) rfl hrun rfl rfl rfl ?_
    simp [LE_CTL_RUN, s.head.bit_fieldWord_leCtl e.isLt]
  · refine State.writeField_leCtl hs he e.val e.isLt hopen (f := LE_CTL_STEP e.val) rfl hstep rfl rfl rfl ?_
    simp [LE_CTL_STEP, s.head.bit_fieldWord_leCtl e.isLt]
  · refine State.writeField_leCtl hs he e.val e.isLt hopen (f := LE_CTL_HALT e.val) rfl hhalt rfl rfl rfl ?_
    simp [LE_CTL_HALT, s.head.bit_fieldWord_leCtl e.isLt]

end Sys2Proof.Machine
end
section
namespace Sys2Proof.Machine

/-! ## The states of a lane (R84 to R86, R89, R98) -/

section Lanes

variable (h : Head)

theorem Head.laneUp_iff (n : Nat) : h.laneUp n = true ↔ h.laneState n = 4 := beq_iff_eq

/-- The loss-of-signal bit stands apart from the state in its register. -/
theorem Head.laneState_put_los (n v : Nat) : (h.put (LANE_STAT_LOS n) v).laneState n = h.laneState n :=
  h.fld_put_apart v rfl (by norm_num) (by norm_num) (.inr (by norm_num))

variable {h} {n : Nat}

theorem Head.signalQualified_detect (he : (h.lane n).enabled = true) (hd : h.laneState n = 1) :
    h.signalQualified n = (h.put (LANE_STAT_LOS n) 0).setLaneState n 2 := by
  simp only [Head.signalQualified, he, Head.laneState_put_los, hd, Bool.not_true, Bool.false_eq_true, if_true, if_false]

theorem Head.cdrLocked_lock (hl : h.laneState n = 2) (eq : Nat) : h.cdrLocked n eq =
    ((if h.on (LANE_CTL_EQ_HOLD n) ∧ (h.lane n).eqSettled then h else h.put (LANE_STAT_EQ n) (min 12 eq)).setLaneState n 3).setLane n
      (fun x => { x with eqSettled := true, aligned := false }) := by
  rw [Head.cdrLocked, if_neg (not_not_intro hl)]

theorem Head.commaAligned_align (ha : h.laneState n = 3) (inverted : Bool) :
    h.commaAligned n inverted = (h.put (LANE_STAT_INV n) (b2n inverted)).setLane n (fun x => { x with aligned := true }) := by
  rw [Head.commaAligned, if_neg (not_not_intro ha), Head.putBit]

theorem Head.laneReachesUp_aligned (ha : h.laneState n = 3) (hal : (h.lane n).aligned = true) :
    h.laneReachesUp n = ((h.setLaneState n 4).put (LANE_EVT_UP n) 1).setLane n (fun x => { x with bells := h.net.rc.bells }) := by
  rw [Head.laneReachesUp, if_neg (by simp [ha, hal])]

theorem Head.syncLoss_up (hu : h.laneState n = 4) (invalid : Nat) (inFrame : Option Frame) :
    h.syncLoss n invalid inFrame = (h.bumpBy (LANE_CV n) invalid).loseSync n 3 inFrame := by
  rw [Head.syncLoss, (h.laneUp_iff n).mpr hu, if_neg (by decide)]

theorem Head.signalLoss_up (he : (h.lane n).enabled = true) (hu : h.laneState n = 4) (invalid : Nat) (inFrame : Option Frame) :
    h.signalLoss n invalid inFrame =
      (((h.bumpBy (LANE_CV n) invalid).put (LANE_STAT_LOS n) 1).put (LANE_EVT_LOS n) 1).loseSync n 1 inFrame := by
  simp only [Head.signalLoss, he, (h.laneUp_iff n).mpr hu, Bool.not_true, Bool.false_eq_true, if_true, if_false]

theorem Head.cdrLockLoss_align (ha : h.laneState n = 3) :
    h.cdrLockLoss n = (h.setLaneState n 2).setLane n (fun x => { x with aligned := false }) := by
  rw [Head.cdrLockLoss, if_pos ha]

theorem Head.elastic_up (hl : n = 8 ∨ n = 9) (hu : h.laneState n = 4) : h.elastic n = h.bump (LANE_ELASTIC n) := by
  rw [Head.elastic, if_pos ⟨hl, (h.laneUp_iff n).mpr hu⟩]

@[simp] theorem Head.loseSync_boot (h : Head) (n st : Nat) (inFrame : Option Frame) : (h.loseSync n st inFrame).boot = h.boot := by
  cases inFrame with
  | none => simp [Head.loseSync]
  | some f => simp [Head.loseSync, apply_ite Head.boot]

end Lanes

/-- Settles O40: in its state each of these events is one equation of the head, and none asks for anything beyond it. -/
theorem lanesComeUpAndGoDown : Obligations.LanesComeUpAndGoDown := by
  unfold Obligations.LanesComeUpAndGoDown
  intro s lane hs h n gives dropped lost
  have hlost (g : Head) (st : Nat) (inFrame : Option Frame) : lost g st inFrame = g.loseSync n st inFrame := by
    cases inFrame <;> rfl
  clear_value lost
  refine ⟨fun he hd => ?_, ?_, fun inverted ha => ?_, fun ha hal => ?_, fun invalid inFrame hu => ?_,
    fun invalid inFrame he hu => ?_, fun ha => ?_, fun h8 hu => ?_⟩
  · exact State.onHead_next hs (Head.signalQualified_detect he hd) (by simp [h])
  · intro eq hl settled
    have hboot : settled.boot = h.boot := Head.ite_boot rfl (h.put_boot _ _)
    exact State.onHead_next hs (Head.cdrLocked_lock hl eq) (by simp [settled, hboot, h])
  · exact State.onHead_next hs (Head.commaAligned_align ha inverted) (by simp [h])
  · exact State.onHead_next hs (Head.laneReachesUp_aligned ha hal) (by simp [h])
  · rw [hlost]
    exact State.onHead_next hs (Head.syncLoss_up hu invalid inFrame) (by simp [h])
  · rw [hlost]
    exact State.onHead_next hs (Head.signalLoss_up he hu invalid inFrame) (by simp [h])
  · exact State.onHead_next hs (Head.cdrLockLoss_align ha) (by simp [h])
  · exact State.onHead_next hs (Head.elastic_up (by omega) hu) (by simp [h])

end Sys2Proof.Machine
end
section
namespace Sys2Proof.Machine

/-! ## Frames on LL0 (R95, R102, R285, R397, R401, R409) -/

section Boot

/-! What a frame on the line link leaves of loading. -/

variable (h : Head)

@[simp] theorem Head.bank_boot (n : Nat) (f : Frame) : (h.bank n f).boot = h.boot := h.setLane_boot _ _
@[simp] theorem Head.overrunLane_boot (n : Nat) : (h.overrunLane n).boot = h.boot := (Head.put_boot _ _ _).trans (h.bump_boot _)
@[simp] theorem Head.forwardLine_boot (broken : Bool) (f : Frame) : (h.forwardLine broken f).boot = h.boot := h.sendAs_boot _ _ _

@[simp] theorem Head.arrive_boot (r : RxFrame) : (h.arrive r).boot = h.boot := by
  simp [Head.arrive, Head.freeBanks]

@[simp] theorem Head.countFault_boot (lane k : Nat) : (h.countFault lane k).boot = h.boot := by
  unfold Head.countFault
  split <;> exact h.bump_boot _

@[simp] theorem Head.redEvent_boot (k : Nat) : (h.redEvent k).boot = h.boot := by
  simp [Head.redEvent]

theorem Head.takeHeadTicket_boot {op count t : Nat} {g : Head} (ht : h.takeHeadTicket op count = some (t, g)) : g.boot = h.boot := by
  unfold Head.takeHeadTicket at ht
  split at ht
  · cases ht
  · cases ht
    rfl

@[simp] theorem Head.queueTxn_boot (src : TxnSrc) (station op rcOp addr count : Nat) (data : List Word) :
    (h.queueTxn src station op rcOp addr count data).boot = h.boot := by
  unfold Head.queueTxn
  dsimp only
  split
  · rfl
  · split
    next t g ht =>
      change g.boot = h.boot
      exact h.takeHeadTicket_boot ht
    next => rfl

@[simp] theorem Head.setJoin_boot (k : Nat) (f : JoinRun → JoinRun) : (h.setJoin k f).boot = h.boot := id rfl

@[simp] theorem Head.joinRequest_boot (k : Nat) : (h.joinRequest k).boot = h.boot := by
  unfold Head.joinRequest
  split <;> simp

@[simp] theorem Head.joinRestart_boot (k : Nat) : (h.joinRestart k).boot = h.boot := by
  unfold Head.joinRestart
  extract_lets j mine old net dropped freed
  have hdropped : dropped.boot = h.boot := id rfl
  have hfreed : freed.boot = dropped.boot :=
    dropped.foldl_boot (fun (g : Head) (x : Txn) => g.freeTicket x.ticket) (fun g x => g.freeTicket_boot x.ticket) old
  rw [apply_ite Head.boot, Head.joinRequest_boot, Head.setJoin_boot, hfreed, hdropped, ite_self]

@[simp] theorem Head.activeEpoch_boot (e : Nat) : (h.activeEpoch e).boot = h.boot := by
  unfold Head.activeEpoch
  extract_lets named
  have hnamed : named.boot = h.boot := h.put_boot _ _
  have hjoins : (named.stations.foldl (fun g k => g.joinRestart k) named).boot = named.boot :=
    named.foldl_boot _ (fun g k => g.joinRestart_boot k) _
  split_ifs
  · rfl
  · exact hjoins.trans hnamed
  · exact hnamed

@[simp] theorem Head.heartbeatTake_boot (f : Frame) (t : Nat) : (h.heartbeatTake f t).boot = h.boot := by
  simp [Head.heartbeatTake, apply_ite Head.boot]

@[simp] theorem Head.vmPub_boot (ws : List Word) (v : Nat) : (h.vmPub ws v).boot = h.boot := by
  simp [Head.vmPub, apply_ite Head.boot]

@[simp] theorem Head.identify_boot (l : List Nat) : (h.identify l).boot = h.boot := by
  simp [Head.identify, apply_ite Head.boot]

@[simp] theorem Head.alignGrid_boot (inst bt epoch : Nat) : (h.alignGrid inst bt epoch).boot = h.boot := by
  simp [Head.alignGrid]

/-- A RELOAD record begins a reload and asks for nothing beyond the head. -/
theorem Head.mirrorReload_want (slot b : Nat) : (h.mirrorReload slot b).boot.want = h.boot.want := by
  simp only [Head.mirrorReload, Head.put_boot, apply_ite Head.boot, Head.bump_boot, ite_self]

theorem Head.mirrorTake_want (f : Frame) : (h.mirrorTake f).boot.want = h.boot.want := by
  simp [Head.mirrorTake, apply_ite Head.boot, apply_ite Boot.want, Head.mirrorReload_want]

end Boot

section Ring

/-! The ring number stands in a register that a frame's way through the head leaves alone. -/

variable (h : Head)

theorem Head.ring_congr {g h : Head} (hr : g.regs = h.regs) : g.ring = h.ring := by
  have hfld (x : Fld) : g.fld x = h.fld x := by simp only [Head.fld, Head.rd_congr hr]
  have hpaired : g.paired = h.paired := congrArg (· != 0) (hfld RED_CFG_PAIR)
  simp only [Head.ring, Head.headNo, hpaired, hfld]

@[simp] theorem Head.ring_bank (n : Nat) (f : Frame) : (h.bank n f).ring = h.ring := Head.ring_congr (h.setLane_regs _ _)

theorem Head.ring_forwardLine (broken : Bool) (f : Frame) : (h.forwardLine broken f).ring = h.ring := by
  refine Head.ring_congr ?_
  unfold Head.forwardLine Head.sendAs
  split_ifs <;> rfl

@[simp] theorem Head.ring_seeEpoch (e : Nat) : (h.seeEpoch e).ring = h.ring := by
  refine Head.ring_congr ?_
  unfold Head.seeEpoch
  split_ifs <;> rfl

end Ring

section Onward

/-! Which frames go on to LL1, said once for each kind (R95, R285, R397). -/

variable {h : Head} {f : Frame}

theorem Head.lineOnward_others (hp : pairTraffic f = true) (hst : fStation f ≠ h.ring * 256) (hsl : fSlot f ≠ h.ring) :
    h.lineOnward f = true := by
  simp [Head.lineOnward, Head.mineOnLine, hp, hst, hsl]

theorem Head.lineOnward_mine (hp : pairTraffic f = true) (hst : fStation f = h.ring * 256) : h.lineOnward f = false := by
  simp [Head.lineOnward, Head.mineOnLine, hp, hst]

theorem Head.lineOnward_pub (hp : pairTraffic f = false) (ht : bits (wordAt f.payload 0) 31 24 = 0x40) :
    h.lineOnward f = true ↔ ¬(bits (wordAt f.payload 1) 31 24 = h.headNo ∧ h.substitute = false) := by
  simp [Head.lineOnward, hp, ht, imp_iff_not_or]

theorem Head.lineOnward_plain (hp : pairTraffic f = false) (ht : bits (wordAt f.payload 0) 31 24 ∉ [0x40, 0x51, 0x52, 0x53]) :
    h.lineOnward f = true := by
  simp only [List.mem_cons, List.not_mem_nil, or_false, not_or] at ht
  simp [Head.lineOnward, hp, ht]

end Onward

section Use

/-! What the head makes of a stored frame, said once for each kind. -/

variable {h : Head} {q : RxFrame}

theorem Head.lineFrame_others (hp : pairTraffic q.frame = true) (hst : fStation q.frame ≠ h.ring * 256) (done : Nat) :
    h.lineFrame q done = h := by
  simp only [Head.lineFrame, hp, hst, if_true, if_false, ne_eq, not_false_eq_true]

theorem Head.lineFrame_plain (hp : pairTraffic q.frame = false) (hst : fStation q.frame ≠ h.ring * 256)
    (ht : bits (wordAt q.frame.payload 0) 31 24 ∉ [0x40, 0x51, 0x52, 0x53]) (done : Nat) : h.lineFrame q done = h := by
  simp only [List.mem_cons, List.not_mem_nil, or_false, not_or] at ht
  simp [Head.lineFrame, hp, hst, ht]

theorem Head.lineFrame_pub (hp : pairTraffic q.frame = false) (hst : fStation q.frame ≠ h.ring * 256)
    (ht : bits (wordAt q.frame.payload 0) 31 24 = 0x40) (done : Nat) :
    h.lineFrame q done = (List.range 8).foldl (fun (h : Head) v => h.vmPub q.frame.payload v) h := by
  simp [Head.lineFrame, hp, hst, ht]

/-- Pair traffic for this head is a heartbeat or a mirror record. -/
theorem Head.lineFrame_mine (hp : pairTraffic q.frame = true) (hst : fStation q.frame = h.ring * 256) (done : Nat) :
    h.lineFrame q done = if fKind q.frame = 0xC then (h.seeEpoch (fEpoch q.frame)).heartbeatTake q.frame done
      else (h.seeEpoch (fEpoch q.frame)).mirrorTake q.frame := by
  simp only [Head.lineFrame, hp, hst, Head.ring_seeEpoch, if_true, if_false, ne_eq, not_true_eq_false]

end Use

section Receive

/-- The head with a frame from LL0 passed on to LL1 when it goes on. -/
def Head.passOn (h : Head) (f : Frame) : Head := if h.lineOnward f = true then h.forwardLine false f else h

theorem Head.passOn_onward {h : Head} {f : Frame} (ho : h.lineOnward f = true) : h.passOn f = h.forwardLine false f := if_pos ho

theorem Head.passOn_pub {h : Head} {f : Frame} (hp : pairTraffic f = false) (ht : bits (wordAt f.payload 0) 31 24 = 0x40) :
    h.passOn f = if bits (wordAt f.payload 1) 31 24 = h.headNo ∧ h.substitute = false then h else h.forwardLine false f := by
  simp only [Head.passOn, Head.lineOnward_pub hp ht, ite_not]

@[simp] theorem Head.passOn_boot (h : Head) (f : Frame) : (h.passOn f).boot = h.boot :=
  Head.ite_boot (h.forwardLine_boot _ _) rfl

@[simp] theorem Head.ring_passOn (h : Head) (f : Frame) : (h.passOn f).ring = h.ring := by
  rw [Head.passOn, apply_ite Head.ring, Head.ring_forwardLine, ite_self]

variable {h : Head} {q : RxFrame}

theorem Head.lineReceive_damaged (hl : q.lane = 8) {k : Nat} (hf : frameFault q = some k) (done : Nat) :
    h.lineReceive q done = (h.countFault 8 k).forwardLine (k == 1 && q.broken) q.frame := by
  simp [Head.lineReceive, hl, hf]

/-- A sound frame on LL0 goes on when it must, and then finds a free bank or overruns. -/
theorem Head.lineReceive_sound (hl : q.lane = 8) (hf : frameFault q = none) (done : Nat) :
    h.lineReceive q done = if (h.passOn q.frame).banksFull 8 = true then (h.passOn q.frame).overrunLane 8
      else ((h.passOn q.frame).bank 8 q.frame).lineFrame q done := by
  have hv : q.lane.val = 8 := congrArg Fin.val hl
  have hpass : (if q.lane.val = 8 ∧ h.lineOnward q.frame = true then h.forwardLine false q.frame else h) = h.passOn q.frame := by
    simp only [Head.passOn, hv, true_and]
  rw [Head.lineReceive, hf]
  dsimp only
  rw [hpass, hv, if_pos rfl]

theorem Head.lineReceive_full (hl : q.lane = 8) (hf : frameFault q = none) (hb : (h.passOn q.frame).banksFull 8 = true) (done : Nat) :
    h.lineReceive q done = (h.passOn q.frame).overrunLane 8 := by
  rw [Head.lineReceive_sound hl hf, if_pos hb]

theorem Head.lineReceive_stored (hl : q.lane = 8) (hf : frameFault q = none) (hb : (h.passOn q.frame).banksFull 8 = false) (done : Nat) :
    h.lineReceive q done = ((h.passOn q.frame).bank 8 q.frame).lineFrame q done := by
  rw [Head.lineReceive_sound hl hf, if_neg (by simp [hb])]

/-- A frame on LL0 while it is UP is what the line link makes of it, when that asks for nothing beyond the head. -/
theorem State.onHead_receive {s : State} (hs : s.runs) {r : RxFrame} (hl : r.lane = 8) (hu : s.head.laneUp 8 = true) {g : Head}
    (hg : (s.head.arrive r).lineReceive (s.head.atBoundary r) (rxDone r) = g) (hw : g.boot.want = s.head.boot.want) :
    (.next (s.onHead (fun h => h.receive r)) : Host.Outcome State Fault Refusal) = .next (s.setHead g) := by
  have hrx : s.head.receive r = g := by
    simpa [Head.receive, hl, hu] using hg
  rw [s.onHead_eq _ hs.1 (by rw [hrx, hw]; exact hs.2), hrx]

end Receive

/-- Settles O42: a frame on LL0 is damaged, overruns, is for others, a publication, or the partner's; each way is one equation of the head,
and none asks for anything beyond it. -/
theorem lineFramesAct : Obligations.LineFramesAct := by
  unfold Obligations.LineFramesAct
  intro s r hs hl hu f q h on typ gives
  have next (c : Instr) (hc : exec c s = .next (s.onHead (fun h => h.receive r))) {g : Head} (hg : h.lineReceive q (rxDone r) = g)
      (hb : g.boot.want = h.boot.want) : gives c g :=
    hc.trans (State.onHead_receive hs hl hu hg (hb.trans (congrArg Boot.want (s.head.arrive_boot r))))
  have hq : q.lane = 8 := hl
  have hframe : q.frame = f := rfl
  have hbroken : q.broken = r.broken := rfl
  clear_value q h gives f
  subst hframe
  refine ⟨fun k hk => ?_, fun hf ho hb => ?_, fun hf hst hb => ⟨fun hp hsl => ?_, fun hp ht => ?_⟩, ?_, fun hf hst hp hb => ?_⟩
  · exact next (.frameRefused r) rfl (hbroken ▸ Head.lineReceive_damaged hq hk _) (by simp)
  · have hon : h.passOn q.frame = on := Head.passOn_onward ho
    exact next (.llForward r) rfl (hon ▸ Head.lineReceive_full hq hf (hon ▸ hb) _) (by simp [on])
  · have hon : h.passOn q.frame = on := Head.passOn_onward (Head.lineOnward_others hp hst hsl)
    refine next (.llForward r) rfl ((Head.lineReceive_stored hq hf (hon ▸ hb) _).trans ?_) (by simp [on])
    exact (Head.lineFrame_others hp (by simpa using hst) _).trans (congrArg (Head.bank · 8 _) hon)
  · have hon : h.passOn q.frame = on := Head.passOn_onward (Head.lineOnward_plain hp ht)
    refine next (.llForward r) rfl ((Head.lineReceive_stored hq hf (hon ▸ hb) _).trans ?_) (by simp [on])
    exact (Head.lineFrame_plain hp (by simpa using hst) ht _).trans (congrArg (Head.bank · 8 _) hon)
  · intro hf hst hp ht passed hb
    have hpass : h.passOn q.frame = passed := Head.passOn_pub hp ht
    clear_value passed
    subst hpass
    refine next (.masterPubReceive r) rfl
      ((Head.lineReceive_stored hq hf hb _).trans (Head.lineFrame_pub hp (by simpa using hst) ht _)) ?_
    rw [Head.foldl_boot _ _ (fun g v => g.vmPub_boot _ v), Head.bank_boot, Head.passOn_boot]
  · have hpass : h.passOn q.frame = h := if_neg (by simp [Head.lineOnward_mine hp hst])
    have hstored := (Head.lineReceive_stored hq hf (hpass.symm ▸ hb) (rxDone r)).trans
      (Head.lineFrame_mine hp (by simpa using hst) _)
    rw [hpass] at hstored
    refine ⟨fun hk => next (.heartbeatReceive r) rfl (hstored.trans (if_pos hk)) ?_,
      fun hk => next (.mirrorReceive r) rfl (hstored.trans (if_neg hk)) ?_⟩
    · rw [Head.heartbeatTake_boot, Head.seeEpoch_boot, Head.bank_boot]
    · rw [Head.mirrorTake_want, Head.seeEpoch_boot, Head.bank_boot]

end Sys2Proof.Machine
end
section
namespace Sys2Proof.Machine

/-! ## Recess requests and missing responses (R114, R123 to R125) -/

section Request

variable (h : Head)

/-- The head with a transaction taken out of those that wait. -/
def Head.takeWaiting (h : Head) (x : Txn) : Head := { h with net := { h.net with waiting := h.net.waiting.erase x } }

/-- A Recess request other than START leaves a lane in its pair. -/
def Head.sendRequest (h : Head) (x : Txn) (lane pair : Nat) : Head :=
  h.sendField lane x.station (if x.rcOp = 0 then 9 else 0xB) (0xF0 + pair) (if h.substitute then h.epochIn else h.ownEpoch)
    (x.retries != 0) ((h.node x.station).limp != 0) (x.words 0)

/-- The response to a request that has just left is awaited; `phase` is the wait of R20. -/
def Head.awaitResponse (h : Head) (x : Txn) (lane pair phase lag : Nat) : Head :=
  { h with net := { h.net with flights := h.net.flights ++
    [{ txn := x, lane := lane, pair := pair, dueBell := bellAfter h.bellNo lag, departed := h.sentStamp lane phase, damaged := false }] } }

theorem Head.sendField_regs (lane k kind slot epoch : Nat) (retry limp : Bool) (ws : List Word) :
    (h.sendField lane k kind slot epoch retry limp ws).regs = h.regs := by
  unfold Head.sendField Head.send Head.sendAs
  split_ifs <;> rfl

theorem Head.sendField_flights (lane k kind slot epoch : Nat) (retry limp : Bool) (ws : List Word) :
    (h.sendField lane k kind slot epoch retry limp ws).net.flights = h.net.flights := by
  unfold Head.sendField Head.send Head.sendAs
  split_ifs <;> rfl

theorem Head.bellNo_sendField (lane k kind slot epoch : Nat) (retry limp : Bool) (ws : List Word) :
    (h.sendField lane k kind slot epoch retry limp ws).bellNo = h.bellNo := Head.rd_congr (h.sendField_regs ..) _

@[simp] theorem Head.takeWaiting_boot (x : Txn) : (h.takeWaiting x).boot = h.boot := id rfl

@[simp] theorem Head.sendRequest_boot (x : Txn) (lane pair : Nat) : (h.sendRequest x lane pair).boot = h.boot := h.sendField_boot ..

@[simp] theorem Head.awaitResponse_boot (x : Txn) (lane pair phase lag : Nat) : (h.awaitResponse x lane pair phase lag).boot = h.boot := id rfl

/-- Neither the epoch, the limp bit, the Bell nor the flights of a request depend on what waits. -/
theorem Head.awaitResponse_sendRequest {x : Txn} {lane pair : Nat} {sent : Head}
    (hsent : (h.takeWaiting x).sendField lane x.station (if x.rcOp = 0 then 9 else 0xB) (0xF0 + pair)
      (if h.substitute then h.epochIn else h.ownEpoch) (x.retries != 0) ((h.node x.station).limp != 0) (x.words 0) = sent) (phase lag : Nat) :
    ((h.takeWaiting x).sendRequest x lane pair).awaitResponse x lane pair phase lag =
      { sent with net := { sent.net with flights := h.net.flights ++ 
        [{ txn := x, lane := lane, pair := pair, dueBell := bellAfter h.bellNo lag, departed := sent.sentStamp lane phase
           damaged := false }] } } := by
  have hsend : (h.takeWaiting x).sendRequest x lane pair = sent := hsent
  have hflights : sent.net.flights = h.net.flights := by rw [← hsent, Head.sendField_flights]; rfl
  have hbell : sent.bellNo = h.bellNo := by rw [← hsent, Head.bellNo_sendField]; rfl
  rw [hsend, Head.awaitResponse, hflights, hbell]

variable {h} {lane pair : Nat} {tb : LaneTable} {p : Nat × Nat} (htb : h.laneTable? lane = some tb) (hp : tb.pairs[pair]? = some p)
include htb hp

/-- The oldest waiting transaction that may go leaves in its pair, when it has its ticket and is no START (R124). -/
theorem Head.recessRequest_flies {g : Head} {x : Txn} (hrun : h.bell.running = true) (hcyc : h.bell.rollcall = false)
    (hg : h.forward (h.instantTick p.1) = g)
    (hx : pickTxn (g.mayFly lane pair (pair + 1 == tb.pairs.length)) g.net.waiting [] = some x) (ht : x.ticket < 256) (hop : x.rcOp ≠ 7)
    (hready : x.src ≠ .rawsw ∨ (g.takeWaiting x).rawswReady x.station = true) (phase : Nat) :
    h.recessRequest lane pair phase = ((g.takeWaiting x).sendRequest x lane pair).awaitResponse x lane pair phase tb.lag := by
  have hnot : ¬(x.src = .rawsw ∧ (!(g.takeWaiting x).rawswReady x.station) = true) := by
    simpa [imp_iff_not_or] using hready
  simp only [Head.recessRequest, htb, hp, hrun, hcyc, hg, hx, Bool.not_true, Bool.false_eq_true, or_self, if_false]
  change (if x.src = .rawsw ∧ (!(g.takeWaiting x).rawswReady x.station) = true then _ else _) = _
  rw [if_neg hnot]
  simp only [ht, hop, if_true, if_false]
  rfl

end Request

section Missing

variable (h : Head)

/-- A flight whose window has closed without a good response: dropped, and counted unless a damaged frame came in its place (Table 06-6). -/
def Head.missed (h : Head) (g : Flight) : Head := if g.damaged then h.landed g else (h.landed g).bump (NODE_MISS g.txn.station)

/-- A transaction waits ahead of the others to be sent once more. -/
def Head.waitAgain (h : Head) (x : Txn) : Head :=
  { h with net := { h.net with waiting := { x with retries := x.retries + 1 } :: h.net.waiting } }

@[simp] theorem Head.landed_boot (g : Flight) : (h.landed g).boot = h.boot := id rfl
@[simp] theorem Head.missed_boot (g : Flight) : (h.missed g).boot = h.boot :=
  Head.ite_boot (h.landed_boot g) ((Head.bump_boot _ _).trans (h.landed_boot g))
@[simp] theorem Head.waitAgain_boot (x : Txn) : (h.waitAgain x).boot = h.boot := id rfl

variable {h}

/-- A missing response: its request waits again ahead of the others, with one more retry, or the transaction ends (R125). -/
theorem Head.recessMissing_closes {lane pair : Nat} {tb : LaneTable} {p : Nat × Nat} (htb : h.laneTable? lane = some tb)
    (hp : tb.pairs[pair]? = some p) {g : Flight} (hf : h.flightAt lane pair = some g) {due : Head}
    (hd : h.forward (h.instantTick (p.2 + 14 + wireTicks 47)) = due) :
    h.recessMissing lane pair =
      if g.txn.retries < 3 then (due.missed g).waitAgain g.txn else (due.missed g).txnDone g.txn lane false 0 [] 0 := by
  have harrival : (h.laneTable? lane).bind (fun t => t.pairs[pair]?) = some p := by rw [htb]; exact hp
  simp only [Head.recessMissing, hf, harrival, hd]
  rfl

/-- A host's transaction without a response ends its ticket with TIMEOUT. -/
theorem Head.txnDone_host_timeout {x : Txn} {t : Nat} (hx : x.src = .host t) (lane status : Nat) (ws : List Word) (sample : Int) :
    h.txnDone x lane false status ws sample = h.finishTicket t 8 [] false 0 := by
  have hhost : (TxnSrc.host t).isHost = true := rfl
  simp only [Head.txnDone, hhost, hx, true_or, Bool.not_false, if_true]

end Missing

/-- The request leaves; `h` is the head at the pair's request instant. -/
theorem exec_recessRequest_flies {s : State} (hs : s.runs) {lane : Fin 10} {pair : Nat} {tb : LaneTable} {p : Nat × Nat}
    (htb : s.head.laneTable? lane.val = some tb) (hp : tb.pairs[pair]? = some p) {h : Head} {x : Txn} (hrun : s.head.bell.running = true)
    (hcyc : s.head.bell.rollcall = false) (hh : s.head.forward (s.head.instantTick p.1) = h)
    (hx : pickTxn (h.mayFly lane.val pair (pair + 1 == tb.pairs.length)) h.net.waiting [] = some x) (ht : x.ticket < 256) (hop : x.rcOp ≠ 7)
    (hready : x.src ≠ .rawsw ∨ (h.takeWaiting x).rawswReady x.station = true) (phase : Fin 11) :
    exec (.recessRequest lane pair phase) s =
      .next (s.setHead (((h.takeWaiting x).sendRequest x lane.val pair).awaitResponse x lane.val pair phase.val tb.lag)) := by
  refine State.onHead_next hs (Head.recessRequest_flies htb hp hrun hcyc hh hx ht hop hready phase.val) ?_
  rw [Head.awaitResponse_boot, Head.sendRequest_boot, Head.takeWaiting_boot, ← hh, Head.forward_boot]

section Closed

variable {s : State} (hs : s.runs) {lane : Fin 10} {pair : Nat} {tb : LaneTable} {p : Nat × Nat}
  (htb : s.head.laneTable? lane.val = some tb) (hp : tb.pairs[pair]? = some p) {g : Flight} (hf : s.head.flightAt lane.val pair = some g)
  {due : Head} (hd : s.head.forward (s.head.instantTick (p.2 + 14 + wireTicks 47)) = due)
include hs htb hp hf hd

theorem exec_recessResponseMissing_repeats (hretry : g.txn.retries < 3) :
    exec (.recessResponseMissing lane pair) s = .next (s.setHead ((due.missed g).waitAgain g.txn)) := by
  refine State.onHead_next hs ((Head.recessMissing_closes htb hp hf hd).trans (if_pos hretry)) ?_
  rw [Head.waitAgain_boot, Head.missed_boot, ← hd, Head.forward_boot]

theorem exec_recessResponseMissing_timeout (hlast : 3 ≤ g.txn.retries) {t : Nat} (hsrc : g.txn.src = .host t) :
    exec (.recessResponseMissing lane pair) s = .next (s.setHead ((due.missed g).finishTicket t 8 [] false 0)) := by
  have hclose := (Head.recessMissing_closes htb hp hf hd).trans (if_neg (Nat.not_lt.mpr hlast))
  refine State.onHead_next hs (hclose.trans (Head.txnDone_host_timeout hsrc ..)) ?_
  rw [Head.finishTicket_boot, Head.missed_boot, ← hd, Head.forward_boot]

end Closed

/-- Settles O43: the request that may go leaves in its pair and is awaited; a missing response sends it again or ends its ticket. -/
theorem recessTransactionsRun : Obligations.RecessTransactionsRun := by
  unfold Obligations.RecessTransactionsRun
  intro s lane pair phase tb p hs htb hp l h due gives
  have hnow : s.head.forward (s.head.instantTick p.1) = h := rfl
  have hclosed : s.head.forward (s.head.instantTick (p.2 + 14 + wireTicks 47)) = due := rfl
  clear_value h due
  refine ⟨?_, ?_⟩
  · intro x hrun hcyc hx ht hop taken hready epoch sent
    have hfly := exec_recessRequest_flies hs htb hp hrun hcyc hnow hx ht hop hready phase
    rwa [Head.awaitResponse_sendRequest h (sent := sent) rfl] at hfly
  · intro g hg missed
    exact ⟨exec_recessResponseMissing_repeats hs htb hp hg hclosed,
      fun t hlast hsrc => exec_recessResponseMissing_timeout hs htb hp hg hclosed hlast hsrc⟩

end Sys2Proof.Machine
end
section
namespace Sys2Proof.Machine

/-! ## What a frame on a field lane leaves of loading (R17, R102, R104, R133, R147) -/

variable (h : Head)

section Reports

/-! Reports, edge and drift events (R104, R147). -/

@[simp] theorem Head.setGroup_boot (g : Nat) (f : Dcb → Dcb) : (h.setGroup g f).boot = h.boot := id rfl
@[simp] theorem Head.spoil_boot (x : RepSlot) : (h.spoil x).boot = h.boot := h.setNode_boot _ _

@[simp] theorem Head.edgeEvent_boot (k : Nat) : (h.edgeEvent k).boot = h.boot := by
  simp [Head.edgeEvent, apply_ite Head.boot]

@[simp] theorem Head.crcEvent_boot (k : Nat) : (h.crcEvent k).boot = h.boot := by
  simp [Head.crcEvent, apply_ite Head.boot]

@[simp] theorem Head.joinBell_boot (k : Nat) (seen drift : Bool) : (h.joinBell k seen drift).boot = h.boot := by
  simp [Head.joinBell, apply_ite Head.boot]

@[simp] theorem Head.driftEvent_boot (k : Nat) : (h.driftEvent k).boot = h.boot := by
  simp [Head.driftEvent, apply_ite Head.boot]

@[simp] theorem Head.guardEvent_boot (j : Head) (lane t : Nat) : (h.guardEvent j lane t).boot = h.boot := by
  unfold Head.guardEvent
  split_ifs
  · rfl
  · split <;> simp [apply_ite Head.boot]

@[simp] theorem Head.gateRefuse_boot (j : Head) (r : RxFrame) : (h.gateRefuse j r).boot = h.boot := by
  simp [Head.gateRefuse, apply_ite Head.boot]

@[simp] theorem Head.yieldTo_boot (e : Nat) : (h.yieldTo e).boot = h.boot := Head.ite_boot rfl rfl

@[simp] theorem Head.noteFrame_boot (x : RepSlot) (a : Nat) (f : Frame) (u : Nat) : (h.noteFrame x a f u).boot = h.boot := by
  simp [Head.noteFrame, apply_ite Head.boot]

@[simp] theorem Head.lockGroup_boot (g stamp : Nat) : (h.lockGroup g stamp).boot = h.boot := by
  have hfaults (a : Head) : ((a.members g).foldl (fun a n => a.faultAxis n 8) a).boot = a.boot :=
    a.foldl_boot _ (fun b n => b.faultAxis_boot n 8) _
  simp [Head.lockGroup, apply_ite Head.boot, hfaults]

/-- What the flags of a report do to one axis of its station (Table 15-6). -/
def Head.protAxis (prot : Nat) (gate : Bool) (h : Head) (n : Nat) : Head :=
  let h := h.setAxis n (fun x => { x with encFlag := bit prot 12 })
  let h := if bit prot 11 ∧ gate then h.gatedOff n else h
  (h.protFaults n prot gate).foldl (fun h k => h.faultAxis n k) h

@[simp] theorem Head.protAxis_boot (prot : Nat) (gate : Bool) (n : Nat) : (h.protAxis prot gate n).boot = h.boot := by
  rw [Head.protAxis, Head.foldl_boot _ _ (fun b k => b.faultAxis_boot n k)]
  simp [apply_ite Head.boot]

@[simp] theorem Head.protReact_boot (k prot stamp : Nat) : (h.protReact k prot stamp).boot = h.boot := by
  unfold Head.protReact
  extract_lets noted warned counted gate locked acted result left ended
  have hwarned : warned.boot = h.boot := Head.ite_boot ((noted.privFlag_boot _).trans (h.orReg_boot _ _)) (h.orReg_boot _ _)
  have hcounted : counted.boot = warned.boot := Head.ite_boot (warned.bump_boot _) rfl
  have hlocked : locked.boot = counted.boot := Head.ite_boot (counted.foldl_boot _ (fun b g => b.lockGroup_boot g stamp) _) rfl
  have hacted : acted.boot = locked.boot := locked.foldl_boot _ (fun b n => b.protAxis_boot prot gate n) _
  have hended : ended.boot = acted.boot := Head.ite_boot ((Head.setNode_boot _ _ _).trans (acted.put_boot _ _)) rfl
  rw [Head.setNode_boot, hended, hacted, hlocked, hcounted, hwarned]

@[simp] theorem Head.chopPeriod_boot (k prot : Nat) (vdc : Int) : (h.chopPeriod k prot vdc).boot = h.boot :=
  h.foldl_boot _ (fun g _ => g.setGroup_boot _ _) _

@[simp] theorem Head.takePos_boot (n : Nat) (pos : Int) : (h.takePos n pos).boot = h.boot :=
  (Head.setMot_boot _ _ _).trans (h.setAxis_boot _ _)

@[simp] theorem Head.probationReport_boot (k stamp : Nat) (ws : List Word) : (h.probationReport k stamp ws).boot = h.boot := by
  simp [Head.probationReport, apply_ite Head.boot]

@[simp] theorem Head.driveReport_boot (k stamp : Nat) (ws : List Word) : (h.driveReport k stamp ws).boot = h.boot := by
  unfold Head.driveReport
  dsimp only
  rw [Head.releaseStation_boot, Head.foldl_boot, Head.chopPeriod_boot, Head.protReact_boot]
  intro g n
  simp [apply_ite Head.boot]

@[simp] theorem Head.useReport_boot (k u : Nat) (ws : List Word) : (h.useReport k u ws).boot = h.boot := by
  simp [Head.useReport, apply_ite Head.boot]

end Reports

section Transactions

/-! The transactions of Recess and what completes them (R114, R149, R152, R404). -/

@[simp] theorem Head.axisClear_boot (n k : Nat) : (h.axisClear n k).boot = h.boot := h.wr_boot _ _

@[simp] theorem Head.takeDescriptor_boot (k : Nat) (ws : List Word) : (h.takeDescriptor k ws).boot = h.boot := by
  have hclear (a : Head) (l : List Nat) : (l.foldl (fun a n => a.axisClear n 7) a).boot = a.boot :=
    a.foldl_boot _ (fun b n => b.axisClear_boot n 7) _
  simp [Head.takeDescriptor, apply_ite Head.boot, hclear]

@[simp] theorem Head.putDelay_boot (k lane d : Nat) : (h.putDelay k lane d).boot = h.boot := Head.ite_boot (h.put_boot _ _) (h.put_boot _ _)
@[simp] theorem Head.configDone_boot (k addr : Nat) : (h.configDone k addr).boot = h.boot :=
  (Head.putBit_boot _ _ _).trans (h.setNode_boot _ _)
@[simp] theorem Head.resyncRetry_boot (k : Nat) : (h.resyncRetry k).boot = h.boot := h.setNode_boot _ _
@[simp] theorem Head.resyncEchoes_boot (k : Nat) (again : Bool) : (h.resyncEchoes k again).boot = h.boot :=
  (Head.queueTxn_boot ..).trans (h.setNode_boot _ _)
@[simp] theorem Head.rejoinAnswered_boot (k : Nat) : (h.rejoinAnswered k).boot = h.boot :=
  (Head.queueTxn_boot ..).trans (h.setNode_boot _ _)

@[simp] theorem Head.resyncSlotted_boot (k : Nat) (echoed : List Word) : (h.resyncSlotted k echoed).boot = h.boot := by
  simp [Head.resyncSlotted, apply_ite Head.boot]

@[simp] theorem Head.resyncEchoed_boot (k lane : Nat) (sample : Int) : (h.resyncEchoed k lane sample).boot = h.boot := by
  unfold Head.resyncEchoed
  split
  · refine Head.ite_boot (by simp) ?_
    split <;> simp [apply_ite Head.boot]
  · rfl

@[simp] theorem Head.rejoinCompared_boot (k lane : Nat) (desc : List Word) : (h.rejoinCompared k lane desc).boot = h.boot := by
  have hechoes (a : Head) (l : List Nat) : (l.foldl (fun a k => a.resyncEchoes k false) a).boot = a.boot :=
    a.foldl_boot _ (fun b k => b.resyncEchoes_boot k false) _
  simp [Head.rejoinCompared, apply_ite Head.boot, hechoes]

@[simp] theorem Head.joinAnswered_boot (k : Nat) (ok : Bool) (ws : List Word) (sample : Int) :
    (h.joinAnswered k ok ws sample).boot = h.boot := by
  unfold Head.joinAnswered
  cases ok with
  | false => simp
  | true =>
    simp only [Bool.not_true, Bool.false_eq_true, if_false]
    split
    case h_1 =>
      refine Head.ite_boot (by simp) ?_
      split <;> simp [apply_ite Head.boot]
    all_goals simp [apply_ite Head.boot]

@[simp] theorem Head.txnDone_boot (x : Txn) (lane : Nat) (ok : Bool) (status : Nat) (ws : List Word) (sample : Int) :
    (h.txnDone x lane ok status ws sample).boot = h.boot := by
  unfold Head.txnDone
  extract_lets freed k good
  have hfreed : freed.boot = h.boot := Head.ite_boot rfl (h.freeTicket_boot _)
  clear_value freed
  split <;> simp [apply_ite Head.boot, hfreed]

@[simp] theorem Head.recessResponse_boot (g : Flight) (lane stamp : Nat) (f : Frame) : (h.recessResponse g lane stamp f).boot = h.boot := by
  simp [Head.recessResponse, apply_ite Head.boot]

end Transactions

section RollCall

/-! Roll Call answers (R133 to R143). -/

@[simp] theorem Head.setRcLane_boot (l : Nat) (f : RcLane → RcLane) : (h.setRcLane l f).boot = h.boot := h.setRc_boot _
@[simp] theorem Head.rcNext_boot (l p : Nat) : (h.rcNext l p).boot = h.boot := h.setRcLane_boot _ _
@[simp] theorem Head.rcStep_boot (l : Nat) (k : RcStep) : (h.rcStep l k).boot = h.boot := h.setRcLane_boot _ _

@[simp] theorem Head.rcRecord_boot (l k result : Nat) : (h.rcRecord l k result).boot = h.boot := by
  simp [Head.rcRecord, apply_ite Head.boot]

@[simp] theorem Head.rcFree_boot (l : Nat) : (h.rcFree l).boot = h.boot := by
  unfold Head.rcFree
  split <;> simp

@[simp] theorem Head.rcFinish_boot : h.rcFinish.boot = h.boot := by
  unfold Head.rcFinish
  split_ifs
  · rfl
  · split <;> simp

@[simp] theorem Head.rcRecords_boot (l : Nat) (ks : List Nat) : (ks.foldl (fun h k => h.rcRecord l k 1) h).boot = h.boot :=
  h.foldl_boot _ (fun g k => g.rcRecord_boot l k 1) _

@[simp] theorem Head.rcEnd_boot (l : Nat) (result : Option Nat) : (h.rcEnd l result).boot = h.boot := by
  unfold Head.rcEnd
  extract_lets x ps noted rest ended shown
  have hnoted : noted.boot = h.boot := by
    unfold noted
    split <;> simp
  have hended : ended.boot = noted.boot := noted.rcRecords_boot l rest
  have hshown : shown.boot = ended.boot := ended.put_boot _ _
  rw [Head.rcFinish_boot, Head.setRcLane_boot, hshown, hended, hnoted]

@[simp] theorem Head.timeEvent_boot (k : Nat) : (h.timeEvent k).boot = h.boot := (Head.raise_boot _ _ _ _).trans (h.orReg_boot _ _)
@[simp] theorem Head.refFault_boot : h.refFault.boot = h.boot := h.put_boot _ _

@[simp] theorem Head.enterHoldover_boot : h.enterHoldover.boot = h.boot := by
  simp [Head.enterHoldover]

@[simp] theorem Head.stepLost_boot : h.stepLost.boot = h.boot := by
  simp [Head.stepLost, apply_ite Head.boot]

@[simp] theorem Head.stepSample_boot (k : Nat) (ws : List Word) : (h.stepSample k ws).boot = h.boot := by
  unfold Head.stepSample
  split_ifs
  · rfl
  · split <;> simp

@[simp] theorem Head.rcSilence_boot (l : Nat) : (h.rcSilence l).boot = h.boot := by
  unfold Head.rcSilence
  refine Head.ite_boot rfl (Head.ite_boot (by simp) ?_)
  split <;> simp [apply_ite Head.boot]

@[simp] theorem Head.rcUnanswered_boot (l : Nat) : (h.rcUnanswered l).boot = h.boot := (Head.rcSilence_boot _ _).trans (h.setRcLane_boot _ _)

@[simp] theorem Head.rcHop_boot (l k d : Nat) : (h.rcHop l k d).boot = h.boot := Head.ite_boot rfl (h.wr_boot _ _)

@[simp] theorem Head.rcEchoed_boot (l : Nat) (samples : List Int) : (h.rcEchoed l samples).boot = h.boot := by
  unfold Head.rcEchoed
  dsimp only
  split <;> simp [apply_ite Head.boot]

@[simp] theorem Head.rcLatch_boot (l k : Nat) (desc : List Word) : (h.rcLatch l k desc).boot = h.boot :=
  Head.ite_boot (h.stepSample_boot _ _) rfl

@[simp] theorem Head.rcSkip_boot (l p q : Nat) : (h.rcSkip l p q).boot = h.boot := by
  unfold Head.rcSkip
  exact h.foldl_boot (fun g (a : Position) => g.rcRecord l a.station 1) (fun g a => g.rcRecord_boot l a.station 1) _

@[simp] theorem Head.rcMove_boot (l q k : Nat) : (h.rcMove l q k).boot = h.boot := by
  simp [Head.rcMove]

@[simp] theorem Head.rcCompare_boot (l : Nat) (desc : List Word) : (h.rcCompare l desc).boot = h.boot := by
  unfold Head.rcCompare
  dsimp only
  split
  · simp
  · refine Head.ite_boot (by simp) ?_
    split <;> simp

@[simp] theorem Head.rcAnswer_boot (l t stamp : Nat) (f : Frame) : (h.rcAnswer l t stamp f).boot = h.boot := by
  unfold Head.rcAnswer
  refine Head.ite_boot rfl (Head.ite_boot (Head.ite_boot ?_ ?_) (Head.ite_boot rfl ?_))
  · simp [apply_ite Head.boot]
  · split <;> simp [apply_ite Head.boot]
  · split
    case h_1 =>
      refine Head.ite_boot rfl ?_
      dsimp only
      split <;> simp
    all_goals simp [apply_ite Head.boot]

end RollCall


section Field

/-! A frame on a field lane, said once for each way it can go (R93, R102 to R104, R122). -/

variable {h j seen : Head} {q : RxFrame}

/-- A frame on a field lane that is UP. -/
theorem Head.receive_field {r : RxFrame} (hl : r.lane.val < 8) (hu : h.laneUp r.lane.val = true) :
    h.receive r = (h.arrive r).fieldReceive (h.atBoundary r) := by
  simp [Head.receive, hl, hu]

theorem Head.fieldReceive_badGroup (hb : q.badGroup = true) : h.fieldReceive q = h.bump (LANE_FRAMING q.lane.val) := by
  simp [Head.fieldReceive, hb, Head.countFault]

/-- A lane's gate that is no star's, or whose port takes the frame, lets it pass. -/
theorem Head.gate_open (hopen : seen.topo (q.lane.val / 4) ≠ 2 ∨ j.portTakes q = true) :
    (seen.topo (q.lane.val / 4) == 2 && !j.portTakes q) = false := by
  rcases hopen with htopo | hport
  · rw [beq_eq_false_iff_ne.mpr htopo, Bool.false_and]
  · rw [hport, Bool.not_true, Bool.and_false]

section Judged

variable (hb : q.badGroup = false) (hj : h.judgeAt (unitTick q.stamp) = j) (hs : h.guardEvent j q.lane.val (unitTick q.stamp) = seen)
include hb hj hs

theorem Head.fieldReceive_closedGate (htopo : seen.topo (q.lane.val / 4) = 2) (hport : j.portTakes q = false) :
    h.fieldReceive q = seen.gateRefuse j q := by
  simp [Head.fieldReceive, hb, hj, hs, htopo, hport]

variable (hopen : seen.topo (q.lane.val / 4) ≠ 2 ∨ j.portTakes q = true)
include hopen

theorem Head.fieldReceive_damaged {k : Nat} (hk : frameFault q = some k) :
    h.fieldReceive q = seen.fieldBad j q.lane.val (unitTick q.stamp) k := by
  simp only [Head.fieldReceive, hb, hj, hs, Head.gate_open hopen, hk, Bool.false_eq_true, if_false]

theorem Head.fieldReceive_sound (hk : frameFault q = none) : h.fieldReceive q = seen.fieldGood j q := by
  simp only [Head.fieldReceive, hb, hj, hs, Head.gate_open hopen, hk, Bool.false_eq_true, if_false]

end Judged

/-- A fault outside the reports' windows, or of no content, is counted alone. -/
theorem Head.fieldBad_counted {k : Nat} (hk : (k ≠ 4 ∧ k ≠ 5) ∨ j.bell.running = false ∨ j.bell.rollcall = true) (lane t : Nat) :
    h.fieldBad j lane t k = h.countFault lane k := by
  rw [Head.fieldBad, if_neg]
  rintro ⟨hcontent, hrun, hcyc⟩
  rcases hk with ⟨h4, h5⟩ | hrest | hroll
  · exact hcontent.elim h4 h5
  · exact Bool.false_ne_true (hrest.symm.trans hrun)
  · simp [hroll] at hcyc

/-- A frame whose CRC fails in the window of a report counts against the station (Table 06-6). -/
theorem Head.fieldBad_report {lane t : Nat} {x : RepSlot} (hrun : j.bell.running = true) (hcyc : j.bell.rollcall = false)
    (hf : j.flightWindow lane t = none) (hx : j.slotWindow lane t = some x)
    (hst : (h.bump (LANE_CRC lane)).fld (NODE_STAT_STATE x.station) ≠ 6) :
    h.fieldBad j lane t 4 = ((h.bump (LANE_CRC lane)).spoil x).crcEvent x.station := by
  simp [Head.fieldBad, hrun, hcyc, hf, hx, Head.countFault, hst]

theorem Head.fieldGood_full (hfull : h.banksFull q.lane.val = true) : h.fieldGood j q = h.overrunLane q.lane.val := by
  rw [Head.fieldGood, if_pos hfull]

theorem Head.fieldGood_used (hfree : h.banksFull q.lane.val = false) (hedge : j.bell.edge = h.bell.edge) :
    h.fieldGood j q = (h.bank q.lane.val q.frame).fieldFrame j q := by
  simp [Head.fieldGood, hfree, hedge]

section Use

variable {used : Head} (hu : (h.seeEpoch (fEpoch q.frame)).yieldTo (fEpoch q.frame) = used)
include hu

theorem Head.fieldFrame_rollCall (hroll : j.bell.rollcall = true) (ha : answers q.frame = true) :
    h.fieldFrame j q = used.rcAnswer q.lane.val (unitTick q.stamp) q.stamp q.frame := by
  simp only [Head.fieldFrame, hu, hroll, ha, if_true]

theorem Head.fieldFrame_response {g : Flight} (hcyc : j.bell.rollcall = false) (hg : j.flightWindow q.lane.val (unitTick q.stamp) = some g)
    (ha : answers q.frame = true) (he : fEpoch q.frame = used.epochIn) (hslot : fSlot q.frame = 0xF0 + g.pair) :
    h.fieldFrame j q = used.recessResponse g q.lane.val q.stamp q.frame := by
  simp only [Head.fieldFrame, hu, hcyc, hg, ha, Bool.false_eq_true, if_true, if_false]
  exact if_neg (by simp [he, hslot])

theorem Head.fieldFrame_report {x : RepSlot} (hcyc : j.bell.rollcall = false) (hf : j.flightWindow q.lane.val (unitTick q.stamp) = none)
    (hx : j.slotWindow q.lane.val (unitTick q.stamp) = some x) : h.fieldFrame j q = used.cyclicReport j x q := by
  simp only [Head.fieldFrame, hu, hcyc, hf, hx, Bool.false_eq_true, if_false]

end Use

/-- The first whole report of its station in a Bell is used (R104). -/
theorem Head.cyclicReport_first {x : RepSlot} (hst : h.fld (NODE_STAT_STATE x.station) ≠ 6) (hkind : fKind q.frame < 9)
    (hm : j.slotMatch x q.frame = true) (hpart : x.part = 0) {noted : Head}
    (hn : h.noteFrame x (j.instantTick x.arrival) q.frame q.stamp = noted) (hfirst : (noted.node x.station).seenThisBell = false) :
    h.cyclicReport j x q = noted.useReport x.station q.stamp q.frame.payload := by
  have hwhole : noted.assemble x q.frame.payload = (noted, some q.frame.payload) := if_pos (.inl hpart)
  simp only [Head.cyclicReport, hst, Nat.not_le.mpr hkind, hm, hn, hfirst, hwhole, Bool.not_true, Bool.false_eq_true, if_false]

end Field

/-- Settles O41: a frame on a field lane is refused, dropped or used, each way one equation of the head, and none asks for anything beyond
it. -/
theorem fieldFramesAct : Obligations.FieldFramesAct := by
  unfold Obligations.FieldFramesAct
  intro s r hs f lane q t h j seen used gives hlane hup
  have next (c : Instr) (hc : exec c s = .next (s.onHead (fun h => h.receive r))) {g : Head} (hg : h.fieldReceive q = g)
      (hboot : g.boot = h.boot) : gives c g :=
    hc.trans (State.onHead_next hs ((Head.receive_field hlane hup).trans hg) (hboot.trans (s.head.arrive_boot r)))
  have hbad : q.badGroup = r.badGroup := rfl
  have hqlane : q.lane.val = lane := rfl
  have hframe : q.frame = f := rfl
  have ht : unitTick q.stamp = t := rfl
  have hj : h.judgeAt t = j := rfl
  have hseen : h.guardEvent j lane t = seen := rfl
  have hused : ((seen.bank lane f).seeEpoch (fEpoch f)).yieldTo (fEpoch f) = used := rfl
  have hseenBoot : seen.boot = h.boot := h.guardEvent_boot j lane t
  have husedBoot : used.boot = h.boot := by simp [used, hseenBoot]
  clear_value used seen j t q h gives lane f
  subst hqlane hframe ht
  refine ⟨fun hb => ?_, fun hb htopo hport => ?_, fun hb hopen => ?_⟩
  · exact next (.frameRefused r) rfl (Head.fieldReceive_badGroup (hbad.trans hb)) (h.bump_boot _)
  · exact next (.frameRefused r) rfl (Head.fieldReceive_closedGate (hbad.trans hb) hj hseen htopo hport)
      ((seen.gateRefuse_boot j q).trans hseenBoot)
  · have damaged {k : Nat} (hk : frameFault q = some k) := Head.fieldReceive_damaged (hbad.trans hb) hj hseen hopen hk
    have sound (hk : frameFault q = none) := Head.fieldReceive_sound (hbad.trans hb) hj hseen hopen hk
    refine ⟨fun k hk hkind => ?_, fun x hk hrun hcyc hf hx hst => ?_, fun hk hfull => ?_, fun hk hfree hedge => ?_⟩
    · exact next (.frameRefused r) rfl ((damaged hk).trans (Head.fieldBad_counted hkind _ _)) ((seen.countFault_boot _ k).trans hseenBoot)
    · exact next (.frameRefused r) rfl ((damaged hk).trans (Head.fieldBad_report hrun hcyc hf hx hst)) (by simp [hseenBoot])
    · exact next (.frameRefused r) rfl ((sound hk).trans (Head.fieldGood_full hfull)) ((seen.overrunLane_boot _).trans hseenBoot)
    · have stored := (sound hk).trans (Head.fieldGood_used hfree hedge)
      refine ⟨fun x hcyc hf hx hkind hst hm hpart => ?_, fun ha => ⟨fun hroll => ?_, fun g hcyc hg he hslot => ?_⟩⟩
      · intro noted hfirst
        have hreport := (Head.fieldFrame_report hused hcyc hf hx).trans (Head.cyclicReport_first hst hkind hm hpart rfl hfirst)
        exact next (.reportReceive r) rfl (stored.trans hreport) (by simp [husedBoot, noted])
      · exact next (.rollcallAnswer r) rfl (stored.trans (Head.fieldFrame_rollCall hused hroll ha))
          ((used.rcAnswer_boot ..).trans husedBoot)
      · exact next (.recessResponse r) rfl (stored.trans (Head.fieldFrame_response hused hcyc hg ha he hslot))
          ((used.recessResponse_boot ..).trans husedBoot)

end Sys2Proof.Machine
end

section
namespace Sys2Proof.Machine
-- One thread: proofs elaborated side by side with the text above take the one-text compile past its memory limit.
set_option Elab.async false

/-! ## Writes that act at their commit (R150, R153, R239, R291, R352, R356, R359) -/

section Motor

variable (h : Head) (key : List Nat) {n reg : Nat} (v : Nat) (e : Bool) (hn : n < 128) (hr : reg < 5)
include hn hr

theorem plainWord_motor : plainWord e (AX_RS n + 4 * reg) = true := by
  have h0 : ∀ r < 5, plainWord false (0x80020 + 4 * r) = true := by decide +kernel
  rw [show AX_RS n + 4 * reg = 0x80020 + 4 * reg + 0x400 * n by simp only [AX_RS]; omega, plainWord_ax hn (by omega) (by omega)]
  exact plainWord_view (h0 reg hr) e

theorem Head.writeBlock_motor : h.writeBlock key (AX_RS n + 4 * reg) v e = h.writeMotor n (AX_RS n + 4 * reg) v := by
  have ha : AX_RS n + 4 * reg = 0x80000 + (0x20 + 4 * reg) + 0x400 * n := by simp only [AX_RS]; omega
  rw [ha, h.writeBlock_axAt key v e hn (by omega)]
  dsimp only
  rw [if_neg (by omega), if_pos (by omega)]

end Motor

theorem Head.writeMotor_taken {h : Head} {n a : Nat} {w : Word} (hw : h.motorRange n a w.toNat = true) :
    h.writeMotor n a w.toNat = (h.setAxis n (fun x => { x with
      motorData := (x.motorData.filter (fun e => e.1 ≠ a)) ++ [(a, w)], deriving_ := true }), 0) := by
  simp only [Head.writeMotor, hw, Bool.not_true, Bool.false_eq_true, if_false, BitVec.ofNat_toNat, BitVec.setWidth_eq]

/-- No register page stands in the cam store. -/
theorem regRow?_cam {a : Nat} (hl : 0x200000 ≤ a) (hu : a < 0x280000) : regRow? a = none := by
  have hrows : ∀ b < 8, rowsOf (0x20 + b) = [] := by decide
  have hblock := hrows (a / 65536 - 0x20) (by omega)
  rw [show 0x20 + (a / 65536 - 0x20) = a / 65536 by omega] at hblock
  rw [regRow?, hblock, List.find?_nil]

theorem plainWord_cam {a : Nat} (e : Bool) (hl : 0x200000 ≤ a) (hu : a < 0x280000) (h4 : a % 4 = 0) : plainWord e a = true := by
  have hrow := regRow?_cam hl hu
  have hmapped : mapped a = true := by simp [mapped, h4, hl, hu]
  have hdenied : writeDenied e a = false := by
    have hsafe : (a / 65536 == 0x0E) = false := by simp only [beq_eq_false_iff_ne]; omega
    simp only [writeDenied, privAddr, hrow, hsafe, Bool.or_false, Bool.or_eq_false_iff, Bool.and_eq_false_iff, decide_eq_false_iff_not]
    omega
  simp [plainWord, addrFault_single, hmapped, hdenied, clearable1, halfOf, hrow, hl]

section Node

variable (h : Head) (key : List Nat) (v : Nat) (e : Bool)

theorem Head.writeBlock_dcbCtl {g : Nat} (hg : g < 16) :
    h.writeBlock key (DCB_CTL g) v e = h.writeDcbCtl g (band v (writable (DCB_CTL g) e)) := by
  have ha : DCB_CTL g = 0xD0000 + (0x5014 + 0x20 * g) := by simp only [DCB_CTL]; omega
  rw [ha, h.writeBlock_node key _ v e (by omega)]
  simp only [Head.writeNode, show (0xD0000 + (0x5014 + 0x20 * g)) % 0x20 = 0x14 by omega,
    show (0xD0000 + (0x5014 + 0x20 * g) - 0xD5000) / 0x20 = g by omega, show 0xD0000 + (0x5014 + 0x20 * g) ≥ 0xD5000 by omega, if_true]

theorem Head.writeBlock_nodeRcCtl : h.writeBlock key NODE_RC_CTL v e = if bit v 0 then h.requestRollCall h.coSafe else (h, 0) := rfl

variable {n : Nat} (hn : n ≤ 254)
include hn

/-- A word of a station's own registers. -/
theorem Head.writeBlock_station {off : Nat} (ho : off < 0x40) :
    h.writeBlock key (0xD0000 + (0x40 * n + off)) v e =
      if 0xD0000 + (0x40 * n + off) = NODE_CTL n then (if bit v 0 then h.nodeRelease n else h, 0)
      else if 0xD0000 + (0x40 * n + off) = NODE_RAWSW n then h.writeRawsw n v
      else h.defer (0xD0000 + (0x40 * n + off)) (h.merge (0xD0000 + (0x40 * n + off)) v e) true := by
  rw [h.writeBlock_node key _ v e (by omega)]
  unfold Head.writeNode
  dsimp only
  rw [if_neg (by omega), if_neg (by simp only [NODE_RC_CTL]; omega), show (0xD0000 + (0x40 * n + off) - 0xD0000) / 0x40 = n by omega]

theorem Head.writeBlock_nodeCtl : h.writeBlock key (NODE_CTL n) v e = (if bit v 0 then h.nodeRelease n else h, 0) := by
  have ha : NODE_CTL n = 0xD0000 + (0x40 * n + 0x14) := by simp only [NODE_CTL]; omega
  rw [ha, h.writeBlock_station key v e hn (by omega), if_pos ha.symm]

theorem Head.writeBlock_nodeRawsw : h.writeBlock key (NODE_RAWSW n) v e = h.writeRawsw n v := by
  have ha : NODE_RAWSW n = 0xD0000 + (0x40 * n + 0x30) := by simp only [NODE_RAWSW]; omega
  rw [ha, h.writeBlock_station key v e hn (by omega), if_neg (by simp only [NODE_CTL]; omega), if_pos ha.symm]

end Node

section Requests

variable {h : Head}

theorem Head.writeCam_taken {seg word : Nat} {w : Word} (hword : word < 8) (hfree : h.segInUse seg = false) :
    h.writeCam (0x200000 + 4 * (8 * seg + word)) w.toNat =
      ({ h with cams := h.cams.set zeroWord (8 * seg + word) w, ecc := h.ecc.erase (0x200000 + 4 * (8 * seg + word)) }, 0) := by
  have hi : (0x200000 + 4 * (8 * seg + word) - 0x200000) / 4 = 8 * seg + word := by omega
  have hs : (8 * seg + word) / 8 = seg := by omega
  simp only [Head.writeCam, hi, hs, hfree, Bool.false_eq_true, if_false, BitVec.ofNat_toNat, BitVec.setWidth_eq]

theorem Head.writeDcbCtl_clrLock {g : Nat} (hr : h.clrLockRefuse g = 0) :
    h.writeDcbCtl g 2 = ((h.put (DCB_CTL_REFUSE g) 0).setGroup g (fun x => { x with clrPending := true }), 0) := by
  simp only [Head.writeDcbCtl, hr, show bit 2 1 = true by decide, show bit 2 0 = false by decide, ne_eq, not_true_eq_false,
    if_true, if_false, Bool.false_eq_true]

theorem Head.writeDcbCtl_clrFail (g : Nat) : h.writeDcbCtl g 1 = (h.setGroup g (fun x => { x with failClr := true }), 0) := by
  simp only [Head.writeDcbCtl, show bit 1 1 = false by decide, show bit 1 0 = true by decide, ne_eq, not_true_eq_false,
    if_true, if_false, Bool.false_eq_true]

theorem Head.nodeRelease_locked {n : Nat} (hst : h.fld (NODE_STAT_STATE n) = 4) :
    h.nodeRelease n = ((h.setNode n (fun x => { x with failedProb := 0 })).put (NODE_STAT_STATE n) 2).resyncEchoes n false :=
  if_neg (not_not_intro hst)

theorem Head.requestRollCall_taken {safe : Bool} (hr : h.changeRefuse safe = 0) (hb : h.bell.running = true) :
    h.requestRollCall safe = ((h.put NODE_RC_CTL_REFUSE 0).setRc (fun x => { x with requested := true }), 0) := by
  simp only [Head.requestRollCall, hr, hb, ne_eq, not_true_eq_false, Bool.not_true, Bool.false_eq_true, or_self, if_false]

theorem bit_toNat {w : Nat} (x : BitVec w) (k : Nat) : bit x.toNat k = x.getLsbD k := by
  rw [← BitVec.testBit_toNat, bit, Nat.testBit_eq_decide_div_mod_eq, Bool.beq_eq_decide_eq]

/-- A raw switch test that closes no leg's two switches, on a node that is ready, for at most 20,000 ticks and less than a Bell, is sent. -/
theorem Head.writeRawsw_sent {n : Nat} {pattern : BitVec 6} {width : BitVec 16}
    (hlegs : ∀ leg : Fin 3, ¬(pattern.getLsbD (2 * leg.val) = true ∧ pattern.getLsbD (2 * leg.val + 1) = true))
    (hready : h.rawswReady n = true) (h1 : 1 ≤ width.toNat) (h2 : width.toNat ≤ 20000) (h3 : width.toNat + 1 ≤ h.bellTicks) :
    h.writeRawsw n (width.toNat * 65536 + pattern.toNat) =
      (((h.wr (NODE_RAWSW n) (width.toNat * 65536 + 256 + pattern.toNat)).setNode n (fun x => { x with rawsw := 0 })).queueTxn
        .rawsw n 3 0 0x60 1 [BitVec.ofNat 32 (width.toNat * 65536 + pattern.toNat)], 0) := by
  have hp : bits (width.toNat * 65536 + pattern.toNat) 5 0 = pattern.toNat := by simp only [bits]; omega
  have hw : bits (width.toNat * 65536 + pattern.toNat) 31 16 = width.toNat := by simp only [bits]; omega
  have hleg (k : Nat) (hk : k < 3) : (bit pattern.toNat (2 * k) && bit pattern.toNat (2 * k + 1)) = false := by
    simpa [bit_toNat] using hlegs ⟨k, hk⟩
  have hwidth : ¬(width.toNat < 1 ∨ width.toNat > 20000 ∨ width.toNat > h.bellTicks - 1) := by omega
  unfold Head.writeRawsw
  dsimp only
  rw [hp, hw, if_neg (by simp only [hleg 0, hleg 1, hleg 2, Nat.reduceLT, Bool.or_self, Bool.false_eq_true, not_false_eq_true]),
    if_neg (by simp [hready]), if_neg hwidth]

end Requests

section NodeBlock

/-! In the NODE block what may be written at an address hangs on its register page. -/

theorem mapped_nodeBlock {a : Nat} (ha : a / 65536 = 0xD) : mapped a = (a % 4 == 0 && (regRow? a).isSome) := by
  have hw : (0x200000 ≤ a ∧ a < 0x280000) = False ∧ (0x400000 ≤ a ∧ a < 0x440000) = False ∧
      (0x60000 ≤ a ∧ a < 0x64000) = False ∧ (0x68000 ≤ a ∧ a < 0x7A000) = False := by
    simp only [eq_iff_iff, iff_false]; omega
  simp [mapped, hw]

theorem writeDenied_nodeBlock {a : Nat} (e : Bool) (ha : a / 65536 = 0xD) : writeDenied e a = (privAddr a && !e) := by
  have hw : (0x400000 ≤ a) = False ∧ (0xA1800 ≤ a ∧ a < 0xA2000) = False ∧ (0x111000 ≤ a ∧ a < 0x116000) = False ∧
      (0x800 ≤ a ∧ a < 0x1000) = False ∧ (0x48000 ≤ a ∧ a < 0x50000) = False := by
    simp only [eq_iff_iff, iff_false]; omega
  simp [writeDenied, hw, ha]

variable {a b : Nat} (ha : a / 65536 = 0xD) (hb : b / 65536 = 0xD) (h4 : a % 4 = b % 4) (hr : regRow? a = regRow? b) (e : Bool)
include ha hb h4 hr

theorem plainWord_nodeBlock : plainWord e a = plainWord e b := by
  have hpriv : (0x50000 ≤ a ∧ a < 0x7A000) = (0x50000 ≤ b ∧ b < 0x7A000) := by rw [eq_iff_iff]; omega
  have hwindow : (0x200000 ≤ a) = (0x200000 ≤ b) := by rw [eq_iff_iff]; omega
  have hadd : (a == TIME_MT_ADDEND) = (b == TIME_MT_ADDEND) := by rw [Bool.eq_iff_iff, beq_iff_eq, beq_iff_eq, TIME_MT_ADDEND]; omega
  simp only [plainWord, addrFault_single, mapped_nodeBlock ha, mapped_nodeBlock hb, writeDenied_nodeBlock e ha, writeDenied_nodeBlock e hb,
    privAddr, clearable1, writable, halfOf, h4, hr, hpriv, hwindow, hadd]

theorem Fld.alone_nodeBlock (hi lo : Nat) : (⟨a, hi, lo⟩ : Fld).alone e = (⟨b, hi, lo⟩ : Fld).alone e := by
  simp only [Fld.alone, Fld.within, Fld.mask, plainWord_nodeBlock ha hb h4 hr e, stored, writable, hr]

end NodeBlock

section Stations

/-- A page entry of the NODE block that is one register for each of the stations 1 to 254, at a stride of 0x40, or that stands past them. -/
def RegRow.perStation (r : RegRow) : Bool :=
  (r.stride == 0x40 && r.first == 1 && r.last == 255 && decide (0xD0000 ≤ r.base) && decide (r.base < 0xD0040)) ||
    decide (0xD4000 ≤ r.base + r.stride * r.first)

theorem rowsOf_node_perStation : ∀ r ∈ rowsOf 0xD, r.perStation = true := by decide +kernel

variable {n c : Nat} (h1 : 1 ≤ n) (hn : n ≤ 254) (hc : c < 0x40)
include h1 hn hc

theorem RegRow.holds_perStation {r : RegRow} (hr : r.perStation = true) : r.holds (0xD0000 + c + 0x40 * n) = r.holds (0xD0040 + c) := by
  simp only [RegRow.perStation, Bool.or_eq_true, Bool.and_eq_true, beq_iff_eq, decide_eq_true_eq] at hr
  rw [Bool.eq_iff_iff]
  simp only [RegRow.holds, Bool.and_eq_true, decide_eq_true_eq, beq_iff_eq]
  rcases hr with ⟨⟨⟨⟨hs, hf⟩, hl⟩, hb⟩, hb'⟩ | hpast
  · rw [hs, hf, hl]
    omega
  · omega

/-- Every station has the register pages of station 1. -/
theorem regRow?_station : regRow? (0xD0000 + c + 0x40 * n) = regRow? (0xD0040 + c) := by
  unfold regRow?
  rw [show (0xD0000 + c + 0x40 * n) / 65536 = 0xD by omega, show (0xD0040 + c) / 65536 = 0xD by omega]
  exact List.find?_congr fun r hr => RegRow.holds_perStation h1 hn hc (rowsOf_node_perStation r hr)

theorem plainWord_station (e : Bool) : plainWord e (0xD0000 + c + 0x40 * n) = plainWord e (0xD0040 + c) :=
  plainWord_nodeBlock (by omega) (by omega) (by omega) (regRow?_station h1 hn hc) e

theorem Fld.alone_station (e : Bool) (hi lo : Nat) :
    (⟨0xD0000 + c + 0x40 * n, hi, lo⟩ : Fld).alone e = (⟨0xD0040 + c, hi, lo⟩ : Fld).alone e :=
  Fld.alone_nodeBlock (by omega) (by omega) (by omega) (regRow?_station h1 hn hc) e hi lo

end Stations

theorem dcbCtl_clrLock_alone : ∀ g < 16, (⟨DCB_CTL g, 1, 1⟩ : Fld).alone true = true := by decide +kernel
theorem dcbCtl_clrFail_alone : ∀ g < 16, ∀ e, (⟨DCB_CTL g, 0, 0⟩ : Fld).alone e = true := by decide +kernel
theorem nodeRcCtl_alone : ∀ e, NODE_RC_CTL_FULL.alone e = true := by decide +kernel

theorem nodeCtl_alone {n : Nat} (h1 : 1 ≤ n) (hn : n ≤ 254) (e : Bool) : (NODE_CTL_RELEASE n).alone e = true := by
  have hfirst : ∀ e, (NODE_CTL_RELEASE 1).alone e = true := by decide +kernel
  exact (Fld.alone_station (c := 0x14) h1 hn (by decide) e 0 0).trans (hfirst e)

theorem plainWord_nodeRawsw {n : Nat} (h1 : 1 ≤ n) (hn : n ≤ 254) : plainWord true (NODE_RAWSW n) = true := by
  have hfirst : plainWord true (NODE_RAWSW 1) = true := by decide +kernel
  exact (plainWord_station (c := 0x30) h1 hn (by decide) true).trans hfirst

/-- Settles O25: each request is one word that its register's rule takes. -/
theorem commandsThatActAtOnce : Obligations.CommandsThatActAtOnce := by
  unfold Obligations.CommandsThatActAtOnce
  intro s hs h
  have hwant : h.boot.want = 0 := hs.1.2
  refine ⟨?_, ?_, fun g heng hr => ?_, fun g => ?_, fun n h1 hn hst => ?_, fun hr hb => ?_,
    fun n pattern width h1 hn heng hlegs hready hw1 hw2 hw3 => ?_⟩
  · intro k reg w a hrange
    have hwrite := s.write_one a w.toNat _ hs (plainWord_motor h.engineer k.isLt reg.isLt) w.isLt
      ((h.writeBlock_motor s.key w.toNat h.engineer k.isLt reg.isLt).trans (Head.writeMotor_taken hrange)) hwant
    rw [BitVec.ofNat_toNat, BitVec.setWidth_eq] at hwrite
    exact congrArg Host.Outcome.next hwrite
  · intro seg word w hfree a
    have hseg := seg.isLt
    have hword := word.isLt
    have hblock : h.writeBlock s.key a w.toNat h.engineer =
        ({ h with cams := h.cams.set zeroWord (8 * seg.toNat + word.val) w, ecc := h.ecc.erase a }, 0) := by
      rw [Head.writeBlock, if_pos (by omega), show a = 0x200000 + 4 * (8 * seg.toNat + word.val) by omega]
      exact Head.writeCam_taken hword hfree
    have hwrite := s.write_one a w.toNat _ hs (plainWord_cam h.engineer (by omega) (by omega) (by omega)) w.isLt hblock hwant
    rw [BitVec.ofNat_toNat, BitVec.setWidth_eq] at hwrite
    exact congrArg Host.Outcome.next hwrite
  · have ha := dcbCtl_clrLock_alone g.val g.isLt
    refine congrArg Host.Outcome.next (s.writeField_bit (DCB_CTL g.val) 1 _ hs (heng ▸ ha) ?_ (by simp [h]))
    rw [s.head.writeBlock_dcbCtl s.key _ _ g.isLt, heng, band_bit ha, show 2 ^ 1 = 2 from rfl, Head.writeDcbCtl_clrLock hr]
  · have ha := dcbCtl_clrFail_alone g.val g.isLt h.engineer
    refine congrArg Host.Outcome.next (s.writeField_bit (DCB_CTL g.val) 0 _ hs ha ?_ (by simp [h]))
    rw [s.head.writeBlock_dcbCtl s.key _ _ g.isLt, band_bit ha, pow_zero, Head.writeDcbCtl_clrFail]
  · refine congrArg Host.Outcome.next (s.writeField_bit (NODE_CTL n) 0 _ hs (nodeCtl_alone h1 hn h.engineer) ?_ (by simp [h]))
    rw [s.head.writeBlock_nodeCtl s.key _ _ hn, if_pos (by decide), Head.nodeRelease_locked hst]
  · refine congrArg Host.Outcome.next (s.writeField_bit NODE_RC_CTL 0 _ hs (nodeRcCtl_alone h.engineer) ?_ (by simp [h]))
    rw [s.head.writeBlock_nodeRcCtl, if_pos (by decide), Head.requestRollCall_taken hr hb]
  · have hp : plainWord h.engineer (NODE_RAWSW n) = true := heng ▸ plainWord_nodeRawsw h1 hn
    exact congrArg Host.Outcome.next (s.write_one (NODE_RAWSW n) _ _ hs hp (by omega)
      ((h.writeBlock_nodeRawsw s.key _ _ hn).trans (Head.writeRawsw_sent hlegs hready hw1 hw2 hw3)) (by simpa using hwant))

end Sys2Proof.Machine
end

section
namespace Sys2Proof.Machine
-- One thread: proofs elaborated side by side with the text above take the one-text compile past its memory limit.
set_option Elab.async false

/-! ## Holdover and the line link (R139, R164 to R167) -/

section Holdover

variable {h : Head}

/-- A head that has no source to lose stays as it is. -/
theorem Head.timeHoldover_idle (hst : h.fld TIME_MT_STAT_STATE = 0 ∨ h.fld TIME_MT_STAT_STATE = 3) : h.timeHoldover = h := if_pos hst

section Steering

variable (hst : h.fld TIME_MT_STAT_STATE = 1 ∨ h.fld TIME_MT_STAT_STATE = 2)
include hst

theorem Head.timeHoldover_follower (hm : h.refMode = 1) :
    h.timeHoldover = (h.forward (h.time.steer.keptAt + 1600000)).enterHoldover.setSteer (fun s => { s with followSrc := none }) := by
  rw [Head.timeHoldover, if_neg (by omega), if_pos hm]

/-- A head that steers by a station takes the next candidate. -/
theorem Head.timeHoldover_station (hm : h.refMode ≠ 1) (hl : 4 ≤ h.time.steer.lostRun) :
    h.timeHoldover = h.enterHoldover.moveCandidate := by
  rw [Head.timeHoldover, if_neg (by omega), if_neg hm, Head.holdover, if_neg (by omega), if_neg (by omega)]

end Steering

theorem Head.moveCandidate_none (hn : h.nextCandidate = none) :
    h.moveCandidate = h.setSteer (fun s => { s with handover := [], lostRun := 0, moved := false }) := by
  rw [Head.moveCandidate, hn]

theorem Head.moveCandidate_some {i : Nat} (hn : h.nextCandidate = some i) :
    h.moveCandidate = ((h.put TIME_MT_STAT_CAND i).put TIME_MT_STAT_REF (nth h.candidates i)).setSteer
      (fun s => { s with handover := [], lostRun := 0, moved := true }) := by
  rw [Head.moveCandidate, hn]

end Holdover

section Link

variable (h : Head)

@[simp] theorem Head.sendLine_boot (kind : Nat) (toPartner : Bool) (ws : List Word) : (h.sendLine kind toPartner ws).boot = h.boot :=
  h.sendAs_boot _ _ _
@[simp] theorem Head.sendMirror_boot (typ index : Nat) (toPartner : Bool) (ws : List Word) :
    (h.sendMirror typ index toPartner ws).boot = h.boot := Head.sendLine_boot _ _ _ _
@[simp] theorem Head.send_boot (lane : Nat) (f : Frame) : (h.send lane f).boot = h.boot := h.sendAs_boot _ _ _

@[simp] theorem Head.takeSync_boot (u : Nat) : (h.takeSync u).boot = h.boot := rfl
@[simp] theorem Head.srcConflict_boot : h.srcConflict.boot = h.boot := by simp [Head.srcConflict]

@[simp] theorem Head.steer_boot (e : Int) (ts : Nat) : (h.steer e ts).boot = h.boot := by
  unfold Head.steer
  extract_lets s ki kp i r lim clamped r f clampRun st near far kept steered shown limited phased
  have hlimited : limited.boot = h.boot := Head.ite_boot (shown.timeEvent_boot 5) rfl
  have hphased : phased.boot = h.boot := (Head.ite_boot (by simp) (Head.ite_boot (by simp) rfl)).trans hlimited
  exact Head.ite_boot ((Head.sendMirror_boot ..).trans hphased) hphased

@[simp] theorem Head.takeFollow_boot (ws : List Word) : (h.takeFollow ws).boot = h.boot := by
  unfold Head.takeFollow
  extract_lets src taken conflict warned lead led dep back
  refine Head.ite_boot rfl ?_
  split
  · rfl
  · extract_lets e
    have hwarned : warned.boot = taken.boot := Head.ite_boot taken.srcConflict_boot rfl
    have hled : led.boot = h.boot := (Head.put_boot ..).trans hwarned
    clear_value led
    have hback : back.boot = h.boot := (Head.ite_boot ((Head.timeEvent_boot _ 4).trans (led.put_boot _ 1)) rfl).trans hled
    exact Head.ite_boot hled (Head.ite_boot ((led.setSteer_boot _).trans hled) (Head.ite_boot (led.refFault_boot.trans hled)
      (Head.ite_boot hled ((back.steer_boot e _).trans hback))))

@[simp] theorem Head.setSteer_now (f : Steering → Steering) : (h.setSteer f).now = h.now := rfl
@[simp] theorem Head.setSteer_regs (f : Steering → Steering) : (h.setSteer f).regs = h.regs := rfl
@[simp] theorem Head.setSteer_mt (f : Steering → Steering) : (h.setSteer f).time.mt = h.time.mt := rfl
theorem Head.setSteer_draw (f : Steering → Steering) : (h.setSteer f).draw = h.draw.setSteer f := rfl
@[simp] theorem Head.forward_draws (t : Nat) : (h.forward t).draws = h.draws := by rw [Head.forward_eq]

@[simp] theorem Head.send_time (lane : Nat) (f : Frame) : (h.send lane f).time = h.time := by
  unfold Head.send Head.sendAs
  split_ifs <;> rfl

/-- The boundary delays and the source named to the next head stand in registers. -/
theorem Head.txDelay_congr {g h : Head} (hr : g.regs = h.regs) (lane : Nat) : g.txDelay lane = h.txDelay lane := by
  have hrd := Head.rd_congr hr
  have hon (f : Fld) : g.on f = h.on f := congrArg (bits · f.hi f.lo != 0) (hrd f.addr)
  simp only [Head.txDelay, Head.trimUsed, hon, hrd]

theorem Head.timeSource_congr {g h : Head} (hr : g.regs = h.regs) : g.timeSource = h.timeSource := by
  have hfld (f : Fld) : g.fld f = h.fld f := congrArg (bits · f.hi f.lo) (Head.rd_congr hr f.addr)
  have hsub : g.substitute = h.substitute := congrArg (· == 2) (hfld RED_STAT_ROLE)
  have hmode : g.refMode = h.refMode := if_congr (by rw [hsub]) rfl (hfld _)
  exact if_congr (by rw [hmode]) (Head.ring_congr hr) (hfld _)

/-- LINE_SYNC and LINE_FOLLOW leave at the next even millisecond that none has left at. -/
theorem Head.lineSync_sends {k : Nat} (hm : h.fld TIME_MT_CTL_REF_MODE ≤ 1) (hl : h.on LANE_TOPO_LL_USED = true)
    (hk : max (h.time.steer.syncEven + 1) (h.time.mt.nextOf (2000000 * 2 ^ 32) h.now) = k) {due : Head}
    (hd : (h.forward (h.time.mt.tickOf (k * 2000000 * 2 ^ 32))).setSteer (fun s => { s with syncEven := k }) = due) {st : Nat}
    (hst : stampOf ((due.time.mt.at due.now + ((Config.freePhase h.draws).val + due.txDelay 9) * 4 * 2 ^ 32 / 5) / 2 ^ 32) 0 = st) :
    h.lineSync = (due.draw.sendMirror 0x51 0 false [0]).sendMirror 0x52 0 false
      [BitVec.ofNat 32 st, BitVec.ofNat 32 (st / 2 ^ 32), BitVec.ofNat 32 due.timeSource] := by
  rw [Head.lineSync, if_neg (by simp [hl, Nat.not_lt.mpr hm])]
  extract_lets even g stamp sent
  have heven : even = k := hk
  have hg : h.forward (h.time.mt.tickOf (even * 2000000 * 2 ^ 32)) = g := rfl
  clear_value even g
  subst heven
  rw [hg] at hd
  have hdraws : g.draws = h.draws := by rw [← hg, Head.forward_draws]
  have hst' : stamp = st := by
    rw [← hd, Head.setSteer_mt, Head.setSteer_now, Head.txDelay_congr (g.setSteer_regs _), ← hdraws] at hst
    exact hst
  have hsent : due.draw = sent := by rw [← hd, Head.setSteer_draw]
  have hsrc : due.timeSource = sent.timeSource := by rw [← hsent]; exact Head.timeSource_congr rfl
  clear_value stamp sent
  rw [hst', hsent, hsrc]

end Link

section Follow

variable {h : Head} {q : RxFrame}

/-- A time frame on the line link, of TYPE 0x51 to 0x53: none of pair traffic, and consumed here (R95, R166). -/
theorem pairTraffic_time (hk : fKind q.frame = 0xD) (ht : bits (wordAt q.frame.payload 0) 31 24 ∈ [0x51, 0x52, 0x53]) :
    pairTraffic q.frame = false := by
  simp only [List.mem_cons, List.not_mem_nil, or_false] at ht
  rcases ht with ht | ht | ht <;> simp [pairTraffic, hk, ht]

theorem Head.lineReceive_time (hl : q.lane = 8) (hf : frameFault q = none) (hb : h.banksFull 8 = false) (hk : fKind q.frame = 0xD)
    (ht : bits (wordAt q.frame.payload 0) 31 24 ∈ [0x51, 0x52, 0x53]) (done : Nat) :
    h.lineReceive q done = (h.bank 8 q.frame).lineFrame q done := by
  have hpass : h.passOn q.frame = h := by
    refine if_neg ?_
    simp only [List.mem_cons, List.not_mem_nil, or_false] at ht
    rcases ht with ht | ht | ht <;> simp [Head.lineOnward, pairTraffic_time hk, ht]
  rw [Head.lineReceive_stored hl hf (hpass.symm ▸ hb), hpass]

theorem Head.lineFrame_sync (hk : fKind q.frame = 0xD) (hst : fStation q.frame ≠ h.ring * 256)
    (ht : bits (wordAt q.frame.payload 0) 31 24 = 0x51) (done : Nat) : h.lineFrame q done = h.takeSync q.stamp := by
  simp [Head.lineFrame, pairTraffic_time hk, hst, ht]

theorem Head.lineFrame_follow (hk : fKind q.frame = 0xD) (hst : fStation q.frame ≠ h.ring * 256)
    (ht : bits (wordAt q.frame.payload 0) 31 24 = 0x52) (done : Nat) : h.lineFrame q done = h.takeFollow (q.frame.payload.drop 1) := by
  simp [Head.lineFrame, pairTraffic_time hk, hst, ht]

/-- A sound mirror frame of TYPE `typ` on LL0 while it is UP, with a bank free for it and not for this head alone. -/
structure Head.HearsTime (h : Head) (r : RxFrame) (typ : Nat) : Prop where
  up : h.laneUp 8 = true
  lane : r.lane = 8
  sound : frameFault (h.atBoundary r) = none
  room : (h.arrive r).banksFull 8 = false
  kind : fKind r.frame = 0xD
  others : fStation r.frame ≠ (h.arrive r).ring * 256
  typ : bits (wordAt r.frame.payload 0) 31 24 = typ

variable {r : RxFrame} {typ : Nat}

theorem Head.HearsTime.receive (ht : h.HearsTime r typ) (hmem : typ ∈ [0x51, 0x52, 0x53]) :
    h.receive r = ((h.arrive r).bank 8 r.frame).lineFrame (h.atBoundary r) (rxDone r) := by
  obtain ⟨hup, hlane, hsound, hroom, hkind, -, rfl⟩ := ht
  have hv : r.lane.val = 8 := congrArg Fin.val hlane
  rw [Head.receive, hv, hup]
  exact Head.lineReceive_time (q := h.atBoundary r) hlane hsound hroom hkind hmem _

theorem Head.HearsTime.receive_sync (ht : h.HearsTime r 0x51) :
    h.receive r = ((h.arrive r).bank 8 r.frame).takeSync (h.atBoundary r).stamp :=
  (ht.receive (by decide)).trans (Head.lineFrame_sync (q := h.atBoundary r) ht.kind (fun hc => ht.others (hc.trans (by simp))) ht.typ _)

theorem Head.HearsTime.receive_follow (ht : h.HearsTime r 0x52) :
    h.receive r = ((h.arrive r).bank 8 r.frame).takeFollow (r.frame.payload.drop 1) :=
  (ht.receive (by decide)).trans (Head.lineFrame_follow (q := h.atBoundary r) ht.kind (fun hc => ht.others (hc.trans (by simp))) ht.typ _)

end Follow

section Echo

variable {h : Head} {t1 t2 t3 t4 : Nat} {asked : Head} {l : List Int}
  (ha : h.send 8 (mkFrame (headWord0 (h.ring * 256 + 255) 0xD 2 false false false) (headWord1 h.ownEpoch h.bellNo h.ring)
    [mirrorWord 0x53 0 h.red.lineSeq, BitVec.ofNat 32 t1]) = asked)
  (hl : h.time.steer.linkSamples ++ [echoSample (t1 + asked.txDelay 8) t2 t3 (t4 - asked.rxDelay 8)] = l)
include ha hl

theorem Head.linkEcho_more (hn : l.length < 16) : h.linkEcho t1 t2 t3 t4 = asked.setSteer (fun s => { s with linkSamples := l }) := by
  have htime : asked.time = h.time := ha ▸ h.send_time _ _
  simp only [Head.linkEcho, ha, htime, hl, hn, if_true]

theorem Head.linkEcho_full {d : Int} (hn : l.length = 16) (hd : trimmedMean l = some d) :
    h.linkEcho t1 t2 t3 t4 = asked.setSteer (fun s => { s with linkSamples := [], linkRetook := false, linkDelay := d.toNat }) := by
  have htime : asked.time = h.time := ha ▸ h.send_time _ _
  simp only [Head.linkEcho, ha, htime, hl, hn, hd, lt_self_iff_false, if_false]

end Echo

/-- Settles O47: each event is one equation of the head, and none asks for anything beyond it. -/
theorem lineTimeIsShared : Obligations.LineTimeIsShared := by
  unfold Obligations.LineTimeIsShared
  intro s hs h gives
  refine ⟨?_, fun hm hl => ?_, fun sync follow => ?_, fun t1 t2 t3 t4 => ?_⟩
  · intro st
    refine ⟨fun hst => ?_, fun hst hm => ?_, fun hst hm hlost => ?_⟩
    · exact State.onHead_next hs (Head.timeHoldover_idle hst) rfl
    · intro due
      exact State.onHead_next hs (Head.timeHoldover_follower hst hm) (by simp [due, h])
    · intro held again
      have hheld : h.enterHoldover = held := rfl
      have hboot : held.boot = h.boot := h.enterHoldover_boot
      have hmove := Head.timeHoldover_station hst hm hlost
      rw [hheld] at hmove
      clear_value held
      refine ⟨fun hn => ?_, fun i hn => ?_⟩
      · exact State.onHead_next hs (hmove.trans (Head.moveCandidate_none hn)) hboot
      · exact State.onHead_next hs (hmove.trans (Head.moveCandidate_some hn)) hboot
  · intro k due st
    exact State.onHead_next hs (h.lineSync_sends hm hl rfl rfl rfl) (by simp [due, h])
  · intro good heard hsync hfollow
    have hears {h : Head} {r : RxFrame} {typ : Nat} : good h r typ → h.HearsTime r typ :=
      fun ⟨hup, hlane, hsound, hroom, hkind, hothers, htyp⟩ => ⟨hup, hlane, hsound, hroom, hkind, hothers, htyp⟩
    have hfirst : h.receive sync = heard := (hears hsync).receive_sync
    have hboot : heard.boot = h.boot := by simp [heard]
    clear_value heard
    refine State.onHead_next (f := fun h => (h.receive sync).receive follow) hs (hfirst ▸ (hears hfollow).receive_follow) ?_
    rw [Head.takeFollow_boot, Head.bank_boot, Head.arrive_boot, hboot]
  · intro asked l
    have hboot : asked.boot = h.boot := h.send_boot _ _
    have hl : h.time.steer.linkSamples ++ [echoSample (t1 + asked.txDelay 8) t2 t3 (t4 - asked.rxDelay 8)] = l := rfl
    refine ⟨fun hn => ?_, fun d hn hd => ?_⟩
    · exact State.onHead_next hs (Head.linkEcho_more rfl hl hn) hboot
    · exact State.onHead_next hs (Head.linkEcho_full rfl hl hn hd) hboot

end Sys2Proof.Machine
end

section
namespace Sys2Proof.Machine
-- One thread: proofs elaborated side by side with the text above take the one-text compile past its memory limit.
set_option Elab.async false

/-! ## Stations lost and detained (R149 to R152, R339, R359) -/

section OutOfOperation

variable (h : Head)

theorem Head.signal_boot (e : Nat) : (h.signal e).boot = h.boot := (h.signal_logOnly e).boot
theorem Head.report_boot (a b e : Nat) : (h.report a b e).boot = h.boot := (h.report_regsOnly a b e).boot

@[simp] theorem Head.raiseWith_boot (a b c d : Nat) : (h.raiseWith a b c d).boot = h.boot := by
  have hreport := ((h.signal (evCode a b c)).report_boot a b (evCode a b c)).trans (h.signal_boot _)
  exact Head.ite_boot ((Head.logAdd_boot _ _ _ _ _).trans hreport) hreport

@[simp] theorem Head.pullStation_boot (k f : Nat) : (h.pullStation k f).boot = h.boot := by
  unfold Head.pullStation
  dsimp only
  rw [Head.loopsFault_boot, Head.foldl_boot _ _ (fun g n => g.faultAxis_boot n f), Head.foldl_boot, Head.setNode_boot]
  exact fun g t => (Head.setTask_boot _ _ _).trans (g.disableTask_boot t)

@[simp] theorem Head.segmentLost_boot (lane k : Nat) : (h.segmentLost lane k).boot = h.boot := by
  unfold Head.segmentLost
  dsimp only
  refine Head.ite_boot rfl ?_
  rw [Head.privFlag_boot, Head.raiseWith_boot]
  exact h.foldl_boot _ (fun g n => Head.ite_boot (g.setNode_boot _ _) (by simp)) _

@[simp] theorem Head.configWrite_boot (k : Nat) : (h.configWrite k).boot = h.boot := by
  unfold Head.configWrite
  dsimp only
  rw [Head.foldl_boot _ _ (fun g e => g.queueTxn_boot ..), Head.setNode_boot, Head.putBit_boot]

@[simp] theorem Head.nodeBack_boot (k : Nat) : (h.nodeBack k).boot = h.boot :=
  h.foldl_boot _ (fun g t => Head.ite_boot (g.enableTask_boot t) rfl) _

@[simp] theorem Head.unfault_boot (n : Nat) : (h.unfault n).boot = h.boot := Head.ite_boot (h.put_boot _ _) rfl

@[simp] theorem Head.releaseNode_boot (k : Nat) : (h.releaseNode k).boot = h.boot := by
  unfold Head.releaseNode
  dsimp only
  rw [Head.configWrite_boot, Head.nodeBack_boot, Head.foldl_boot]
  · simp
  · simp

@[simp] theorem Head.probationFailed_boot (k : Nat) : (h.probationFailed k).boot = h.boot := by
  unfold Head.probationFailed
  dsimp only
  split_ifs <;> simp

variable {h} {lane k : Nat}

/-! SEGMENT_LOSS of a lane in use in a cyclic Bell. -/

section Segment

variable (hrun : h.bell.running = true) (hcyc : h.bell.rollcall = false) (huse : h.fieldLanes.contains lane = true)
include hrun hcyc huse

theorem Head.segmentCheck_down (hdown : h.laneUp lane = false) : h.segmentCheck lane = h.segmentLost lane 1 := by
  simp only [Head.segmentCheck, hrun, hcyc, huse, hdown, Bool.not_true, Bool.not_false, Bool.false_eq_true, or_self, if_true, if_false]

theorem Head.segmentCheck_missing (hup : h.laneUp lane = true) (hline : h.topo (lane / 4) = 1) (hlost : 0 < h.lostFrom lane) :
    h.segmentCheck lane = h.segmentLost lane (h.lostFrom lane) := by
  simp only [Head.segmentCheck, hrun, hcyc, huse, hup, hline, hlost.ne', Bool.not_true, Bool.false_eq_true, or_self, if_true, if_false]

end Segment

theorem Head.rejoinEcho_due {st : Nat} {more : List Nat} (hl : h.lostStations lane = st :: more) (hr : (h.node st).resync = .none)
    (hq : (h.net.waiting ++ h.net.flights.map (·.txn)).any (fun x => x.src == .rejoinEcho && x.station == st) = false)
    (hd : ∀ b, (h.lane lane).echoBell = some b → 64 ≤ bellsSince h.bellNo b) :
    h.rejoinEcho lane = (h.setLane lane (fun x => { x with echoBell := some h.bellNo })).queueTxn .rejoinEcho st 0 4 0 0 [] := by
  have hdue : h.echoDue lane = true := by simpa [Head.echoDue, Option.all_eq_true] using hd
  simp only [Head.rejoinEcho, hl, hr, hdue, hq, ne_eq, not_true_eq_false, Bool.not_true, Bool.false_eq_true, or_self, if_false]

theorem Head.resyncStart_waited {b : Nat} (hw : (h.node k).resync = .wait b) (hb : bellReached h.bellNo b = true) :
    h.resyncStart k = h.resyncEchoes k false := by
  simp only [Head.resyncStart, hw, hb, if_true]

theorem Head.probationEnd_failed {b : Nat} (hp : (h.node k).resync = .probation b)
    (hbad : (h.node k).probDrift = true ∨ 16 ≤ (h.node k).probMiss) : h.probationEnd k = h.probationFailed k := by
  simp only [Head.probationEnd, hp, ge_iff_le, hbad, if_true]

theorem Head.probationEnd_clean {b : Nat} (hp : (h.node k).resync = .probation b) (hd : (h.node k).probDrift = false)
    (hm : (h.node k).probMiss < 16) (hb : 256 ≤ bellsSince h.bellNo b) (he : (h.node k).probEdges ≤ 2) :
    h.probationEnd k = h.releaseNode k := by
  simp only [Head.probationEnd, hp, hd, ge_iff_le, Nat.not_le.mpr hm, hb, he, Bool.false_eq_true, or_self, if_true, if_false]

theorem Head.clearTimeout_kept {g : Nat} (hc : (h.group g).clearLeft = some 0) :
    h.clearTimeout g = (h.put (DCB_CTL_REFUSE g) 3).setGroup g (fun x => { x with clearLeft := none }) := if_pos hc

end OutOfOperation

/-- Settles O49: each event is one equation of the head, and none asks for anything beyond it. -/
theorem lostAndDetainedNodesComeBack : Obligations.LostAndDetainedNodesComeBack := by
  unfold Obligations.LostAndDetainedNodesComeBack
  intro s hs h gives
  refine ⟨fun lane hrun hcyc huse => ⟨fun hdown => ?_, fun hup hline hlost => ?_⟩, fun lane st more hl hr hq hd => ?_,
    fun st b hw hb => ?_, fun st b hp => ?_, fun st => ?_, fun g hc => ?_⟩
  · exact State.onHead_next hs (Head.segmentCheck_down hrun hcyc huse hdown) (h.segmentLost_boot _ _)
  · exact State.onHead_next hs (Head.segmentCheck_missing hrun hcyc huse hup hline hlost) (h.segmentLost_boot _ _)
  · exact State.onHead_next hs (Head.rejoinEcho_due hl hr hq hd) (by simp [h])
  · exact State.onHead_next hs (Head.resyncStart_waited hw hb) (h.resyncEchoes_boot st false)
  · intro again failed
    have hfailed : h.probationFailed st = failed := if_congr (by omega) rfl rfl
    clear_value failed
    refine ⟨fun hbad => ?_, fun hdrift hmiss hb hedges => ?_⟩
    · exact State.onHead_next hs ((Head.probationEnd_failed hp hbad).trans hfailed) (hfailed ▸ h.probationFailed_boot st)
    · exact State.onHead_next hs (Head.probationEnd_clean hp hdrift hmiss hb hedges) (h.releaseNode_boot st)
  · intro begun
    exact State.onHead_next hs rfl (h.configWrite_boot st)
  · exact State.onHead_next hs (Head.clearTimeout_kept hc) (by simp [h])

end Sys2Proof.Machine
end

section
namespace Sys2Proof.Machine
-- One thread: proofs elaborated side by side with the text above take the one-text compile past its memory limit.
set_option Elab.async false

/-! ## A Roll Call request under a recipe with a task number past the scheduler's 1024 (R136, R206) -/

/-- A task number that the form of a recipe allows and the scheduler has no room for: the task's SCHED_TSTAT is RED_CFG. -/
def farTask : Nat := 0x2B000

/-- The contents whose one task has that number. -/
def farTaskContent : Content :=
  { regs := [], cmdSlots := [], repSlots := [], laneTables := [], positions := [], stations := [], candidates := []
    tasks := [(farTask, [])], reserved := [], code := [], xData := [], yData := [], cData := [], cams := []
    initialState := 0, routes := [], mirror := [], privTasks := [], joinPairs := [], hbT := 0 }

/-- The recipe with these contents. -/
def farTaskRecipe : Recipe :=
  { level := 1, id := 1, ver := 1, wcLoad := 0, bellTicks := 25000, recessTicks := 5000, topoA := 0, topoB := 1, llUsed := false
    netSig := 0, safeSig := 0, safety := [], content := farTaskContent, fromHost := false, slot := 0 }

/-- An unpaired head of side B in Roll Call under this recipe: lane 4, in use as a line, is at its PROBE, and the task is a privileged one
whose mask is flag 26 alone. -/
def farTaskHead : Head :=
  let h : Head := { Head.initial with
    boot := { Boot.initial with recipe := some farTaskRecipe }
    bell := { Bell.initial with rollcall := true } }
  let inRollCall := (((h.put RED_CFG_SIDE 1).put LANE_TOPO_TOPO_B 1).setRc (fun r => { r with active := true })).setRcLane 4 (fun y =>
    { y with step := .probe })
  (inRollCall.wr (SCHED_DESC (8 * farTask)) 0x40000000).wr (SCHED_DESC (8 * farTask + 1)) 0x04000000

def farTaskState : State := { State.reset with inReset := false, head := farTaskHead }

theorem farTaskState_runs : farTaskState.runs := ⟨rfl, rfl⟩

theorem fieldLanes_farTask : farTaskState.head.fieldLanes = [4] := by decide +kernel

/-- Flag 26 makes the task ready: SIDE 1 and PAIR 0, the state of a waiting task, become SIDE 0 and PAIR 1. No lane is then the head's,
and it sends nothing on lane 4. -/
theorem rollCallRequest_farTask : ((farTaskState.head.rollCallRequest (0 : Fin 11).val).rcLane 4).sent = false := by decide +kernel

theorem rollCallRequest_farTask_boot : (farTaskState.head.rollCallRequest (0 : Fin 11).val).boot = farTaskState.head.boot := by
  decide +kernel

/-- The lanes in use before flag 26 call for a PROBE on lane 4. -/
theorem rcRequests_farTask :
    ((farTaskState.head.fieldLanes.foldl (fun (h : Head) l => h.rcRequest l (0 : Fin 11).val)
      ((farTaskState.head.forward (farTaskState.head.instantTick 64)).privFlag 26)).rcLane 4).sent = true := by
  rw [fieldLanes_farTask]
  decide +kernel

/-- What the clause of ROLLCALL_REQUEST says of the head. -/
theorem rollCallRequest_of_rollCallProceeds (h : Obligations.RollCallProceeds) {s : State} (hs : s.runs) (ha : s.head.net.rc.active = true)
    (hr : s.head.bell.rollcall = true) (h0 : s.head.net.rc.startsLeft = 0) (phase : Fin 11)
    (hb : (s.head.rollCallRequest phase.val).boot = s.head.boot) :
    s.head.rollCallRequest phase.val = s.head.fieldLanes.foldl (fun (h : Head) l => h.rcRequest l phase.val)
      ((s.head.forward (s.head.instantTick 64)).privFlag 26) := by
  obtain ⟨-, -, hrun, -⟩ := h s hs
  obtain ⟨hask, -⟩ := hrun ha hr
  have hexec : exec (.rollcallRequest phase) s = .next (s.setHead (s.head.rollCallRequest phase.val)) :=
    State.onHead_next (f := fun h => h.rollCallRequest phase.val) hs rfl hb
  exact congrArg State.head (Host.Outcome.next.inj (hexec.symm.trans (hask phase h0)))

/-- Refutes O50: the clause of ROLLCALL_REQUEST takes the lanes in use before flag 26 is noted, the head those after it, and a recipe with a
task number past 1023 makes the two differ: there the task that the flag makes ready sets RED_CFG's PAIR, and lane 4 is no longer the
head's. The load refuses such a recipe (R205, R206), but the statement takes every running state. -/
theorem not_rollCallProceeds : ¬ Obligations.RollCallProceeds := by
  intro h
  have hasked := rollCallRequest_of_rollCallProceeds h farTaskState_runs rfl rfl rfl 0 rollCallRequest_farTask_boot
  have hsent := congrArg (fun h : Head => (h.rcLane 4).sent) hasked
  exact Bool.false_ne_true (rollCallRequest_farTask.symm.trans (hsent.trans rcRequests_farTask))

end Sys2Proof.Machine
end

section
namespace Sys2Proof.Machine
-- One thread: proofs elaborated side by side with the text above take the one-text compile past its memory limit.
set_option Elab.async false

/-! ## A kept steering sample (R162, R163) -/

/-- Ties go away from zero, so rounding acts on the magnitude alone. -/
theorem natAbs_divAway (a : Int) (b : Nat) : (divAway a b).natAbs = (2 * a.natAbs + b) / (2 * b) := by
  unfold divAway
  split_ifs with ha
  · have hcast : 2 * -a + (b : Int) = ((2 * a.natAbs + b : Nat) : Int) := by omega
    rw [Int.natAbs_neg, hcast]
    exact Int.natAbs_natCast _
  · have hcast : 2 * a + (b : Int) = ((2 * a.natAbs + b : Nat) : Int) := by omega
    rw [hcast]
    exact Int.natAbs_natCast _

/-- Rounding takes a quotient at most a half further from zero. -/
theorem natAbs_divAway_mul_le (a : Int) (b : Nat) : 2 * (divAway a b).natAbs * b ≤ 2 * a.natAbs + b := by
  rw [natAbs_divAway, Nat.mul_right_comm, Nat.mul_comm]
  exact Nat.div_mul_le_self _ _

/-- The rate that steering asks for is clamped to the limit on either side. -/
theorem natAbs_clamp_le (r : Int) (lim : Nat) : (if r > lim then (lim : Int) else if r < -lim then -lim else r).natAbs ≤ lim := by
  split_ifs <;> omega

section Sample

variable {h : Head}

@[simp] theorem Head.sendMirror_time (typ index : Nat) (toPartner : Bool) (ws : List Word) :
    (h.sendMirror typ index toPartner ws).time = h.time :=
  Head.send_time _ _ _

@[simp] theorem Head.timeEvent_time (k : Nat) : (h.timeEvent k).time = h.time := by
  rw [Head.timeEvent, Head.raise_time, Head.orReg_time]

/-- Where both branches of a step keep the addend asked for, the step does. -/
theorem Head.ite_fNext {a b : Head} {f : Option Int} {c : Prop} [Decidable c] (ha : a.time.steer.fNext = f) (hb : b.time.steer.fNext = f) :
    (if c then a else b).time.steer.fNext = f := by
  split_ifs
  · exact ha
  · exact hb

/-- The PI steering asks for the addend of a rate within R_LIM; what follows in the sample, its events, its STATE and the TIME_STATE to
the Substitute, leaves that addend alone. -/
theorem Head.steer_fNext (h : Head) (e : Int) (ts : Nat) :
    ∃ r : Int, r.natAbs ≤ h.rLim ∧ (h.steer e ts).time.steer.fNext = some (divAway (r * 5) (2 ^ 32)) := by
  unfold Head.steer
  extract_lets s ki kp i asked lim clamped r f clampRun st near far kept steered shown limited phased
  refine ⟨r, natAbs_clamp_le asked h.rLim, ?_⟩
  have hshown : shown.time.steer.fNext = some f := rfl
  have hlimited : limited.time.steer.fNext = some f := Head.ite_fNext (by rw [Head.timeEvent_time, hshown]) hshown
  have hphased : phased.time.steer.fNext = some f :=
    Head.ite_fNext (by rw [Head.timeEvent_time, Head.put_time, hlimited])
      (Head.ite_fNext (by rw [Head.timeEvent_time]; exact hlimited) hlimited)
  exact Head.ite_fNext (by rw [Head.sendMirror_time, hphased]) hphased

/-- The addend of a steering sample stays within R_LIM, but for the half unit of its rounding. -/
theorem Head.steer_fNext_le (h : Head) (e : Int) (ts : Nat) :
    ∃ f : Int, (h.steer e ts).time.steer.fNext = some f ∧ 2 * f.natAbs * 2 ^ 32 ≤ 10 * h.rLim + 2 ^ 32 := by
  obtain ⟨r, hr, hf⟩ := h.steer_fNext e ts
  refine ⟨_, hf, (natAbs_divAway_mul_le (r * 5) (2 ^ 32)).trans ?_⟩
  omega

/-- A sample kept outside Roll Call and HOLDOVER, off by 100 µs at most, goes to the PI steering (R160, R162). -/
theorem Head.steeringSample_steers {n : Nat} {ws : List Word} {d : Int} {g : Head} (hl : h.time.steer.latch = some (n, ws))
    (hg : h.setSteer (fun x => { x with latch := none }) = g) (hd : g.latchDiff n ws = some d) (hr : g.bell.rollcall = false)
    (hst : g.fld TIME_MT_STAT_STATE ≠ 3) (he : (d - g.time.steer.offset * 2 ^ 32).natAbs ≤ 100000 * 2 ^ 32) :
    h.steeringSample = g.steer (d - g.time.steer.offset * 2 ^ 32) (256 * g.tb) := by
  simp only [Head.steeringSample, hl, hg, hd]
  rw [if_neg (by simp [hr]), if_neg hst, if_neg (Nat.not_lt.mpr he)]

end Sample

/-- Settles O46: the sample goes to the PI steering, whose rate is clamped before it is rounded. -/
theorem steeringIsLimited : Obligations.SteeringIsLimited := by
  unfold Obligations.SteeringIsLimited
  intro s n ws d hs hl h hr hd e hst he
  have hsample := Head.steeringSample_steers hl rfl hd hr hst he
  exact ⟨State.onHead_next hs hsample (h.steer_boot _ _), h.steer_fNext_le _ _⟩

end Sys2Proof.Machine
end

section
namespace Sys2Proof.Machine
set_option Elab.async false

/-! ## The arithmetic of the sum registers (R175 to R179, R191, R195) -/

theorem toInt_ofInt_of_fits {x : Int} (hlo : -(2 ^ 55) ≤ x) (hhi : x < 2 ^ 55) : (BitVec.ofInt 56 x).toInt = x :=
  BitVec.toInt_ofInt_eq_self (by decide) hlo hhi

/-- A saturated sum reads as the exact sum held to the range of a sum register. -/
theorem toInt_sat56 (x : Int) : (sat56 x).1.toInt = max (-(2 ^ 55)) (min (2 ^ 55 - 1) x) := by
  unfold sat56
  split_ifs with hhi hlo
  · rw [toInt_ofInt_of_fits (by omega) (by omega)]; omega
  · rw [toInt_ofInt_of_fits (by omega) (by omega)]; omega
  · rw [toInt_ofInt_of_fits (by omega) (by omega)]; omega

theorem sat56_saturated {x : Int} (hx : x < -(2 ^ 55) ∨ 2 ^ 55 - 1 < x) : (sat56 x).2 = true := by
  unfold sat56
  split_ifs with hhi hlo
  · rfl
  · rfl
  · omega

/-- O is the instruction's own, T stays once set (R191). -/
theorem flagWord_o_t (old : BitVec 6) (x : Int) (o t : Bool) :
    (flagWord old x o t).getLsbD 3 = o ∧ (flagWord old x o t).getLsbD 4 = (old.getLsbD 4 || t) := by
  unfold flagWord
  generalize decide (x = 0) = z, decide (x < 0) = n, outside x = w, old.getLsbD 4 = t4, old.getLsbD 5 = f5
  revert z n w o t t4 f5
  decide

/-- A product is at most 2^47 in magnitude. -/
theorem product_bounds (a b : W24) : -(2 ^ 47) ≤ product a b ∧ product a b ≤ 2 ^ 47 := by
  have ha : a.toInt.natAbs ≤ 2 ^ 23 := by have := a.le_toInt; have := a.toInt_lt; omega
  have hb : b.toInt.natAbs ≤ 2 ^ 23 := by have := b.le_toInt; have := b.toInt_lt; omega
  have hab : (a.toInt * b.toInt).natAbs ≤ 2 ^ 23 * 2 ^ 23 := Int.natAbs_mul .. ▸ Nat.mul_le_mul ha hb
  unfold product
  omega

theorem toInt_ofInt_product (a b : W24) : (BitVec.ofInt 56 (product a b)).toInt = product a b := by
  obtain ⟨hlo, hhi⟩ := product_bounds a b
  exact toInt_ofInt_of_fits (by omega) (by omega)

/-- A sum register splits into its low word and the rest. -/
theorem toNat_sumL (x : BitVec 56) : ((sumL x).toNat : Int) = x.toInt % 2 ^ 24 := by
  rw [sumL, BitVec.extractLsb'_toNat, Nat.shiftRight_zero, BitVec.toInt_eq_toNat_cond]
  split_ifs <;> omega

theorem getLsbD_24_eq (x : BitVec 56) : x.getLsbD 24 = decide (x.toInt / 2 ^ 24 % 2 = 1) := by
  rw [← BitVec.testBit_toNat, Nat.testBit_eq_decide_div_mod_eq, BitVec.toInt_eq_toNat_cond]
  split_ifs <;> exact decide_eq_decide.mpr (by omega)

/-- RM 0 rounds a half to the even unit of H (R179). -/
theorem round56_even (x : BitVec 56) : round56 x false =
    sat56 ((x.toInt / 2 ^ 24 + if 2 ^ 23 < x.toInt % 2 ^ 24 ∨ (x.toInt % 2 ^ 24 = 2 ^ 23 ∧ x.toInt / 2 ^ 24 % 2 = 1) then 1 else 0) * 2 ^ 24) := by
  have hl := toNat_sumL x
  simp only [round56, getLsbD_24_eq, Bool.false_eq_true, if_false, Bool.or_eq_true, Bool.and_eq_true, decide_eq_true_eq]
  congr 1
  split_ifs <;> omega

/-- RM 1 rounds a half up (R179). -/
theorem round56_up (x : BitVec 56) :
    round56 x true = sat56 ((x.toInt / 2 ^ 24 + if 2 ^ 23 ≤ x.toInt % 2 ^ 24 then 1 else 0) * 2 ^ 24) := by
  have hl := toNat_sumL x
  simp only [round56, if_true, decide_eq_true_eq]
  congr 1
  split_ifs <;> omega

/-- The value that a find compares (R195): Ki, or its magnitude held to the range of a word. -/
theorem toInt_findValue (k : W24) (abs : Bool) :
    (findValue k abs).toInt = if abs then ((min (2 ^ 23 - 1) k.toInt.natAbs : Nat) : Int) else k.toInt := by
  cases abs with
  | false => rfl
  | true =>
    have hlo := k.le_toInt
    have hhi := k.toInt_lt
    unfold findValue
    rw [if_pos rfl, if_pos rfl]
    split_ifs with hk
    · rw [hk]; decide
    · have hne : k.toInt ≠ -(2 ^ 23) := fun h => hk (BitVec.eq_of_toInt_eq h)
      rw [BitVec.toInt_ofInt_eq_self (by decide) (by omega) (by omega)]
      omega

/-! ## P-class instructions (R176, R177, R179, R186, R195) -/

/-- A legal P-class instruction whose moves reach their words: the effect of its operation, then its moves. -/
theorem State.issue_p_ran {s : State} {e : Fin 16} {mv : Moves} {loads : List (Fin 8 × W24)} {steps : List (Fin 8 × BitVec 16)}
    (hm : s.movesReach e mv loads steps) {op : POp} {d : Fin 4} {i j : Fin 8} {f : Engine → Engine}
    (hr : s.mayRun e (.p op d i j mv) 1) (hl : movesDistinct mv = true → legalLE (.p op d i j mv) = true)
    (hf : applyP (s.head.engine e.val) d ((s.head.engine e.val).resultP op d i j) = f (s.head.engine e.val)) :
    (.next (s.issue e (.p op d i j mv)) : Host.Outcome State Fault Refusal) =
      .next (s.ran e (.p op d i j mv) 1 (fun g => applyMoves (f g) loads steps)) := by
  rw [s.issue_p e op d i j mv loads steps hm hr (hl hm.1)]
  exact congrArg _ (s.ran_congr e _ 1 _ _ (congrArg (applyMoves · loads steps) hf))

/-- Settles O9: the sum of exact terms is saturated once, and each operation puts such a sum into its register. -/
theorem productsSumOnce : Obligations.ProductsSumOnce := by
  unfold Obligations.ProductsSumOnce
  refine ⟨fun a b => ⟨rfl, toInt_ofInt_product a b⟩, by decide, fun g d x => ⟨?_, fun hx => ?_⟩, ?_⟩
  · rw [show (g.takeSum d x).sum = g.sum.set d (sat56 x).1 from rfl]
    simpa using toInt_sat56 x
  · have ho : (sat56 x).2 = true := sat56_saturated hx
    obtain ⟨h3, h4⟩ := flagWord_o_t g.fl (sat56 x).1.toInt (sat56 x).2 (sat56 x).2
    exact ⟨h3.trans ho, h4.trans (by rw [ho, Bool.or_true])⟩
  · intro s e d i j mv loads steps hm
    refine ⟨?_, ?_, ?_, ?_, ?_, ?_, ?_, ?_, ?_, ?_, ?_, ?_, ?_⟩
    all_goals exact fun hr => State.issue_p_ran hm hr (legal_p _ _ _ _ _ · rfl) rfl

/-- Settles O10: the rounding is that of its mode, and the three operations round the saturated sum. -/
theorem roundingFollowsItsMode : Obligations.RoundingFollowsItsMode := by
  unfold Obligations.RoundingFollowsItsMode
  refine ⟨fun x => ⟨round56_even x, round56_up x⟩, fun s e d i j mv loads steps => ⟨fun hr => ?_, fun hm => ⟨fun hr => ?_, fun hr => ?_⟩⟩⟩
  · exact congrArg _ ((s.issue_a e .round d 0 0 hr rfl).trans (s.ran_congr e _ 1 _ _ rfl))
  · exact State.issue_p_ran hm hr (legal_p _ _ _ _ _ · rfl) rfl
  · exact State.issue_p_ran hm hr (legal_p _ _ _ _ _ · rfl) rfl

section Finds

/-! FMAX and FMIN on an engine (R195): `abs` is the lowest bit of their J field. -/

variable (g : Engine) (d : Fin 4) (i : Fin 8) (abs : Bool)

/-- The J field of a find. -/
def findJ (abs : Bool) : Fin 8 := if abs then 1 else 0

/-- Engine `g` when a find takes the value `v` of ITER. -/
def Engine.found (v : W24) : Engine :=
  { g with
    sum := g.sum.set d (fromH v), fl := withF (flagWord g.fl (fromH v).toInt false (transfer g.sum[d] (g.rnd.getLsbD 1)).2)
    fidx := BitVec.ofNat 16 g.iter }

/-- Engine `g` when a find keeps SUMd. -/
def Engine.findKept : Engine :=
  { g with fl := flagWord g.fl g.sum[d].toInt false (transfer g.sum[d] (g.rnd.getLsbD 1)).2 }

theorem findJ_abs : ((findJ abs).val % 2 == 1) = abs := by cases abs <;> rfl

/-- The J field of a find names no more than `abs`, as its legality asks. -/
theorem findJ_legal : ((findJ abs).val / 2 == 0) = true := by cases abs <;> rfl

/-- A find on an engine takes the value compared or keeps SUMd. -/
theorem applyP_findStep (isMax : Bool) :
    applyP g d (findStep g.sum[d] g.k[i] abs isMax (g.rnd.getLsbD 1)) =
      if (if isMax then decide ((findValue g.k[i] abs).toInt > (transfer g.sum[d] (g.rnd.getLsbD 1)).1.toInt)
          else decide ((findValue g.k[i] abs).toInt < (transfer g.sum[d] (g.rnd.getLsbD 1)).1.toInt)) = true
      then g.found d (findValue g.k[i] abs) else g.findKept d := by
  rw [findStep]
  split_ifs <;> rfl

theorem applyP_fmax :
    applyP g d (g.resultP .fmax d i (findJ abs)) =
      if (transfer g.sum[d] (g.rnd.getLsbD 1)).1.toInt < (findValue g.k[i] abs).toInt then g.found d (findValue g.k[i] abs)
      else g.findKept d := by
  rw [Engine.resultP, aluP, findJ_abs, applyP_findStep]
  simp only [if_true, decide_eq_true_eq, gt_iff_lt]

theorem applyP_fmin :
    applyP g d (g.resultP .fmin d i (findJ abs)) =
      if (findValue g.k[i] abs).toInt < (transfer g.sum[d] (g.rnd.getLsbD 1)).1.toInt then g.found d (findValue g.k[i] abs)
      else g.findKept d := by
  rw [Engine.resultP, aluP, findJ_abs, applyP_findStep]
  simp only [Bool.false_eq_true, if_false, decide_eq_true_eq]

end Finds

/-- Settles O11: LOAD has no effect beside its moves, a find compares its value with the transfer of SUMd. -/
theorem loadsAndFindsRun : Obligations.LoadsAndFindsRun := by
  unfold Obligations.LoadsAndFindsRun
  intro s e d i abs mv loads steps hm
  refine ⟨toInt_findValue _ abs, fun hr => ?_, fun hr => ?_, fun hr => ?_⟩
  · exact State.issue_p_ran (f := id) hm hr (legal_p _ _ _ _ _ · rfl) rfl
  · refine State.issue_p_ran hm hr (legal_p _ _ _ _ _ · (findJ_legal abs)) ((applyP_fmax _ d i abs).trans ?_)
    split_ifs <;> rfl
  · refine State.issue_p_ran hm hr (legal_p _ _ _ _ _ · (findJ_legal abs)) ((applyP_fmin _ d i abs).trans ?_)
    split_ifs <;> rfl

end Sys2Proof.Machine
end

section
namespace Sys2Proof.Machine
set_option Elab.async false

/-! ## Class A (R177, R179, R188, R191, R193) -/

/-- A legal class-A instruction that has the effect `f`. -/
theorem State.issue_a_ran {s : State} {e : Fin 16} {op : AOp} {d : Fin 4} {k : Fin 8} {imm cost : Nat} {f : Engine → Engine}
    (hr : s.mayRun e (.a op d k imm) cost) (hc : cost = costA op) (hl : legalLE (.a op d k imm) = true)
    (hf : applyA (s.head.engine e.val) d k ((s.head.engine e.val).resultA op d k imm) = f (s.head.engine e.val)) :
    (.next (s.issue e (.a op d k imm)) : Host.Outcome State Fault Refusal) = .next (s.ran e (.a op d k imm) cost f) := by
  subst hc
  exact congrArg _ ((s.issue_a e op d k imm hr hl).trans (s.ran_congr e _ _ _ _ hf))

theorem f4_f8 (src : Fin 4) : f4 (f8 src.val).val = src := by
  revert src; decide

/-- An S field that names a sum register is legal where the operation takes one (R188). -/
theorem legal_a_sum {op : AOp} (hop : aopUsesSum op = true) (d src : Fin 4) : legalLE (.a op d (f8 src.val) 0) = true := by
  refine (Bool.and_eq_true _ _).mpr ⟨(if_pos hop).trans ?_, by cases op <;> rfl⟩
  exact decide_eq_true (lt_of_le_of_lt (Nat.mod_le _ _) src.isLt)

/-- A shift count of at most 55 is legal (R188). -/
theorem legal_shift (imm : Fin 56) : decide (imm.val ≤ 55) = true := decide_eq_true (Nat.le_of_lt_succ imm.isLt)

/-- QUOT alone takes more than one cycle, and it names no second sum (Table 08-12). -/
theorem costA_sum {op : AOp} (hop : aopUsesSum op = true) : costA op = 1 := by
  have hquot : op ≠ .quot := by
    rintro rfl
    cases hop
  exact if_neg hquot

/-- The result of an operation whose S field names SUMs. -/
theorem Engine.resultA_sum (g : Engine) (op : AOp) (d src : Fin 4) :
    g.resultA op d (f8 src.val) 0 = aluA op g.sum[d] g.sum[src] g.k[f8 src.val] 0 (g.rnd.getLsbD 0) := by
  simp only [Engine.resultA, f4_f8]

/-- A class-A operation on SUMd and SUMs that has the effect `f`. -/
theorem State.issue_a_sum {s : State} {e : Fin 16} {op : AOp} {d src : Fin 4} {f : Engine → Engine} (hop : aopUsesSum op = true)
    (hr : s.mayRun e (.a op d (f8 src.val) 0) 1)
    (hf : let g := s.head.engine e.val
      applyA g d (f8 src.val) (aluA op g.sum[d] g.sum[src] g.k[f8 src.val] 0 (g.rnd.getLsbD 0)) = f g) :
    (.next (s.issue e (.a op d (f8 src.val) 0)) : Host.Outcome State Fault Refusal) = .next (s.ran e (.a op d (f8 src.val) 0) 1 f) :=
  State.issue_a_ran hr (costA_sum hop).symm (legal_a_sum hop d src)
    ((congrArg _ (Engine.resultA_sum _ op d src)).trans hf)

/-- CLIP holds a wide sum to the range of H (Table 08-8). -/
theorem aluA_clip (x y : BitVec 56) (w : W24) (imm : Nat) (rm : Bool) :
    aluA .clip x y w imm rm = .inSum (if x.toInt < -(2 ^ 47) then (BitVec.ofInt 56 (-(2 ^ 47)), true)
      else if 2 ^ 47 ≤ x.toInt then (BitVec.ofInt 56 (2 ^ 47 - 1), true) else (x, false)) := by
  simp only [aluA, outside, Bool.or_eq_true, decide_eq_true_eq]
  by_cases hlo : x.toInt < -(2 ^ 47)
  · rw [if_pos (Or.inr hlo), if_pos hlo, if_pos (by omega)]
  · by_cases hhi : 2 ^ 47 ≤ x.toInt
    · rw [if_pos (Or.inl hhi), if_neg hlo, if_pos hhi, if_neg (by omega)]
    · rw [if_neg (by omega), if_neg hlo, if_neg hhi]

/-- LIMIT holds a sum between the bounds that Ks gives (Table 08-8). -/
theorem aluA_limit (x y : BitVec 56) (w : W24) (imm : Nat) (rm : Bool) {m : Int} (hm : m = max 0 w.toInt * 2 ^ 24) :
    aluA .limit x y w imm rm = .inSum (if m < x.toInt then (BitVec.ofInt 56 m, true)
      else if x.toInt < -m then (BitVec.ofInt 56 (-m), true) else (x, false)) := by
  subst hm
  simp only [aluA]
  split_ifs <;> rfl

/-- A shift by a signed count, as Table 08-8 gives its two directions. -/
theorem shiftBy_eq (x n : Int) :
    shiftBy x n = if 0 ≤ n then sat56 (x * 2 ^ n.toNat) else (BitVec.ofInt 56 (x / 2 ^ (-n).toNat), false) := rfl

/-- Settles O12: each operation puts one result into SUMd, with its flags. -/
theorem sumOperationsRun : Obligations.SumOperationsRun := by
  unfold Obligations.SumOperationsRun
  intro s e d src k imm
  refine ⟨fun hr => ?_, fun hr => ?_, fun hr => ?_, fun hr => ?_, fun hr => ?_, fun hr => ?_, fun hr => ?_, fun hr => ?_, fun hr => ?_,
    fun hr => ?_, fun hr => ?_, fun hr => ?_⟩
  case refine_7 =>
    refine State.issue_a_ran hr rfl rfl ((congrArg _ (aluA_clip _ _ _ _ _)).trans ?_)
    split_ifs <;> rfl
  case refine_11 =>
    refine State.issue_a_ran hr rfl rfl ((congrArg (fun r => applyA _ d k (.inSum r)) (shiftBy_eq _ _)).trans ?_)
    split_ifs <;> rfl
  case refine_2 | refine_3 | refine_4 => exact State.issue_a_sum rfl hr rfl
  case refine_9 | refine_10 =>
    exact State.issue_a_ran hr rfl (legal_shift imm) rfl
  all_goals exact State.issue_a_ran hr rfl rfl rfl

/-- Settles O13: each operation writes what Table 08-8 says on the values of its operands. -/
theorem comparesAndLogicRun : Obligations.ComparesAndLogicRun := by
  unfold Obligations.ComparesAndLogicRun
  intro s e d src k
  refine ⟨fun hr => ?_, fun hr => ?_, fun hr => ?_, fun hr => ?_, fun hr => ?_, fun hr => ?_, fun hr => ?_, fun hr => ?_, fun hr => ?_,
    fun hr => ?_⟩
  case refine_1 | refine_2 | refine_3 => exact State.issue_a_sum rfl hr rfl
  case refine_4 =>
    refine State.issue_a_ran hr rfl rfl ((congrArg _ (aluA_limit _ _ _ _ _ rfl)).trans ?_)
    split_ifs <;> rfl
  all_goals exact State.issue_a_ran hr rfl rfl rfl

end Sys2Proof.Machine
end

section
namespace Sys2Proof.Machine
set_option Elab.async false

/-! ## Registers by code (R189, R190) -/

section Codes

variable (g : Engine)

/-- The 24 bits of one of the 16 registers that a store can name, and whether the transfer clipped (R178, R189). -/
def Engine.getCode16 (reg : Fin 16) : W24 × Bool :=
  if h : reg.val < 8 then (g.k[reg.val], false)
  else if reg.val < 12 then transfer g.sum[f4 reg.val] (g.rnd.getLsbD 1) else (sumL g.sum[f4 reg.val], false)

theorem Engine.readCode_code16 (reg : Fin 16) : g.readCode (code16 reg) = some (g.getCode16 reg) := by
  fin_cases reg <;> rfl

theorem Engine.writeCode_code16 (reg : Fin 16) (w : W24) : g.writeCode (code16 reg) w = some (g.putCode16 reg w) := by
  fin_cases reg <;> rfl

end Codes

/-- Engine `g'` goes on where `g` does. -/
def SameFlow (g g' : Engine) : Prop := g'.pc = g.pc ∧ g'.loops = g.loops ∧ g'.calls = g.calls ∧ g'.cache = g.cache

variable {g g' : Engine}

theorem SameFlow.of_some_eq {x : Engine} (hx : SameFlow g x) (h : some x = some g') : SameFlow g g' := Option.some.inj h ▸ hx

/-- Writing a register by its code leaves where the engine goes on. -/
theorem Engine.writeCode_flow {c : Fin 64} {w : W24} (h : g.writeCode c w = some g') : SameFlow g g' := by
  revert h
  unfold Engine.writeCode
  extract_lets n h16
  iterate 7
    split
    · exact .of_some_eq ⟨rfl, rfl, rfl, rfl⟩
  clear_value n
  split
  case h_5 => exact fun h => nomatch h
  all_goals exact .of_some_eq ⟨rfl, rfl, rfl, rfl⟩

/-- A store reaches the staging bank or one memory: where the engine goes on, its flags and its pointers stay. -/
theorem busWrite_flow {pt : Ports} {b : Bus} {a : Nat} {v : W24} (h : busWrite g pt b a v = some g') :
    SameFlow g g' ∧ g'.fl = g.fl ∧ g'.ap = g.ap := by
  unfold busWrite at h
  split at h
  all_goals
    split_ifs at h
    all_goals cases h; exact ⟨⟨rfl, rfl, rfl, rfl⟩, rfl, rfl⟩

theorem Engine.putCode16_flow (g : Engine) (reg : Fin 16) (w : W24) : SameFlow g (g.putCode16 reg w) :=
  Engine.writeCode_flow (g.writeCode_code16 reg w)

theorem Engine.putCode16_ap (g : Engine) (reg : Fin 16) (w : W24) : (g.putCode16 reg w).ap = g.ap := by
  unfold Engine.putCode16
  split_ifs <;> rfl

/-! ## Class M, LDI and MOVE (R178, R180, R182, R184, R189, R190, R193) -/

/-- The pointers after an access of class M (R184). -/
def Engine.steppedAp (g : Engine) (p mode : Fin 8) : Vector (BitVec 16) 8 :=
  match modeStep g p mode.val with
  | some m => g.ap.set p (g.stepped p m)
  | none => g.ap

/-- Stepping the pointer of an access, where the access itself leaves the pointers alone. -/
theorem stepped_eq {x : Engine} (p mode : Fin 8) (hap : x.ap = g.ap) :
    (match modeStep g p mode.val with
      | some m => { x with ap := x.ap.set p (g.stepped p m) }
      | none => x) = { x with ap := g.steppedAp p mode } := by
  unfold Engine.steppedAp
  cases modeStep g p mode.val <;> rw [← hap]

/-- A displacement is legal where its mode uses it (R189). -/
theorem legal_m {store : Bool} {bus : Bus} {reg : Fin 16} {p mode : Fin 8} {disp : Int} (hd : mode.val ≠ 7 → disp = 0) :
    legalLE (.m store bus reg p mode disp) = true := by
  by_cases hm : mode.val = 7
  · simp [legalLE, hm]
  · simp [legalLE, hd hm]

/-- The core cycles of an access of class M (Table 08-12). -/
def accessCost (bus : Bus) (a : Nat) : Nat := if bus = .x ∧ 0xE000 ≤ a ∧ a ≤ 0xE1FF then 2 else 1

section ClassM

variable {s : State} {e : Fin 16} {bus : Bus} {reg : Fin 16} {p mode : Fin 8} {disp : Int} (hd : mode.val ≠ 7 → disp = 0)

include hd

/-- A load whose address lies in the task's windows. -/
theorem State.issue_load {w : W24} {a : Nat} (ha : a = modeAddr (s.head.engine e.val) p mode.val disp)
    (hw : busRead (s.head.engine e.val) (s.head.ports e.val) bus a = some w)
    (hr : s.mayRun e (.m false bus reg p mode disp) (accessCost bus a)) :
    s.issue e (.m false bus reg p mode disp) = s.ran e (.m false bus reg p mode disp) (accessCost bus a)
      (fun g => { g.putCode16 reg w with ap := (s.head.engine e.val).steppedAp p mode }) := by
  subst ha
  refine s.issue_ran e _ _ _ hr (legal_m hd) (Engine.putCode16_flow _ reg w) ?_
  simp only [instrBody, Bool.false_eq_true, if_false, hw, Engine.writeCode_code16]
  exact congrArg (goOn · _ _) (stepped_eq p mode (Engine.putCode16_ap _ reg w))

/-- A store whose address lies in the task's windows. -/
theorem State.issue_store {g' : Engine} {a : Nat} (ha : a = modeAddr (s.head.engine e.val) p mode.val disp)
    (hw : busWrite (s.head.engine e.val) (s.head.ports e.val) bus a ((s.head.engine e.val).getCode16 reg).1 = some g')
    (hr : s.mayRun e (.m true bus reg p mode disp) (accessCost bus a)) :
    s.issue e (.m true bus reg p mode disp) = s.ran e (.m true bus reg p mode disp) (accessCost bus a)
      (fun g => { g' with
        fl := if ((s.head.engine e.val).getCode16 reg).2 then withT g.fl else g.fl, ap := (s.head.engine e.val).steppedAp p mode }) := by
  subst ha
  obtain ⟨hflow, hfl, hap⟩ := busWrite_flow hw
  refine s.issue_ran e _ _ _ hr (legal_m hd) hflow ?_
  simp only [instrBody, if_true, Engine.readCode_code16, hw]
  refine congrArg (goOn · _ _) ((stepped_eq p mode ?_).trans ?_)
  · split_ifs <;> exact hap
  · rw [← hfl]
    split_ifs <;> rfl

end ClassM

/-- Settles O14: the access reads or writes one word, beside its register and its pointer. -/
theorem loadsAndStoresRun : Obligations.LoadsAndStoresRun := by
  unfold Obligations.LoadsAndStoresRun
  intro s e bus reg p mode disp hd
  exact ⟨fun w hw hr => congrArg _ (State.issue_load hd rfl hw hr), fun g' hw hr => congrArg _ (State.issue_store hd rfl hw hr)⟩

/-- Engine `g` with `v` in one of the registers that LDI16 can name: APn, AMn, BAn, LNn (R190). -/
def Engine.putPtr (g : Engine) (ty : Fin 4) (i : Fin 8) (v : BitVec 16) : Engine :=
  match ty with
  | 0 => { g with ap := g.ap.set i v }
  | 1 => { g with am := g.am.set i v }
  | 2 => { g with ba := g.ba.set i v }
  | 3 => { g with ln := g.ln.set i v }

/-- The code that LDI16 forms names that register. -/
theorem Engine.writeCode_ldi16 (g : Engine) (ty : Fin 4) (i : Fin 8) (w : W24) :
    g.writeCode ⟨16 + 8 * ty.val + i.val, by omega⟩ w = some (g.putPtr ty i (w.setWidth 16)) := by
  fin_cases ty <;> fin_cases i <;> rfl

section Immediates

variable {s : State} {e : Fin 16}

theorem State.issue_ldi16 {ty : Fin 4} {i : Fin 8} {imm : BitVec 16} (hr : s.mayRun e (.ldi16 ty i imm) 1) :
    s.issue e (.ldi16 ty i imm) = s.ran e (.ldi16 ty i imm) 1 (fun g => g.putPtr ty i imm) := by
  have hw := (s.head.engine e.val).writeCode_ldi16 ty i (imm.setWidth 24)
  rw [BitVec.setWidth_setWidth_of_le _ (by decide), BitVec.setWidth_eq] at hw
  refine s.issue_ran e _ _ _ hr rfl (Engine.writeCode_flow hw) ?_
  simp only [instrBody, hw]

theorem State.issue_ldi24 {reg : Fin 16} {imm : W24} (hr : s.mayRun e (.ldi24 reg imm) 1) :
    s.issue e (.ldi24 reg imm) = s.ran e (.ldi24 reg imm) 1 (fun g => g.putCode16 reg imm) := by
  refine s.issue_ran e _ _ _ hr rfl (Engine.putCode16_flow _ reg imm) ?_
  simp only [instrBody, Engine.writeCode_code16]

/-- Every code of 56 and above is reserved (R190). -/
theorem Engine.readCode_lt {g : Engine} {c : Fin 64} {x : W24 × Bool} (h : g.readCode c = some x) : c.val < 56 := by
  by_contra hc
  have hnone : g.readCode c = none := by
    obtain ⟨n, hn⟩ := c
    interval_cases n <;> rfl
  cases hnone.symm.trans h

/-- A transfer that clipped sets T, unless the word moved is FL itself (R178, R191). -/
theorem State.issue_move {dst src : Fin 64} {w : W24} {clip : Bool} {g' : Engine} (hdst : dst.val < 52)
    (hread : (s.head.engine e.val).readCode src = some (w, clip)) (hwrite : (s.head.engine e.val).writeCode dst w = some g')
    (hr : s.mayRun e (.move dst src) 1) :
    s.issue e (.move dst src) = s.ran e (.move dst src) 1 (fun _ =>
      { g' with fl := if clip ∧ dst.val ≠ 49 then withT g'.fl else g'.fl }) := by
  have hl : legalLE (.move dst src) = true := (Bool.and_eq_true _ _).mpr ⟨decide_eq_true hdst, decide_eq_true (Engine.readCode_lt hread)⟩
  have hflow := Engine.writeCode_flow hwrite
  refine s.issue_ran e _ _ _ hr hl hflow ?_
  simp only [instrBody, hread, hwrite, Bool.and_eq_true, decide_eq_true_eq]
  split_ifs <;> rfl

end Immediates

/-- Settles O15: each writes the register that its code names. -/
theorem immediatesAndMovesRun : Obligations.ImmediatesAndMovesRun := by
  unfold Obligations.ImmediatesAndMovesRun
  intro s e
  exact ⟨fun ty i imm hr => congrArg _ (State.issue_ldi16 hr), fun reg imm hr => congrArg _ (State.issue_ldi24 hr),
    fun dst src w clip g' hdst hread hwrite hr => congrArg _ (State.issue_move hdst hread hwrite hr)⟩

end Sys2Proof.Machine
end

section
namespace Sys2Proof.Machine
set_option Elab.async false

/-! ## Control instructions (R191 to R194) -/

/-- An instruction issued to a head that runs is a command for the head alone. -/
theorem State.issue_next {s : State} {e : Fin 16} {i : LInstr} {h : Head} (hs : s.runs) (hi : s.head.issue e.val i = h) :
    (.next (s.issue e i) : Host.Outcome State Fault Refusal) = .next (s.setHead h) :=
  State.onHead_next hs hi (hi ▸ s.head.issue_boot e.val i)

/-- An instruction that completes below the budget and asks nothing of the head. -/
theorem State.issue_engineRan {s : State} {e : Fin 16} {i : LInstr} {n : Nat} {g' : Engine} (hr : s.engineFree e i n)
    (hs : instrStep (s.head.engine e.val) (s.head.ports e.val) i = .ok g' n .none) :
    (.next (s.issue e i) : Host.Outcome State Fault Refusal) =
      .next (s.engineRan e i n { g' with cycles := (s.head.engine e.val).cycles + n }) := by
  obtain ⟨hruns, hmode, hread, hbudget⟩ := hr
  exact State.issue_next hruns (s.head.issue_ok e i g' n hmode hread hs hbudget)

section Ctl

variable {g : Engine} {pt : Ports} {op : COp} {cond arg count : Nat}

/-- A legal control instruction whose condition holds, where it does not fault. -/
theorem instrStep_ctl_ok {g' : Engine} {n : Nat} {ev : LEvent} (hl : legalLE (.ctl op cond arg count) = true)
    (hc : condHolds g.fl cond = some true) (hs : controlStep g op arg count = .ok g' n ev) :
    instrStep g pt (.ctl op cond arg count) =
      .ok { g' with hazard := noHazard } (n + stallLE g.hazard (.ctl op cond arg count)) ev := by
  simp only [instrStep, hl, if_true, instrBody, hc, hs, leavesLE]

/-- A legal control instruction whose condition holds, where it faults. -/
theorem instrStep_ctl_fault {code : Nat} (hl : legalLE (.ctl op cond arg count) = true)
    (hc : condHolds g.fl cond = some true) (hs : controlStep g op arg count = .fault code) :
    instrStep g pt (.ctl op cond arg count) = .fault code := by
  simp only [instrStep, hl, if_true, instrBody, hc, hs]

/-- The stall of a conditional instruction after one that wrote the flags (Table 08-13). -/
theorem stallLE_cond (h : Hazard) (hop : op ≠ .repn) (cond : Fin 15) (arg count : Nat) :
    stallLE h (.ctl op cond.val arg count) = b2n (decide (cond ≠ 0) && h.flags) := by
  have hz : decide (cond.val ≠ 0) = decide (cond ≠ 0) := decide_eq_decide.mpr (not_congr Fin.val_eq_zero_iff)
  have hf : (op == .repn) = false := beq_eq_false_iff_ne.mpr hop
  simp only [stallLE, hz, hf, Bool.false_and, Bool.or_false]

end Ctl

section Jumps

variable {s : State} {e : Fin 16}

/-- A control instruction whose condition holds and that jumps. -/
theorem State.issue_jump {op : COp} {cond : Fin 15} {arg count n c pc : Nat} {calls : List Nat} {loops : List HwLoop}
    (hl : legalLE (.ctl op cond.val arg count) = true) (hc : condHolds (s.head.engine e.val).fl cond.val = some true)
    (hs : controlStep (s.head.engine e.val) op arg count =
      .ok { s.head.engine e.val with pc := pc, calls := calls, loops := loops } c .none)
    (hn : c + stallLE (s.head.engine e.val).hazard (.ctl op cond.val arg count) = n)
    (hr : s.engineFree e (.ctl op cond.val arg count) n) :
    (.next (s.issue e (.ctl op cond.val arg count)) : Host.Outcome State Fault Refusal) =
      .next (s.engineRan e (.ctl op cond.val arg count) n ((s.head.engine e.val).jumped n pc calls loops)) := by
  subst hn
  have hran := State.issue_engineRan hr (instrStep_ctl_ok hl hc hs)
  exact hran

/-- A control instruction whose condition does not hold takes one cycle and does nothing. -/
theorem State.issue_not_taken {op : COp} {cond arg count : Nat} (hl : legalLE (.ctl op cond arg count) = true)
    (hc : condHolds (s.head.engine e.val).fl cond = some false) (hr : s.mayRun e (.ctl op cond arg count) 1) :
    (.next (s.issue e (.ctl op cond arg count)) : Host.Outcome State Fault Refusal) = .next (s.ran e (.ctl op cond arg count) 1 id) := by
  refine congrArg _ (s.issue_ran e _ _ _ hr hl ⟨rfl, rfl, rfl, rfl⟩ ?_)
  simp only [instrBody, hc, id]

end Jumps

section Control

/-! What a control instruction does whose condition holds (Table 08-10). -/

variable {g : Engine}

theorem controlStep_goto {target count : Nat} {ls : List HwLoop} (h : gotoLoops g.calls.length target false g.loops = some ls) :
    controlStep g .goto target count = .ok { g with pc := target, calls := g.calls, loops := ls } 3 .none := by
  simp only [controlStep, h]

theorem controlStep_call {target count : Nat} (h : g.calls.length < 8) :
    controlStep g .call target count = .ok { g with pc := target, calls := (g.pc + 1) :: g.calls, loops := g.loops } 3 .none := by
  simp only [controlStep, ge_iff_le, if_neg (Nat.not_le.mpr h)]

/-- A return leaves no loop of the level it ends (R192). -/
theorem controlStep_ret {r arg count : Nat} {cs : List Nat} (h : g.calls = r :: cs)
    (hl : ∀ l ls, g.loops = l :: ls → l.level ≠ g.calls.length) :
    controlStep g .ret arg count = .ok { g with pc := r, calls := cs, loops := g.loops } 3 .none := by
  have hfirst : g.loops.head?.any (fun l => l.level == g.calls.length) = false := by
    cases hloops : g.loops with
    | nil => rfl
    | cons l ls => exact beq_eq_false_iff_ne.mpr (hl l ls hloops)
  simp only [controlStep, hfirst, Bool.false_eq_true, if_false]
  rw [h]

variable {body count : Nat} (hctl : isControl (g.prog.get (fun _ => 0) (g.pc + 1 + body)) = false)

include hctl

/-- A loop with runs to make is opened at the next instruction (R192). -/
theorem openLoop_opens (hcount : count ≠ 0) (hfree : g.loops.length < 4) :
    openLoop g body count = .ok { g with
      pc := g.pc + 1, calls := g.calls, loops := ⟨g.pc + 1, g.pc + 1 + body, count, 0, g.calls.length⟩ :: g.loops
      cache := if body < 32 then some (g.pc + 1, g.pc + 1 + body) else g.cache } 2 .none := by
  simp only [openLoop, hctl, Bool.false_eq_true, if_false, hcount, ge_iff_le, Nat.not_le.mpr hfree, Nat.succ_le_iff]

/-- A loop without a run to make is skipped (R192). -/
theorem controlStep_repn_skips (hcount : g.lcnt = 0) :
    controlStep g .repn body count = .ok { g with
      pc := (loopBack g (g.pc + 1 + body + 1) g.loops).1, calls := g.calls, loops := (loopBack g (g.pc + 1 + body + 1) g.loops).2.1 }
      (3 + (loopBack g (g.pc + 1 + body + 1) g.loops).2.2) .none := by
  have hzero : g.lcnt.toNat = 0 := congrArg BitVec.toNat hcount
  simp only [controlStep, openLoop, hctl, Bool.false_eq_true, if_false, hzero, if_true]

end Control

/-- Engine `g` with a hardware loop of `body` + 1 instructions opened behind it, `n` cycles later (R192, R194). -/
def Engine.opened (g : Engine) (n body count : Nat) : Engine :=
  { g.jumped n (g.pc + 1) g.calls (⟨g.pc + 1, g.pc + 1 + body, count, 0, g.calls.length⟩ :: g.loops) with
    cache := if body < 32 then some (g.pc + 1, g.pc + 1 + body) else g.cache }

theorem legal_repn (body : Fin 128) : legalLE (.ctl .repn 0 body.val 0) = true := by simp [legalLE]

section OpenLoop

variable {s : State} {e : Fin 16} {body : Fin 128}
  (hctl : isControl ((s.head.engine e.val).prog.get (fun _ => 0) ((s.head.engine e.val).pc + 1 + body.val)) = false)

include hctl

theorem State.issue_rep {count : Fin 8192} (hcount : count.val ≠ 0) (hfree : (s.head.engine e.val).loops.length < 4)
    (hr : s.engineFree e (.ctl .rep 0 body.val count.val) 2) :
    (.next (s.issue e (.ctl .rep 0 body.val count.val)) : Host.Outcome State Fault Refusal) =
      .next (s.engineRan e (.ctl .rep 0 body.val count.val) 2 ((s.head.engine e.val).opened 2 body.val count.val)) := by
  have hl : legalLE (.ctl .rep 0 body.val count.val) = true := by simp [legalLE, Nat.one_le_iff_ne_zero, hcount]
  have hran := State.issue_engineRan hr (instrStep_ctl_ok hl rfl (openLoop_opens hctl hcount hfree))
  exact hran

theorem State.issue_repn (hcount : (s.head.engine e.val).lcnt ≠ 0) (hfree : (s.head.engine e.val).loops.length < 4) {n : Nat}
    (hn : n = 2 + b2n (s.head.engine e.val).hazard.lcnt) (hr : s.engineFree e (.ctl .repn 0 body.val 0) n) :
    (.next (s.issue e (.ctl .repn 0 body.val 0)) : Host.Outcome State Fault Refusal) =
      .next (s.engineRan e (.ctl .repn 0 body.val 0) n
        ((s.head.engine e.val).opened n body.val (s.head.engine e.val).lcnt.toNat)) := by
  subst hn
  have hcount : (s.head.engine e.val).lcnt.toNat ≠ 0 := fun h => hcount (BitVec.eq_of_toNat_eq h)
  have hran := State.issue_engineRan hr (instrStep_ctl_ok (legal_repn body) rfl (openLoop_opens hctl hcount hfree))
  exact hran

end OpenLoop

/-- Settles O16: each control instruction that is taken is one step of the engine's pc and stacks; one that is not goes on. -/
theorem jumpsAndLoopsRun : Obligations.JumpsAndLoopsRun := by
  unfold Obligations.JumpsAndLoopsRun
  intro s e g cost gives
  refine ⟨fun cond target hc => ⟨fun ls hls hr => ?_, fun hcalls hr => ?_, fun r cs hcalls hlevel hr => ?_⟩, fun cond c i hc hci hr => ?_,
    fun body hctl => ⟨fun count hcount hfree hr => ?_, fun hcount hfree hr => ?_, fun hcount hr => ?_⟩⟩
  · exact State.issue_jump (by simp [legalLE]) hc (controlStep_goto hls) (congrArg (3 + ·) (stallLE_cond _ (by decide) _ _ _)) hr
  · exact State.issue_jump (by simp [legalLE]) hc (controlStep_call hcalls) (congrArg (3 + ·) (stallLE_cond _ (by decide) _ _ _)) hr
  · exact State.issue_jump (by simp [legalLE]) hc (controlStep_ret hcalls hlevel) (congrArg (3 + ·) (stallLE_cond _ (by decide) _ _ _)) hr
  · rcases hci with ⟨t, rfl, rfl⟩ | ⟨t, rfl, rfl⟩ | ⟨rfl, rfl⟩ | ⟨rfl, rfl⟩ | ⟨k, rfl, rfl⟩
    all_goals exact State.issue_not_taken (by simp [legalLE]) hc hr
  · exact State.issue_rep hctl hcount hfree hr
  · exact State.issue_repn hctl hcount hfree rfl hr
  · exact State.issue_jump (cond := 0) (legal_repn body) rfl (controlStep_repn_skips hctl hcount) rfl hr

end Sys2Proof.Machine
end

section
namespace Sys2Proof.Machine
set_option Elab.async false

/-! ## One engine replaced -/

section Engines

variable (h : Head) (e : Fin 16)

/-- An engine is replaced by what it becomes. -/
theorem Head.setEngine_congr {f f' : Engine → Engine} (hf : f (h.engine e.val) = f' (h.engine e.val)) :
    h.setEngine e.val f = h.setEngine e.val f' := by
  unfold Head.setEngine
  congr 1
  ext i hi
  simp only [Vector.getElem_mapFinIdx]
  split_ifs with he
  · subst he
    rwa [Head.engine_eq] at hf
  · rfl

theorem Head.setEngine_setEngine (f f' : Engine → Engine) :
    (h.setEngine e.val f).setEngine e.val f' = h.setEngine e.val (fun g => f' (f g)) := by
  unfold Head.setEngine
  congr 1
  ext i hi
  simp only [Vector.getElem_mapFinIdx]
  split_ifs <;> rfl

/-- What an engine spends hangs on its task, and on whether a bench run drives it, alone. -/
theorem Head.spend_setEngine (n : Nat) {f : Engine → Engine} (hb : (f (h.engine e.val)).bench = (h.engine e.val).bench)
    (ht : (f (h.engine e.val)).tid = (h.engine e.val).tid) :
    (h.spend e.val n).setEngine e.val f = (h.setEngine e.val f).spend e.val n := by
  unfold Head.spend
  simp only [Head.engine_setEngine_same, hb, ht]
  rfl

@[simp] theorem Head.countEcc_engine (ws : List (Nat × Nat)) (k : Nat) : (h.countEcc e.val ws).engine k = h.engine k := rfl

end Engines

/-! ## Faults (R202, R220) -/

/-- The task of the engine `g` that has faulted fails: it is disabled, and the fault is told unless at a Substitute (R202, R220). -/
def Head.taskFaulted (h : Head) (g : Engine) (code : Nat) : Head :=
  let h := h.setTask g.tid (fun x => { x with discard := false })
  let h := (if h.taskState g.tid = 3 then h.setTaskState g.tid 1 else h).failTask g.tid 1 code
  if h.substitute then h else h.raise 0 5 0

/-- Engine `g` once it has faulted (R202). -/
def Engine.struck (g : Engine) : Engine :=
  { g with mode := if g.bench then .faulted else .idle, dirty := false, stage := if g.bench then g.stage else [], mail := [] }

/-- The head `h` with LE_FAULT of engine `e` written, which has been `g` up to its fault (Table 08-16). -/
def Head.faultNoted (h : Head) (e : Nat) (g : Engine) (code : Nat) : Head :=
  h.wr (LE_FAULT e) (code * 2 ^ 24 + g.tid % 1024 * 2 ^ 14 + g.pc % 0x2000)

/-- The head `h` after an engine fault of engine `e`, which has been `g` up to then: a bench run stops, another one fails its task (R202). -/
def Head.faulted (h : Head) (e : Nat) (g : Engine) (code : Nat) : Head :=
  let h := h.faultNoted e g code
  if g.bench then h.setEngine e (fun g => { g with mode := .faulted, dirty := false, mail := [] })
  else (h.setEngine e (fun g => { g with mode := .idle, dirty := false, stage := [], mail := [] })).taskFaulted g code

section Faults

variable {h : Head} {e : Fin 16} {i : LInstr} {code : Nat}

theorem Head.engineFault_struck (h : Head) (e : Nat) (code : Nat) : h.engineFault e code =
    if (h.engine e).bench then (h.faultNoted e (h.engine e) code).setEngine e Engine.struck
    else ((h.faultNoted e (h.engine e) code).setEngine e Engine.struck).taskFaulted (h.engine e) code := by
  unfold Head.engineFault Head.taskFaulted
  rfl

@[simp] theorem Head.faultNoted_engine (h : Head) (e : Nat) (g : Engine) (code k : Nat) :
    (h.faultNoted e g code).engine k = h.engine k := by
  rw [Head.engine, Head.faultNoted, Head.wr_engines, Head.engine]

theorem Engine.struck_bench {g : Engine} (hb : g.bench = true) : g.struck = { g with mode := .faulted, dirty := false, mail := [] } := by
  simp only [Engine.struck, hb, if_true]

theorem Engine.struck_task {g : Engine} (hb : g.bench = false) :
    g.struck = { g with mode := .idle, dirty := false, stage := [], mail := [] } := by
  simp only [Engine.struck, hb, Bool.false_eq_true, if_false]

theorem Head.engineFault_eq {g : Engine} (hg : h.engine e.val = g) : h.engineFault e.val code = h.faulted e.val g code := by
  subst hg
  rw [Head.engineFault_struck, Head.faulted]
  have hnoted := h.faultNoted_engine e.val (h.engine e.val) code e.val
  split_ifs with hb
  · exact Head.setEngine_congr _ e (by rw [hnoted]; exact Engine.struck_bench hb)
  · refine congrArg (Head.taskFaulted · _ code) (Head.setEngine_congr _ e ?_)
    rw [hnoted]
    exact Engine.struck_task (Bool.eq_false_iff.mpr hb)

/-- An instruction whose fetch or operand has an uncorrectable error. -/
theorem Head.issue_unreadable (hm : (h.engine e.val).mode = .running) (hw : (h.engine e.val).readable i = false) :
    h.issue e.val i = h.issueFault e.val 5 := by
  simp only [Engine.readable, Bool.not_eq_false'] at hw
  simp only [Head.issue, hm, ne_eq, not_true, if_false, hw, if_true]

/-- An instruction that faults in its engine. -/
theorem Head.issue_fault (hm : (h.engine e.val).mode = .running) (hw : (h.engine e.val).readable i = true)
    (hs : instrStep (h.engine e.val) (h.ports e.val) i = .fault code) :
    h.issue e.val i = (h.countEcc e.val (wordsRead (h.engine e.val) i)).issueFault e.val code := by
  simp only [Engine.readable, Bool.not_eq_true'] at hw
  simp only [Head.issue, hm, ne_eq, not_true, if_false, hw, Bool.false_eq_true, hs]

/-- A fault whose one cycle stays below the budget. -/
theorem Head.issueFault_within {g : Engine} (hg : h.engine e.val = g) (hb : ∀ b, g.budget = some b → g.cycles + 1 < b) :
    h.issueFault e.val code = (h.spend e.val 1).faulted e.val g code := by
  subst hg
  have hany : (h.engine e.val).budget.any (fun b => b ≤ (h.engine e.val).cycles + 1) = false := by
    cases hbudget : (h.engine e.val).budget with
    | none => rfl
    | some b => exact decide_eq_false (Nat.not_le.mpr (hb b hbudget))
  simp only [Head.issueFault, hany, Bool.false_eq_true, if_false]
  exact Head.engineFault_eq rfl

end Faults

/-- Settles O18: a fault spends one cycle and is the engine fault of its code, of a head in which nothing else has happened. -/
theorem faultsHaveNoEffect : Obligations.FaultsHaveNoEffect := by
  unfold Obligations.FaultsHaveNoEffect
  intro s e g faulted hruns hmode hbudget
  have hfault (i : LInstr) (code : Nat) (hw : g.readable i = true) (hs : instrStep g (s.head.ports e.val) i = .fault code) :
      (.next (s.issue e i) : Host.Outcome State Fault Refusal) =
        .next (s.setHead (((s.fetched e i).spend e.val 1).faulted e.val g code)) :=
    State.issue_next hruns ((Head.issue_fault hmode hw hs).trans (Head.issueFault_within rfl hbudget))
  refine ⟨fun c i code hc => ⟨fun hw => ?_, fun hw hs => (hc s).trans (hfault i code hw hs)⟩, fun cond code hw hcond => ?_⟩
  · exact (hc s).trans (State.issue_next hruns ((Head.issue_unreadable hmode hw).trans (Head.issueFault_within rfl hbudget)))
  · exact hfault _ _ hw (instrStep_ctl_fault (by simp [legalLE]) hcond rfl)

end Sys2Proof.Machine
end

section
namespace Sys2Proof.Machine
set_option Elab.async false

/-! ## An instruction that asks something of the head (R193, R197, R198, R200) -/

/-- The cycles of a law beyond those of its LAW instruction; any other event has none. -/
def eventCost (g : Engine) : LEvent → Except Nat Nat
  | .law entry => lawCost g entry
  | _ => .ok 0

/-- The cycles by which the count of a task may pass its budget with an event: END is charged its own (R198). -/
def closingCost (g : Engine) (ev : LEvent) : Nat := if ev = .endTask then b2n g.dirty + 1 else 0

section Events

variable {h : Head} {e : Fin 16} {i : LInstr} {g' : Engine} {n k : Nat} {ev : LEvent}

/-- An instruction that completes below the budget, with what it asks of the head. -/
theorem Head.issue_completes (hm : (h.engine e.val).mode = .running) (hw : (h.engine e.val).readable i = true)
    (hs : instrStep (h.engine e.val) (h.ports e.val) i = .ok g' n ev) (hk : eventCost (h.engine e.val) ev = .ok k)
    (hb : ∀ b, (h.engine e.val).budget = some b → (h.engine e.val).cycles + n + k < b + closingCost (h.engine e.val) ev) :
    h.issue e.val i = (((h.countEcc e.val (wordsRead (h.engine e.val) i)).setEngine e.val
      (fun _ => { g' with cycles := (h.engine e.val).cycles + n + k }.mended (h.engine e.val) i)).spend e.val (n + k)).instrEvent e.val ev := by
  have hreached : (h.engine e.val).budget.any
      (fun b => b + closingCost (h.engine e.val) ev ≤ (h.engine e.val).cycles + n + k) = false := by
    cases hbudget : (h.engine e.val).budget with
    | none => rfl
    | some b => exact decide_eq_false (Nat.not_le.mpr (hb b hbudget))
  simp only [Engine.readable, Bool.not_eq_true'] at hw
  simp only [Head.issue, hm, ne_eq, not_true, if_false, hw, Bool.false_eq_true, hs, Engine.mended_cycles]
  cases ev with
  | law entry =>
    have hk : lawCost (h.engine e.val) entry = .ok k := hk
    simp only [Option.elim, hk]
    exact if_neg (Bool.eq_false_iff.mp hreached)
  | none | endTask | commit | park =>
    obtain rfl : 0 = k := Except.ok.inj hk
    exact if_neg (Bool.eq_false_iff.mp hreached)

end Events

section GoOn

variable {s : State} {e : Fin 16} {op : COp} {arg c k : Nat} {ev : LEvent}

/-- A control instruction that goes on behind itself, with what it asks of the head. -/
theorem State.issue_goOn (hl : legalLE (.ctl op 0 arg 0) = true) (hs : controlStep (s.head.engine e.val) op arg 0 = goOn (s.head.engine e.val) c ev)
    (hk : eventCost (s.head.engine e.val) ev = .ok k) (hr : s.mayRun e (.ctl op 0 arg 0) (c + k)) :
    (.next (s.issue e (.ctl op 0 arg 0)) : Host.Outcome State Fault Refusal) =
      .next (s.setHead ((s.ran e (.ctl op 0 arg 0) (c + k) id).head.instrEvent e.val ev)) := by
  obtain ⟨hruns, hmode, hread, hbudget⟩ := hr
  have hn (x : Nat) : c + x + stallLE (s.head.engine e.val).hazard (.ctl op 0 arg 0) + k =
      c + k + x + stallLE (s.head.engine e.val).hazard (.ctl op 0 arg 0) := by omega
  have hdone := Head.issue_completes hmode hread (instrStep_ctl_ok hl rfl hs) hk
    (fun b hb => Nat.lt_of_lt_of_le (Nat.add_assoc _ _ k ▸ hn _ ▸ hbudget b hb) (Nat.le_add_right _ _))
  rw [Nat.add_assoc, hn] at hdone
  exact State.issue_next hruns hdone

/-- A control instruction stores to no word of the engine's memory. -/
theorem State.ran_ctl_head (s : State) (e : Fin 16) (op : COp) (cond arg count cost : Nat) (f : Engine → Engine) :
    (s.ran e (.ctl op cond arg count) cost f).head =
      ((s.fetched e (.ctl op cond arg count)).setEngine e.val (fun _ => (s.head.engine e.val).after (.ctl op cond arg count) cost f)).spend
        e.val ((s.head.engine e.val).takes (.ctl op cond arg count) cost) := rfl

/-- What happens to the engine behind such an instruction is an effect of the instruction. -/
theorem State.ran_setEngine {cost : Nat} {f : Engine → Engine}
    (hf : f ((s.head.engine e.val).after (.ctl op 0 arg 0) cost id) = (s.head.engine e.val).after (.ctl op 0 arg 0) cost f)
    (hb : (f ((s.head.engine e.val).after (.ctl op 0 arg 0) cost id)).bench = (s.head.engine e.val).bench)
    (ht : (f ((s.head.engine e.val).after (.ctl op 0 arg 0) cost id)).tid = (s.head.engine e.val).tid) :
    (s.ran e (.ctl op 0 arg 0) cost id).head.setEngine e.val f = (s.ran e (.ctl op 0 arg 0) cost f).head := by
  rw [s.ran_ctl_head, s.ran_ctl_head, Head.spend_setEngine _ e _ (by rw [Head.engine_setEngine_same, hb]; rfl)
    (by rw [Head.engine_setEngine_same, ht]; rfl), Head.setEngine_setEngine, hf]

/-- The engine behind such an instruction. -/
theorem State.ran_ctl_engine (s : State) (e : Fin 16) (op : COp) (cond arg count cost : Nat) (f : Engine → Engine) :
    (s.ran e (.ctl op cond arg count) cost f).head.engine e.val = (s.head.engine e.val).after (.ctl op cond arg count) cost f := by
  rw [s.ran_ctl_head, Head.spend_engine, Head.engine_setEngine_same]

end GoOn

/-! ## PARK and COMMIT (R197, R222) -/

/-- Engine `g` at PARK at tick `now`: it passes a latched release on, or waits (R197). -/
def Engine.park (g : Engine) (now : Nat) : Engine :=
  if g.released then { g with released := false } else { g with mode := .parked, parkTick := now }

theorem Engine.park_passes {g : Engine} (now : Nat) (h : g.released = true) : g.park now = { g with released := false } := if_pos h

theorem Engine.park_waits {g : Engine} (now : Nat) (h : ¬ g.released = true) :
    g.park now = { g with mode := .parked, parkTick := now } := if_neg h

theorem Engine.park_bench (now : Nat) (g : Engine) : (g.park now).bench = g.bench := by
  unfold Engine.park
  split_ifs <;> rfl

theorem Engine.park_tid (now : Nat) (g : Engine) : (g.park now).tid = g.tid := by
  unfold Engine.park
  split_ifs <;> rfl

/-- PARK has nothing to do with where the engine goes on. -/
theorem Engine.park_after (now : Nat) (g : Engine) (i : LInstr) (cost : Nat) :
    (g.after i cost id).park now = g.after i cost (Engine.park · now) := by
  by_cases h : g.released = true
  · rw [Engine.park_passes (g := g.after i cost id) now h]
    simp only [Engine.after, Engine.park_passes now h, id]
  · rw [Engine.park_waits (g := g.after i cost id) now h]
    simp only [Engine.after, Engine.park_waits now h, id]

theorem Head.instrEvent_park (h : Head) (e : Fin 16) : h.instrEvent e.val .park = h.setEngine e.val (Engine.park · h.now) := by
  simp only [Head.instrEvent]
  split_ifs with hr
  · exact h.setEngine_congr e (Engine.park_passes h.now hr).symm
  · exact h.setEngine_congr e (Engine.park_waits h.now hr).symm

/-- PARK ends as the engine's own affair. -/
theorem State.issue_park {s : State} {e : Fin 16} (hr : s.mayRun e (.ctl .park 0 0 0) 1) :
    (.next (s.issue e (.ctl .park 0 0 0)) : Host.Outcome State Fault Refusal) =
      .next (s.ran e (.ctl .park 0 0 0) 1 (Engine.park · s.head.now)) := by
  have hend : (s.ran e (.ctl .park 0 0 0) 1 id).head.instrEvent e.val .park =
      (s.ran e (.ctl .park 0 0 0) 1 (Engine.park · s.head.now)).head := by
    exact (Head.instrEvent_park _ e).trans
      (State.ran_setEngine (Engine.park_after _ _ _ _) (Engine.park_bench _ _) (Engine.park_tid _ _))
  have hgo := State.issue_goOn (c := 1) (k := 0) rfl rfl rfl hr
  rw [hend] at hgo
  exact hgo

end Sys2Proof.Machine
end

section
namespace Sys2Proof.Machine
set_option Elab.async false

/-! ## What the cycles of an instruction leave of the scheduler's and the slots' state (R203, R223) -/

/-- The head `g` is `h` but for engine `e` and the counters of the cycles and of the errors that it met. -/
structure CountsOnly (e : Nat) (h g : Head) : Prop where
  rd_eq : ∀ a, a ≠ LE_BUSY e → a ≠ LE_ECC e → g.rd a = h.rd a
  rd_le : ∀ a, h.rd a ≤ g.rd a
  boot_eq : g.boot = h.boot
  tasks_eq : g.sched.tasks = h.sched.tasks
  net_eq : g.net = h.net
  now_eq : g.now = h.now

theorem Head.rd_bumpBy_other (h : Head) {a b : Nat} (n : Nat) (hb : b ≠ a) : (h.bumpBy a n).rd b = h.rd b := h.rd_wr_other _ hb

/-- A counter does not go down (R98). -/
theorem Head.rd_le_bumpBy (h : Head) (a b n : Nat) : h.rd b ≤ (h.bumpBy a n).rd b := by
  rw [Head.bumpBy, Head.rd_wr]
  split_ifs with hb
  · subst hb
    have := h.rd_lt b
    omega
  · exact le_rfl

theorem Head.rd_spend (h : Head) (e n a : Nat) : (h.spend e n).rd a = (h.bumpBy (LE_BUSY e) n).rd a := rfl

theorem countsOnly_spend (h : Head) (e : Nat) (ws : List (Nat × Nat)) (f : Engine → Engine) (n : Nat) :
    CountsOnly e h (((h.countEcc e ws).setEngine e f).spend e n) where
  rd_eq a ha he := by
    rw [Head.rd_spend, Head.rd_bumpBy_other _ _ ha, Head.rd_setEngine]
    exact h.rd_bumpBy_other _ he
  rd_le a := by
    rw [Head.rd_spend]
    exact (h.rd_le_bumpBy (LE_ECC e) a _).trans (((h.countEcc e ws).setEngine e f).rd_le_bumpBy (LE_BUSY e) a n)
  boot_eq := rfl
  tasks_eq := rfl
  net_eq := rfl
  now_eq := rfl

theorem State.ran_countsOnly (s : State) (e : Fin 16) (op : COp) (cond arg count cost : Nat) (f : Engine → Engine) :
    CountsOnly e.val s.head (s.ran e (.ctl op cond arg count) cost f).head :=
  countsOnly_spend s.head e.val _ _ _

namespace CountsOnly

variable {e : Nat} {h g : Head} (hc : CountsOnly e h g)

include hc

theorem content_eq : g.content? = h.content? := by rw [Head.content?, hc.boot_eq, Head.content?]

theorem task_eq (t : Nat) : g.task t = h.task t := by rw [Head.task, hc.tasks_eq, Head.task]

theorem cmdSlot_eq : g.cmdSlot? = h.cmdSlot? := by
  funext k
  rw [Head.cmdSlot?, hc.content_eq, Head.cmdSlot?]

theorem cmdSlotsOf_eq (k : Nat) : g.cmdSlotsOf k = h.cmdSlotsOf k := by rw [Head.cmdSlotsOf, hc.content_eq, Head.cmdSlotsOf]

theorem loopsOf_eq (k : Nat) : g.loopsOf k = h.loopsOf k := by
  rw [Head.loopsOf, Head.station?, hc.content_eq, Head.loopsOf, Head.station?]

/-- The fourth word of a descriptor is no counter of an engine, whatever the task's number. -/
theorem taskCmd_eq (t : Nat) : g.taskCmd t = h.taskCmd t := by
  have hd : g.desc t 3 = h.desc t 3 := hc.rd_eq _ (by simp only [SCHED_DESC, LE_BUSY]; omega) (by simp only [SCHED_DESC, LE_ECC]; omega)
  rw [Head.taskCmd, hd, Head.taskCmd]

theorem expressTask_eq (t : Nat) : g.expressTask t = h.expressTask t := by
  rw [Head.expressTask, hc.taskCmd_eq, hc.cmdSlot_eq, Head.expressTask]

/-- Even a task number whose state would lie in a counter stays enabled: counters do not go down. -/
theorem taskState_ne_zero {t : Nat} (ht : h.taskState t ≠ 0) : g.taskState t ≠ 0 := by
  have hle := hc.rd_le (SCHED_TSTAT t)
  have hlt := g.rd_lt (SCHED_TSTAT t)
  simp only [Head.taskState, Head.fld, bits] at ht ⊢
  omega

end CountsOnly

/-! ## COMMIT (R197, R222) -/

/-- What makes a COMMIT of engine `e` reach the slot `x` of its task. -/
structure CommitsTo (h : Head) (e : Nat) (x : CmdSlot) : Prop where
  task_run : (h.engine e).bench = false
  kept : (h.task (h.engine e).tid).discard = false
  enabled : h.taskState (h.engine e).tid ≠ 0
  something_new : h.expressTask (h.engine e).tid = false ∨ (h.engine e).dirty = true
  slot : (h.taskCmd (h.engine e).tid).bind h.cmdSlot? = some x
  no_loops : h.loopsOf x.station = []

/-- The head after such a COMMIT. -/
def Head.committedTo (h : Head) (e : Nat) (x : CmdSlot) : Head :=
  ((h.setEngine e (fun g => { g with dirty := false })).commitStation x.station (h.engine e).stage).setTask (h.engine e).tid
    (fun y => { y with commits := (h.now :: y.commits).take 64 })

theorem Head.commitStation_now (h : Head) (k : Nat) (ws : List Word) : (h.commitStation k ws).now = h.now := by
  unfold Head.commitStation
  generalize h.cmdSlotsOf k = l
  induction l generalizing h with
  | nil => rfl
  | cons x l ih => exact ih _

theorem Head.commitStage_eq {h : Head} {e : Nat} {x : CmdSlot} (hc : CommitsTo h e x) : h.commitStage e = h.committedTo e x := by
  obtain ⟨hbench, hkept, hen, hnew, hslot, hloops⟩ := hc
  unfold Head.commitStage
  extract_lets g t clean
  have hpass : ¬(g.bench = true ∨ (clean.task t).discard = true ∨ clean.taskState t = 0 ∨ (clean.expressTask t = true ∧ (!g.dirty) = true)) := by
    rintro (hb | hd | hs | ⟨hx, hd⟩)
    · exact Bool.false_ne_true (hbench.symm.trans hb)
    · exact Bool.false_ne_true (hkept.symm.trans hd)
    · exact hen hs
    · rcases hnew with hnew | hnew
      · exact Bool.false_ne_true (hnew.symm.trans hx)
      · exact Bool.false_ne_true ((congrArg (!·) hnew).symm.trans hd)
  have hslot' : (clean.taskCmd t).bind clean.cmdSlot? = some x := hslot
  have hempty : (clean.loopsOf x.station).isEmpty = true := List.isEmpty_iff.mpr hloops
  rw [if_neg hpass]
  simp only [hslot', hempty, if_true, Head.commitStation_now]
  rfl

/-- What a COMMIT asks for stands as well where only counters have changed. -/
theorem CountsOnly.commitsTo {e : Nat} {h g : Head} {x : CmdSlot} (hc : CountsOnly e h g) (hbench : (g.engine e).bench = (h.engine e).bench)
    (htid : (g.engine e).tid = (h.engine e).tid) (hdirty : (g.engine e).dirty = (h.engine e).dirty) (hx : CommitsTo h e x) :
    CommitsTo g e x where
  task_run := hbench.trans hx.task_run
  kept := by rw [htid, hc.task_eq]; exact hx.kept
  enabled := by rw [htid]; exact hc.taskState_ne_zero hx.enabled
  something_new := by rw [htid, hc.expressTask_eq, hdirty]; exact hx.something_new
  slot := by rw [htid, hc.taskCmd_eq, hc.cmdSlot_eq]; exact hx.slot
  no_loops := (hc.loopsOf_eq _).trans hx.no_loops

/-- COMMIT hands the staging bank to the slots of its task's station. -/
theorem State.issue_commit {s : State} {e : Fin 16} {x : CmdSlot} (hr : s.mayRun e (.ctl .commit 0 0 0) 2) (hx : CommitsTo s.head e.val x) :
    (.next (s.issue e (.ctl .commit 0 0 0)) : Host.Outcome State Fault Refusal) =
      .next (s.setHead ((((s.ran e (.ctl .commit 0 0 0) 2 (fun g => { g with dirty := false })).head).commitStation x.station
        (s.head.engine e.val).stage).setTask (s.head.engine e.val).tid
        (fun y => { y with commits := (s.head.now :: y.commits).take 64 }))) := by
  have hc := s.ran_countsOnly e .commit 0 0 0 2 id
  have hengine := s.ran_ctl_engine e .commit 0 0 0 2 id
  have hclean : (s.ran e (.ctl .commit 0 0 0) 2 id).head.setEngine e.val (fun g => { g with dirty := false }) =
      (s.ran e (.ctl .commit 0 0 0) 2 (fun g => { g with dirty := false })).head := State.ran_setEngine rfl rfl rfl
  have hto : CommitsTo (s.ran e (.ctl .commit 0 0 0) 2 id).head e.val x :=
    hc.commitsTo (by rw [hengine]; rfl) (by rw [hengine]; rfl) (by rw [hengine]; rfl) hx
  have hgo := State.issue_goOn (c := 2) (k := 0) rfl rfl rfl hr
  rw [Head.instrEvent, Head.commitStage_eq hto, Head.committedTo, hclean, hengine, hc.now_eq] at hgo
  exact hgo

/-! ## END (R197, R208, R257) -/

/-- The head `g` has the engines and the slots of `h`. -/
def SameBanks (h g : Head) : Prop := g.engines = h.engines ∧ g.net = h.net

theorem SameBanks.refl (h : Head) : SameBanks h h := ⟨rfl, rfl⟩

theorem SameBanks.trans {a b c : Head} (hab : SameBanks a b) (hbc : SameBanks b c) : SameBanks a c :=
  ⟨hbc.1.trans hab.1, hbc.2.trans hab.2⟩

theorem SameBanks.ite {h a b : Head} {c : Prop} [Decidable c] (ha : SameBanks h a) (hb : SameBanks h b) :
    SameBanks h (if c then a else b) := by
  split_ifs
  · exact ha
  · exact hb

theorem SameBanks.engine_eq {h g : Head} (hs : SameBanks h g) (k : Nat) : g.engine k = h.engine k := by
  rw [Head.engine, hs.1, Head.engine]

theorem SameBanks.slot_eq {h g : Head} (hs : SameBanks h g) (k : Nat) : g.slot k = h.slot k := by rw [Head.slot, hs.2, Head.slot]

section SameBanks

variable (h : Head) (t : Nat)

theorem Head.wr_sameBanks (a v : Nat) : SameBanks h (h.wr a v) := ⟨h.wr_engines a v, h.wr_net a v⟩

theorem Head.setTask_sameBanks (f : TaskX → TaskX) : SameBanks h (h.setTask t f) := ⟨rfl, rfl⟩

theorem Head.setTaskState_sameBanks (k : Nat) : SameBanks h (h.setTaskState t k) := h.wr_sameBanks _ _

theorem Head.setMail_sameBanks (n o v : Nat) : SameBanks h (h.setMail n o v) := ⟨rfl, rfl⟩

theorem Head.setMot_sameBanks (n : Nat) (f : Motion → Motion) : SameBanks h (h.setMot n f) := ⟨rfl, rfl⟩

theorem Head.setLevel_sameBanks (k : Nat) (l : List Nat) : SameBanks h (h.setLevel k l) := ⟨rfl, rfl⟩

theorem Head.sched_sameBanks (x : Sched) : SameBanks h { h with sched := x } := ⟨rfl, rfl⟩

theorem Head.enqueue_sameBanks : SameBanks h (h.enqueue t) :=
  .ite (.refl h) ((h.setLevel_sameBanks _ _).trans ((Head.setTask_sameBanks _ t _).trans (Head.wr_sameBanks _ _ _)))

theorem Head.tryReady_sameBanks : SameBanks h (h.tryReady t) := by
  unfold Head.tryReady
  extract_lets ready counted noted
  have hready : SameBanks h ready := (h.setTaskState_sameBanks t 2).trans (Head.setTask_sameBanks _ t _)
  have hnoted : SameBanks h noted := hready.trans (ready.sched_sameBanks _)
  exact .ite (.ite (hnoted.trans (noted.enqueue_sameBanks t)) hnoted) (.refl h)

theorem Head.setFlag_sameBanks (k : Nat) : SameBanks h (h.setFlag t k) :=
  .ite (.refl h) (.ite (h.wr_sameBanks _ _) ((h.wr_sameBanks _ _).trans (Head.tryReady_sameBanks _ t)))

theorem Head.foldl_sameBanks {α : Type} (f : Head → α → Head) (hf : ∀ g a, SameBanks g (f g a)) (l : List α) : SameBanks h (l.foldl f h) := by
  induction l generalizing h with
  | nil => exact .refl h
  | cons a l ih => exact (hf h a).trans (ih _)

theorem Head.setMailLong_sameBanks (n o : Nat) (v : Int) : SameBanks h (h.setMailLong n o v) := by
  unfold Head.setMailLong
  exact (h.setMail_sameBanks n o _).trans (Head.setMail_sameBanks _ n (o + 1) _)

theorem Head.handOver_sameBanks (e : Nat) : SameBanks h (h.handOver e t) := by
  unfold Head.handOver
  extract_lets n g x owed m fl
  have howed : SameBanks h owed := h.setMot_sameBanks n _
  have hmail (g : Head) (o o' v v' : Nat) : SameBanks g ((g.setMail n o v).setMail n o' v') :=
    (g.setMail_sameBanks n o v).trans (Head.setMail_sameBanks _ n o' v')
  have hlong (g : Head) (o o' : Nat) (v v' : Int) : SameBanks g ((g.setMailLong n o v).setMailLong n o' v') :=
    (g.setMailLong_sameBanks n o v).trans (Head.setMailLong_sameBanks _ n o' v')
  exact .ite (.refl h) (.ite (.ite (howed.trans ((hmail _ _ _ _ _).trans (hmail _ _ _ _ _))) (.ite howed (howed.trans (hmail _ _ _ _ _))))
    (.ite ((hlong h _ _ _ _).trans (Head.setMail_sameBanks _ _ _ _)) (.refl h)))

end SameBanks

/-- What an END makes of an engine that ran a task. -/
def Engine.freed (g : Engine) : Engine := { g with mode := .idle, dirty := false, mail := [] }

/-- The END of a task: what it commits and hands over, the engine free, and what the scheduler makes of it. -/
theorem Head.endTask_sameBanks {h : Head} {e : Nat} (hb : (h.engine e).bench = false) :
    SameBanks (((if (h.engine e).dirty then h.commitStage e else h).handOver e (h.engine e).tid).setEngine e Engine.freed) (h.endTask e) := by
  unfold Head.endTask
  extract_lets g t committed handed free kept ready
  have hbench : ¬g.bench = true := fun h => Bool.false_ne_true (hb.symm.trans h)
  rw [if_neg hbench]
  have hready : SameBanks kept ready := .ite ((kept.setTaskState_sameBanks t 1).trans (Head.tryReady_sameBanks _ t)) (.refl kept)
  have hfree : SameBanks (handed.setEngine e Engine.freed) free := ⟨rfl, rfl⟩
  exact hfree.trans ((free.setTask_sameBanks t _).trans (hready.trans (ready.foldl_sameBanks _ (fun g c => g.setFlag_sameBanks c 2) _)))

theorem Head.endTask_bench {h : Head} {e : Nat} (hb : (h.engine e).bench = true) :
    h.endTask e = h.setEngine e (fun g => { g with mode := .halted }) := by
  rw [Head.endTask, if_pos hb]

/-- The engine is free after the END of a task. -/
theorem Head.endTask_engine {h : Head} {e : Fin 16} (hb : (h.engine e.val).bench = false) :
    ((h.endTask e.val).engine e.val).mode = .idle ∧ ((h.endTask e.val).engine e.val).dirty = false := by
  rw [(Head.endTask_sameBanks hb).engine_eq, Head.engine_setEngine_same]
  exact ⟨rfl, rfl⟩

theorem Head.slot_setSlot (h : Head) (k j : Nat) (f : SlotTx → SlotTx) :
    (h.setSlot k f).slot j = if j = k then f (h.slot k) else h.slot j := Tbl.get_set _ _ _ _ _

/-- A commit reaches every slot of its station (R21, R127). -/
theorem Head.commitStation_slot (h : Head) (k : Nat) (ws : List Word) :
    ∀ y ∈ h.cmdSlotsOf k, ((h.commitStation k ws).slot (y.lane * 256 + y.slot)).payload = ws := by
  unfold Head.commitStation
  suffices hall : ∀ (l : List CmdSlot) (g : Head) (j : Nat), (∃ y ∈ l, y.lane * 256 + y.slot = j) ∨ (g.slot j).payload = ws →
      ((l.foldl (fun g x => g.setSlot (x.lane * 256 + x.slot) (fun y => { y with
        payload := ws, committed := true, commitAt := g.now, before := if y.commitAt = g.now then y.before else (y.payload, y.committed) }))
        g).slot j).payload = ws from fun y hy => hall _ h _ (.inl ⟨y, hy, rfl⟩)
  intro l
  induction l with
  | nil => exact fun g j hj => hj.elim (fun ⟨y, hy, _⟩ => absurd hy List.not_mem_nil) id
  | cons x l ih =>
    intro g j hj
    refine ih _ j ?_
    rw [Head.slot_setSlot]
    by_cases hx : j = x.lane * 256 + x.slot
    · exact .inr (by rw [if_pos hx])
    · rw [if_neg hx]
      rcases hj with ⟨y, hy, rfl⟩ | hj
      · rcases List.mem_cons.mp hy with rfl | hy
        · exact absurd rfl hx
        · exact .inl ⟨y, hy, rfl⟩
      · exact .inr hj

/-- The END of a task with a dirty bank commits it to every slot of the task's station. -/
theorem Head.endTask_slot {h : Head} {e : Nat} {x : CmdSlot} (hd : (h.engine e).dirty = true) (hx : CommitsTo h e x) :
    ∀ y ∈ h.cmdSlotsOf x.station, ((h.endTask e).slot (y.lane * 256 + y.slot)).payload = (h.engine e).stage := by
  intro y hy
  have hfree (g : Head) (f : Engine → Engine) (k : Nat) : (g.setEngine e f).slot k = g.slot k := rfl
  have htask (g : Head) (t : Nat) (f : TaskX → TaskX) (k : Nat) : (g.setTask t f).slot k = g.slot k := rfl
  have hend := (Head.endTask_sameBanks hx.task_run).slot_eq (y.lane * 256 + y.slot)
  rw [if_pos hd, hfree, (Head.handOver_sameBanks _ _ _).slot_eq, Head.commitStage_eq hx, Head.committedTo, htask] at hend
  rw [hend]
  exact Head.commitStation_slot _ _ _ y hy

/-- END whose condition holds and that ends within the budget (R193, R197): the head behind its cycles, in which the task ends. -/
theorem State.issue_endTask {s : State} {e : Fin 16} {cond : Fin 15} {n : Nat} (hs : s.runs) (hm : (s.head.engine e.val).mode = .running)
    (hw : (s.head.engine e.val).readable (.ctl .endTask cond.val 0 0) = true)
    (hc : condHolds (s.head.engine e.val).fl cond.val = some true)
    (hn : n = (if (s.head.engine e.val).dirty then 2 else 1) + b2n (decide (cond ≠ 0) && (s.head.engine e.val).hazard.flags))
    (hb : ∀ b, (s.head.engine e.val).budget = some b → (s.head.engine e.val).cycles + n ≤ b) :
    ∃ h : Head, (.next (s.issue e (.ctl .endTask cond.val 0 0)) : Host.Outcome State Fault Refusal) = .next (s.setHead (h.endTask e.val)) ∧
      CountsOnly e.val s.head h ∧ (h.engine e.val).bench = (s.head.engine e.val).bench ∧ (h.engine e.val).tid = (s.head.engine e.val).tid ∧
        (h.engine e.val).dirty = (s.head.engine e.val).dirty ∧ (h.engine e.val).stage = (s.head.engine e.val).stage := by
  have hstep := instrStep_ctl_ok (pt := s.head.ports e.val) (by simp [legalLE]) hc
    (show controlStep (s.head.engine e.val) .endTask 0 0 = .ok { s.head.engine e.val with calls := [], loops := [] } _ .endTask from rfl)
  rw [stallLE_cond _ (by decide), ← hn] at hstep
  have hdone := Head.issue_completes (k := 0) hm hw hstep rfl (fun b hbudget => by
    have hclosing : 0 < closingCost (s.head.engine e.val) .endTask := by simp [closingCost]
    have := hb b hbudget
    omega)
  refine ⟨_, State.issue_next hs hdone, countsOnly_spend _ _ _ _ _, ?_⟩
  rw [Head.spend_engine, Head.engine_setEngine_same]
  exact ⟨rfl, rfl, rfl, rfl⟩

/-! ## The budget (R198) -/

theorem Head.budgetFault_eq {h : Head} {e b : Nat} (hb : (h.engine e).budget = some b) :
    h.budgetFault e = (h.spend e (b - (h.engine e).cycles)).engineFault e 4 := by
  simp only [Head.budgetFault, hb]

/-- An instruction that would bring the count to the budget has no effect. -/
theorem Head.issue_over {h : Head} {e : Fin 16} {i : LInstr} {g' : Engine} {n b : Nat} (hm : (h.engine e.val).mode = .running)
    (hw : (h.engine e.val).readable i = true) (hs : instrStep (h.engine e.val) (h.ports e.val) i = .ok g' n .none)
    (hb : (h.engine e.val).budget = some b) (hn : b ≤ (h.engine e.val).cycles + n) :
    h.issue e.val i = ((h.countEcc e.val (wordsRead (h.engine e.val) i)).spend e.val (b - (h.engine e.val).cycles)).engineFault e.val 4 := by
  simp only [Engine.readable, Bool.not_eq_true'] at hw
  have hover : (some b).any (fun b => b + 0 ≤ (h.engine e.val).cycles + n + 0) = true := decide_eq_true hn
  simp only [Head.issue, hm, ne_eq, not_true, if_false, hw, Bool.false_eq_true, hs, Option.elim, hb, reduceCtorEq, hover, if_true]
  exact Head.budgetFault_eq hb

/-- Settles O17: PARK and COMMIT go on with what they ask of the head, END ends its task, and a count that reaches the budget is a fault. -/
theorem commitParkEndRun : Obligations.CommitParkEndRun := by
  unfold Obligations.CommitParkEndRun
  intro s e g t
  refine ⟨State.issue_park, fun x hr hbench hkept hen hnew hslot hloops => ?_, fun cond hs hm hw hc hb => ?_, fun b hs hm hb => ⟨?_, ?_⟩⟩
  · exact State.issue_commit hr ⟨hbench, hkept, hen, hnew, hslot, hloops⟩
  · obtain ⟨h, hnext, hcounts, hhbench, htid, hdirty, hstage⟩ := State.issue_endTask hs hm hw hc rfl hb
    refine ⟨_, hnext, ?_, fun hbench => ⟨(Head.endTask_engine (hhbench.trans hbench)).2, fun x hd hkept hen hslot hloops => ?_⟩⟩
    · cases hbench : g.bench with
      | true =>
        rw [State.setHead_head, Head.endTask_bench (hhbench.trans hbench), Head.engine_setEngine_same]
        rfl
      | false => exact (Head.endTask_engine (hhbench.trans hbench)).1
    · have hto := hcounts.commitsTo hhbench htid hdirty ⟨hbench, hkept, hen, .inr hd, hslot, hloops⟩
      have hcommitted := Head.endTask_slot (hdirty.trans hd) hto
      rw [hcounts.cmdSlotsOf_eq, hstage] at hcommitted
      exact hcommitted
  · have hfault := Head.budgetFault_eq hb
    exact State.onHead_next (f := fun h => h.budgetFault e.val) hs hfault (hfault ▸ s.head.budgetFault_boot e.val)
  · intro c i g' n hc hw hstep hn
    exact (hc s).trans (State.issue_next hs (Head.issue_over hm hw hstep hb hn))

end Sys2Proof.Machine
end

section
namespace Sys2Proof.Machine
set_option Elab.async false

/-! ## The windows of a law (R182, R200, R254) -/

section Windows

variable {g : Engine} {entry : Nat}

/-- A law that touches no loop record fits where its context words do. -/
theorem lawFits_context (hrec : loopReach entry g = ([], [])) (hx : (lawReach entry).1 ≤ g.xWin.2) (hy : (lawReach entry).2.1 ≤ g.yWin.2)
    (hc : (lawReach entry).2.2 ≤ g.cWin.2) : lawFits entry g = true := by
  simp only [lawFits, hrec, List.all_nil, Bool.and_true, Bool.and_eq_true, decide_eq_true_eq]
  exact ⟨⟨hx, hy⟩, hc⟩

/-- The laws on context words alone (Table 08-15). -/
theorem loopReach_context (he : entry ≤ 0x0D ∨ entry = 0x11) : loopReach entry g = ([], []) := by
  rcases he with he | rfl
  · interval_cases entry <;> rfl
  · rfl

/-- The windows of Table 10-6 hold every current law. -/
theorem lawFits_current (he : entry ≤ 0x0A)
    (hw : (decide (128 ≤ g.xWin.2) && decide (64 ≤ g.yWin.2) && decide (32 ≤ g.cWin.2)) = true) : lawFits entry g = true := by
  have hreach : ∀ k : Fin 11, (lawReach k.val).1 ≤ 128 ∧ (lawReach k.val).2.1 ≤ 64 ∧ (lawReach k.val).2.2 ≤ 32 := by decide
  obtain ⟨hrx, hry, hrc⟩ := hreach ⟨entry, by omega⟩
  simp only [Bool.and_eq_true, decide_eq_true_eq] at hw
  obtain ⟨⟨hx, hy⟩, hc⟩ := hw
  exact lawFits_context (loopReach_context (.inl (by omega))) (hrx.trans hx) (hry.trans hy) (hrc.trans hc)

/-- The first words of the X window hold what the motion laws reach. -/
theorem lawFits_motion (he : entry = 0x0B ∨ entry = 0x0C ∨ entry = 0x0D) (hw : decide (7 ≤ g.xWin.2) = true) : lawFits entry g = true := by
  have hx := of_decide_eq_true hw
  rcases he with rfl | rfl | rfl <;> exact lawFits_context rfl hx (Nat.zero_le _) (Nat.zero_le _)

theorem lawFits_stepper (hw : (decide (63 ≤ g.xWin.2) && decide (48 ≤ g.yWin.2)) = true) : lawFits 0x11 g = true := by
  simp only [Bool.and_eq_true, decide_eq_true_eq] at hw
  exact lawFits_context rfl hw.1 (le_trans (by decide) hw.2) (Nat.zero_le _)

/-- A window that holds the ends of a record holds what lies between. -/
theorem inWindow_between {w : Nat × Nat} {a n i : Nat} (hfirst : inWindow w a = true) (hlast : inWindow w (a + n) = true) (hi : i ≤ n) :
    inWindow w (a + i) = true := by
  simp only [inWindow, Bool.and_eq_true, decide_eq_true_eq] at *
  omega

/-- A process law touches X words 0 to 95 and Y words 0 to 15 of its record (Table 13-7). -/
theorem loopReach_record (he : entry = 0x0E ∨ entry = 0x0F ∨ entry = 0x10) :
    (∀ i ∈ (loopReach entry g).1, i ≤ 95) ∧ ∀ i ∈ (loopReach entry g).2, i ≤ 15 := by
  rcases he with rfl | rfl | rfl
  · exact ⟨by simp [loopReach], by simp [loopReach]⟩
  · exact ⟨by simp [loopReach], by simp [loopReach]; omega⟩
  · refine ⟨fun i hi => ?_, by simp [loopReach]⟩
    simp only [loopReach, List.mem_append, List.mem_cons, List.not_mem_nil, or_false] at hi
    rcases hi with hi | hi
    · omega
    · split_ifs at hi
      · cases hi
      · have := List.mem_singleton.mp hi
        omega

/-- The loop record of a process law inside its windows. -/
theorem lawFits_record (he : entry = 0x0E ∨ entry = 0x0F ∨ entry = 0x10)
    (hw : (inWindow g.xWin g.ap[0].toNat && inWindow g.xWin (g.ap[0].toNat + 95) && inWindow g.yWin g.ap[2].toNat &&
      inWindow g.yWin (g.ap[2].toNat + 15)) = true) : lawFits entry g = true := by
  obtain ⟨hrx, hry⟩ := loopReach_record (g := g) he
  have hreach : lawReach entry = (0, 0, 0) := by rcases he with rfl | rfl | rfl <;> rfl
  simp only [Bool.and_eq_true] at hw
  obtain ⟨⟨⟨hx0, hx1⟩, hy0⟩, hy1⟩ := hw
  simp only [lawFits, hreach, Nat.zero_le, decide_true, Bool.and_true, Bool.true_and, Bool.and_eq_true, List.all_eq_true]
  exact ⟨fun i hi => inWindow_between hx0 hx1 (hrx i hi), fun i hi => inWindow_between hy0 hy1 (hry i hi)⟩

end Windows

/-! ## LAW calls (R200, R201) -/

/-- A law's cost is that of Table 08-15 where its accesses fit and meet no uncorrectable error. -/
theorem lawCost_ok {g : Engine} {entry cycles : Nat} (hcyc : lawCycles entry = some cycles) (hfits : lawFits entry g = true)
    (hhurt : lawHurt entry g = false) : lawCost g entry = .ok cycles := by
  simp only [lawCost, hcyc, hfits, hhurt, Bool.not_true, Bool.false_eq_true, if_false]

/-- LAW goes on behind itself where two call levels and two loop levels are free (R200). -/
theorem controlStep_law {g : Engine} {entry : Nat} (hcalls : g.calls.length ≤ 6) (hloops : g.loops.length ≤ 2) :
    controlStep g .law entry 0 = goOn g 0 (.law entry) := by
  have hfree : ¬(g.calls.length > 6 ∨ g.loops.length > 2) := by omega
  simp only [controlStep, if_neg hfree]

/-- Where an engine goes on is no matter for the words that a law stores to. -/
theorem lawResults_after (g : Engine) (entry : Nat) (i : LInstr) (cost : Nat) :
    lawResults entry (g.after i cost id) = lawResults entry g := rfl

section Law

variable {s : State} {e : Fin 16} {entry cycles : Nat}

/-- A law that may run to its end runs on the head behind its cycles, whatever axis its engine serves. -/
theorem State.issue_law (he : entry ≤ 0x15) (hcyc : lawCycles entry = some cycles) {windows : Bool} {f : Head → Head}
    (hfits : windows = true → lawFits entry (s.head.engine e.val) = true)
    (hf : ∀ h : Head, (h.engine e.val).axn = (s.head.engine e.val).axn → h.runLaw e.val entry = f h) (hw : windows = true)
    (hhurt : lawHurt entry (s.head.engine e.val) = false) (hcalls : (s.head.engine e.val).calls.length ≤ 6)
    (hloops : (s.head.engine e.val).loops.length ≤ 2) (hr : s.mayRun e (.ctl .law 0 entry 0) cycles) :
    (.next (s.issue e (.ctl .law 0 entry 0)) : Host.Outcome State Fault Refusal) =
      .next (s.setHead ((f (s.ran e (.ctl .law 0 entry 0) cycles id).head).setEngine e.val
        (fun g' => g'.clean (fun w => w.1 == 1 && (lawResults entry (s.head.engine e.val)).contains w.2)))) := by
  have hl : legalLE (.ctl .law 0 entry 0) = true := by simp [legalLE, he]
  have hgo := State.issue_goOn hl (controlStep_law hcalls hloops) (lawCost_ok hcyc (hfits hw) hhurt) ((Nat.zero_add cycles).symm ▸ hr)
  rw [Nat.zero_add] at hgo
  have hengine := s.ran_ctl_engine e .law 0 entry 0 cycles id
  rw [Head.instrEvent, hf _ (by rw [hengine]; rfl), hengine, lawResults_after] at hgo
  exact hgo

end Law

/-- Settles O19: each entry is the law that runs on the head behind its cycles. -/
theorem lawCallsRunTheirLaw : Obligations.LawCallsRunTheirLaw := by
  unfold Obligations.LawCallsRunTheirLaw
  intro s e g unit loopRecord currentWindows gives
  have hlaw {c : Instr} {entry cycles : Nat} {windows : Bool} {f : Head → Head} (he : entry ≤ 0x15) (hcyc : lawCycles entry = some cycles)
      (hfits : windows = true → lawFits entry g = true) (hf : ∀ h : Head, (h.engine e.val).axn = g.axn → h.runLaw e.val entry = f h)
      (hc : exec c s = .next (s.issue e (.ctl .law 0 entry 0))) : gives c entry cycles windows f :=
    fun hw hhurt hcalls hloops hr => hc.trans (State.issue_law he hcyc hfits hf hw hhurt hcalls hloops hr)
  have hunit (h : Head) (f : Head → Head) (ha : (h.engine e.val).axn = g.axn) : (if (h.engine e.val).axn < 128 then f h else h) = unit h f := by
    rw [ha]
  clear_value gives
  refine ⟨?_, ?_, ?_, ?_, ?_, ?_, ?_, ?_, ?_, ?_, ?_, ?_, ?_, ?_, ?_, ?_, ?_, ?_⟩
  case refine_9 | refine_10 | refine_11 => exact hlaw (by decide) rfl (lawFits_current (by decide)) (fun h ha => by rw [← ha]; rfl) rfl
  case refine_12 | refine_13 | refine_14 => exact hlaw (by decide) rfl (lawFits_motion (by decide)) (fun h ha => hunit h _ ha) rfl
  case refine_15 | refine_16 | refine_17 => exact hlaw (by decide) rfl (lawFits_record (by decide)) (fun h ha => rfl) rfl
  case refine_18 => exact hlaw (by decide) rfl lawFits_stepper (fun h ha => rfl) rfl
  all_goals exact hlaw (by decide) rfl (lawFits_current (by decide)) (fun h ha => rfl) rfl

end Sys2Proof.Machine
end

section
namespace Sys2Proof.Machine
set_option Elab.async false

/-! ## Square roots (R458) -/

/-- The root found bit by bit, from a root of the bits above (R458). -/
theorem isqrtBits_spec (x n r : Nat) (hlo : r * r ≤ x) (hhi : x < (r + 2 ^ (n + 1)) * (r + 2 ^ (n + 1))) :
    isqrtBits x n r * isqrtBits x n r ≤ x ∧ x < (isqrtBits x n r + 1) * (isqrtBits x n r + 1) := by
  induction n generalizing r with
  | zero =>
    unfold isqrtBits
    split_ifs with h
    · exact ⟨h, hhi⟩
    · exact ⟨hlo, Nat.lt_of_not_le h⟩
  | succ n ih =>
    unfold isqrtBits
    dsimp only
    split_ifs with h
    · refine ih _ h ?_
      rwa [show r + 2 ^ (n + 1) + 2 ^ (n + 1) = r + 2 ^ (n + 1 + 1) by ring]
    · exact ih _ hlo (Nat.lt_of_not_le h)

/-- The root of a number below 2^128 is the truncated one. -/
theorem isqrt_eq_sqrt {x : Nat} (hx : x < 2 ^ 128) : isqrt x = Nat.sqrt x := by
  obtain ⟨hlo, hhi⟩ := isqrtBits_spec x 63 0 (Nat.zero_le _) (lt_of_lt_of_eq hx (by norm_num))
  exact Nat.eq_sqrt.mpr ⟨hlo, hhi⟩

/-- SQRT gives the truncated root of a Q1.23 value, 0 for a negative one (R458). -/
theorem sqrtQ_eq {k : W24} {r : Nat} (hr : if k.toInt < 0 then r = 0
    else (r : Int) * r ≤ k.toInt * 2 ^ 23 ∧ k.toInt * 2 ^ 23 < ((r : Int) + 1) * (r + 1)) : sqrtQ k.toInt = r := by
  have hlt := k.toInt_lt
  unfold sqrtQ
  split_ifs at hr with hneg
  · rw [if_pos hneg.le, hr]; rfl
  · obtain ⟨hlo, hhi⟩ := hr
    obtain ⟨n, hn⟩ : ∃ n : Nat, k.toInt = n := ⟨k.toInt.toNat, by omega⟩
    rw [hn] at hlo hhi hlt ⊢
    have hroot : r = Nat.sqrt (n * 2 ^ 23) := Nat.eq_sqrt.mpr ⟨by exact_mod_cast hlo, by exact_mod_cast hhi⟩
    split_ifs with hzero
    · obtain rfl : n = 0 := by omega
      simp [hroot]
    · rw [Int.toNat_natCast, isqrt_eq_sqrt (by omega), hroot]

/-! ## The helpers SIN_COS, SQRT, RECIP and ATAN2 (R200, R201, R458) -/

theorem Head.setEngine_id (h : Head) (e : Nat) : h.setEngine e id = h := by
  have hsame : h.engines.mapFinIdx (fun i x _ => if i = e then id x else x) = h.engines := by
    ext i hi
    simp
  rw [Head.setEngine, hsame]

theorem Engine.clean_nothing (g : Engine) : g.clean (fun w => w.1 == 1 && ([] : List Nat).contains w.2) = g := by
  simp [Engine.clean]

section Helpers

variable {s : State} {e : Fin 16} {entry cycles : Nat}

/-- A helper reads registers alone: it fits every window and meets no error. -/
theorem lawFits_helper (g : Engine) (he : 0x12 ≤ entry ∧ entry ≤ 0x15) :
    lawFits entry g = true ∧ lawHurt entry g = false ∧ lawResults entry g = [] := by
  obtain ⟨hlo, hhi⟩ := he
  interval_cases entry <;> simp [lawFits, lawHurt, lawReads, lawReach, loopReach, lawResults, inWindow]

/-- A helper whose law is `f` on its engine's registers, which is `f'` on those that they are. -/
theorem State.issue_helper {f f' : Engine → Engine} (he : 0x12 ≤ entry ∧ entry ≤ 0x15) (hcyc : lawCycles entry = some cycles)
    (hrun : ∀ h : Head, h.runLaw e.val entry = h.setEngine e.val f)
    (hafter : ∀ (g : Engine) (i : LInstr) (n : Nat), f (g.after i n id) = g.after i n f)
    (hkeeps : ∀ g : Engine, (f g).bench = g.bench ∧ (f g).tid = g.tid) (hf : f (s.head.engine e.val) = f' (s.head.engine e.val))
    (hcalls : (s.head.engine e.val).calls.length ≤ 6)
    (hloops : (s.head.engine e.val).loops.length ≤ 2) (hr : s.mayRun e (.ctl .law 0 entry 0) cycles) :
    (.next (s.issue e (.ctl .law 0 entry 0)) : Host.Outcome State Fault Refusal) = .next (s.ran e (.ctl .law 0 entry 0) cycles f') := by
  obtain ⟨hfits, hhurt, hresults⟩ := lawFits_helper (s.head.engine e.val) he
  have hlaw := State.issue_law (windows := true) he.2 hcyc (fun _ => hfits) (fun h _ => hrun h) rfl hhurt hcalls hloops hr
  have hran : (s.ran e (.ctl .law 0 entry 0) cycles id).head.setEngine e.val f = (s.ran e (.ctl .law 0 entry 0) cycles f).head :=
    State.ran_setEngine (hafter _ _ _) (hkeeps _).1 (hkeeps _).2
  rw [hran, hresults, Head.setEngine_congr (f' := id) _ e (Engine.clean_nothing _)] at hlaw
  rw [Head.setEngine_id] at hlaw
  exact hlaw.trans (congrArg _ (s.ran_congr e _ _ _ _ hf))

end Helpers

section HelperEffects

variable {g : Engine} {k : Int} (hg : g.k[0].toInt = k)

include hg

theorem lawSqrt_eq {r : Nat} (hr : sqrtQ k = r) :
    lawSqrt g = { g with k := g.k.set 0 (BitVec.ofNat 24 r), fl := if k < 0 then withT g.fl else g.fl } := by
  have hw : w24 (sqrtQ k) = BitVec.ofNat 24 r := by rw [hr, w24, BitVec.ofInt_natCast]
  rw [lawSqrt, hg, hw]

/-- RECIP of a value above 2^15 fits the sum register (R458). -/
theorem lawRecip_fits (hk : 2 ^ 15 < k) : lawRecip g = { g with sum := g.sum.set 0 (BitVec.ofInt 56 (2 ^ 70 / k)) } := by
  have hr : recipQ k = (BitVec.ofInt 56 (2 ^ 70 / k), false) := if_neg (not_le.mpr hk)
  rw [lawRecip, hg, hr]
  rfl

/-- RECIP of any other value saturates, with O and T (R458). -/
theorem lawRecip_saturates (hk : k ≤ 2 ^ 15) : lawRecip g = { g with sum := g.sum.set 0 0x7FFFFFFFFFFFFF#56, fl := g.fl ||| 0x18 } := by
  have hfl : withT g.fl ||| 0x08 = g.fl ||| 0x18 := by rw [withT, BitVec.or_assoc]; rfl
  have hr : recipQ k = (0x7FFFFFFFFFFFFF#56, true) := if_pos hk
  rw [lawRecip, hg, hr, ← hfl]
  rfl

end HelperEffects

/-- Settles O20: each helper is an effect on the registers, and the bit-by-bit root is the truncated one. -/
theorem helperLawsAreExact : Obligations.HelperLawsAreExact := by
  unfold Obligations.HelperLawsAreExact
  intro s e g k0 gives
  have hhelper {c : Instr} {entry cycles : Nat} {f f' : Engine → Engine} (hc : exec c s = .next (s.issue e (.ctl .law 0 entry 0)))
      (he : 0x12 ≤ entry ∧ entry ≤ 0x15) (hcyc : lawCycles entry = some cycles) (hrun : ∀ h : Head, h.runLaw e.val entry = h.setEngine e.val f)
      (hafter : ∀ (g : Engine) (i : LInstr) (n : Nat), f (g.after i n id) = g.after i n f)
      (hkeeps : ∀ g : Engine, (f g).bench = g.bench ∧ (f g).tid = g.tid) (hf : f g = f' g) : gives c entry cycles f' :=
    fun hcalls hloops hr => hc.trans (State.issue_helper he hcyc hrun hafter hkeeps hf hcalls hloops hr)
  clear_value gives
  have hsqrt {f' : Engine → Engine} (hf : lawSqrt g = f' g) : gives (.sqrtLaw e) 0x13 30 f' :=
    hhelper rfl (by decide) rfl (fun _ => rfl) (fun _ _ _ => rfl) (fun _ => ⟨rfl, rfl⟩) hf
  have hrecip {f' : Engine → Engine} (hf : lawRecip g = f' g) : gives (.recip e) 0x14 32 f' :=
    hhelper rfl (by decide) rfl (fun _ => rfl) (fun _ _ _ => rfl) (fun _ => ⟨rfl, rfl⟩) hf
  refine ⟨fun r hr => hsqrt (lawSqrt_eq rfl (sqrtQ_eq hr)), fun hk => hrecip (lawRecip_fits rfl hk),
    fun hk => hrecip (lawRecip_saturates rfl hk), ?_, ?_⟩
  · exact hhelper (f := lawSinCos) rfl (by decide) rfl (fun _ => rfl) (fun _ _ _ => rfl) (fun _ => ⟨rfl, rfl⟩) rfl
  · exact hhelper (f := lawAtan2) rfl (by decide) rfl (fun _ => rfl) (fun _ _ _ => rfl) (fun _ => ⟨rfl, rfl⟩) rfl

end Sys2Proof.Machine
end

section
namespace Sys2Proof.Machine
set_option Elab.async false

/-! ## Dispatch, privileged queues, releases (R197, R208, R211, R212, R214) -/

section Tasks

variable {h : Head}

/-- A free engine starts the work offered to it; a task of no axis brings nothing else (R214). -/
theorem Head.taskDispatch_eq {e t : Nat} {beyond : Bool} (hfree : h.engineFree e = true) (hoffer : h.offer e = some (t, beyond))
    (haxis : 128 ≤ h.taskAxis t) {noted : Head} (hnoted : (if beyond then h.put SCHED_EVT_PRIV_DEFER 1 else h) = noted) :
    h.taskDispatch e = ((if noted.taskClass t = 1 then noted.copyWindows t e else noted).startTask t e).loopRecords t e := by
  subst hnoted
  have hno : ¬h.taskAxis t < 128 := Nat.not_lt.mpr haxis
  simp only [Head.taskDispatch, hoffer, hno, if_false, false_and, Head.dispatch, hfree, Bool.not_true, Bool.false_eq_true]

/-- A ready privileged task enters its level while the level has room (R212). -/
theorem Head.privEnqueue_eq {t : Nat} (hready : h.taskState t = 2) (hclass : h.taskClass t = 2) (hout : (h.task t).queued = false)
    (hroom : (h.level (h.levelOf t)).length < 4) :
    h.privEnqueue t = ((h.setLevel (h.levelOf t) (h.level (h.levelOf t) ++ [t])).setTask t (fun x => { x with queued := true })).showQueues := by
  have henter : ¬((h.task t).queued = true ∨ (h.level (h.levelOf t)).length ≥ 4) := by
    rintro (hin | hfull)
    · exact Bool.false_ne_true (hout.symm.trans hin)
    · exact absurd hroom (Nat.not_lt.mpr hfull)
  rw [Head.privEnqueue, if_pos ⟨hready, hclass⟩, Head.enqueue, if_neg henter]

/-- A release lets a parked task go on, its wait counted up to now (R197, R223). -/
theorem Head.release_parked {e : Nat} (hm : (h.engine e).mode = .parked) :
    h.release e = ((h.spend e (h.now * 5 / 2 - (h.engine e).parkTick * 5 / 2)).setEngine e (fun g => { g with parkTick := h.now })).setEngine e
      (fun g => { g with
        mode := if h.on (LE_CTL_HALT e) then .halted else .running, held := h.on (LE_CTL_HALT e), released := false }) := by
  simp only [Head.release, hm, Head.parkSpend, if_true, Head.parkWait]

/-- A release before PARK is latched (R197). -/
theorem Head.release_running {e : Nat} (hm : (h.engine e).mode = .running) :
    h.release e = h.setEngine e (fun g => { g with released := true }) := by
  simp only [Head.release, hm]

theorem Head.privEnqueue_boot (h : Head) (t : Nat) : (h.privEnqueue t).boot = h.boot := Head.ite_boot (h.enqueue_boot t) rfl

theorem Head.copyWindows_boot (h : Head) (t e : Nat) : (h.copyWindows t e).boot = h.boot := Head.ite_boot rfl (h.setEngine_boot e _)

theorem Head.setLevel_boot (h : Head) (k : Nat) (l : List Nat) : (h.setLevel k l).boot = h.boot := rfl

theorem Head.showQueues_boot (h : Head) : h.showQueues.boot = h.boot := h.wr_boot _ _

theorem Head.startTask_boot (h : Head) (t e : Nat) : (h.startTask t e).boot = h.boot := by
  unfold Head.startTask
  extract_lets started cleared running k left begun win
  have hleft : left.boot = running.boot := Head.ite_boot ((Head.showQueues_boot _).trans (Head.setLevel_boot _ _ _)) rfl
  rw [Head.setEngine_boot, Head.setTask_boot, hleft, Head.put_boot, Head.setTaskState_boot, Head.wr_boot]

end Tasks

/-- Settles O51: each is one equation of the head that asks for nothing beyond it. -/
theorem tasksStartWaitAndGoOn : Obligations.TasksStartWaitAndGoOn := by
  unfold Obligations.TasksStartWaitAndGoOn
  intro s e hs
  refine ⟨fun t beyond hfree hoffer haxis => ?_, fun t hready hclass hout hroom => ?_, fun hm => ?_, fun hm => ?_⟩
  · have hd := Head.taskDispatch_eq hfree hoffer haxis rfl
    refine State.onHead_next (f := fun h => h.taskDispatch e.val) hs hd ?_
    rw [Head.loopRecords_boot, Head.startTask_boot, Head.ite_boot (Head.copyWindows_boot _ t e.val) rfl, Head.ite_boot (Head.put_boot _ _ _) rfl]
  · have hp := Head.privEnqueue_eq hready hclass hout hroom
    exact State.onHead_next (f := fun h => h.privEnqueue t) hs hp (hp ▸ s.head.privEnqueue_boot t)
  · have hr := Head.release_parked hm
    exact State.onHead_next (f := fun h => h.release e.val) hs hr (hr ▸ s.head.release_boot e.val)
  · have hr := Head.release_running hm
    exact State.onHead_next (f := fun h => h.release e.val) hs hr (hr ▸ s.head.release_boot e.val)

end Sys2Proof.Machine
end

section
namespace Sys2Proof.Machine
set_option Elab.async false

/-! ## Planning of moves (R267) -/

section Planning

/-- One entry of a move queue while the planning task looks for the oldest one in PLANNING: the entries passed, and whether it is found. -/
def MoveEntry.plan (b : Nat) (a : List MoveEntry × Bool) (x : MoveEntry) : List MoveEntry × Bool :=
  if a.2 ∨ x.ready.isSome then (a.1 ++ [x], a.2) else (a.1 ++ [{ x with ready := some b }], true)

theorem Head.movePlanned_eq (h : Head) (n : Nat) : h.movePlanned n =
    h.setMot n (fun m => { m with queue := (m.queue.foldl (MoveEntry.plan h.bellNo) ([], false)).1 }) := rfl

/-- Entries that are READY are passed as they are. -/
theorem MoveEntry.foldl_plan_ready {b : Nat} {done : List MoveEntry} (hdone : ∀ y ∈ done, y.ready.isSome = true) (passed : List MoveEntry) :
    done.foldl (MoveEntry.plan b) (passed, false) = (passed ++ done, false) := by
  induction done generalizing passed with
  | nil => simp
  | cons y ys ih =>
    obtain ⟨hy, hys⟩ := List.forall_mem_cons.mp hdone
    rw [List.foldl_cons, MoveEntry.plan, if_pos (Or.inr hy), ih hys, List.append_assoc, List.singleton_append]

/-- Behind the entry planned the queue stays as it is. -/
theorem MoveEntry.foldl_plan_found (b : Nat) (passed rest : List MoveEntry) :
    rest.foldl (MoveEntry.plan b) (passed, true) = (passed ++ rest, true) := by
  induction rest generalizing passed with
  | nil => simp
  | cons y ys ih => rw [List.foldl_cons, MoveEntry.plan, if_pos (Or.inl rfl), ih, List.append_assoc, List.singleton_append]

/-- The oldest entry in PLANNING becomes READY. -/
theorem MoveEntry.foldl_plan (b : Nat) {done : List MoveEntry} {x : MoveEntry} (rest : List MoveEntry)
    (hdone : ∀ y ∈ done, y.ready.isSome = true) (hx : x.ready = none) :
    ((done ++ x :: rest).foldl (MoveEntry.plan b) ([], false)).1 = done ++ { x with ready := some b } :: rest := by
  have hplans : MoveEntry.plan b (done, false) x = (done ++ [{ x with ready := some b }], true) := by simp [MoveEntry.plan, hx]
  rw [List.foldl_append, MoveEntry.foldl_plan_ready hdone, List.nil_append, List.foldl_cons, hplans, MoveEntry.foldl_plan_found,
    List.append_assoc, List.singleton_append]

/-- Changes of an axis' motion that agree on the motion as it stands have one outcome. -/
theorem Head.setMot_congr (h : Head) {n : Nat} {f g : Motion → Motion} (hfg : f (h.mot n) = g (h.mot n)) : h.setMot n f = h.setMot n g :=
  congrArg (fun m => { h with motion := h.motion.set Motion.initial n m }) hfg

/-- The planning task makes the oldest entry in PLANNING READY, in the Bell in which it finishes (R267). -/
theorem Head.movePlanned_oldest {h : Head} {n : Nat} {done rest : List MoveEntry} {x : MoveEntry} (hqueue : (h.mot n).queue = done ++ x :: rest)
    (hdone : ∀ y ∈ done, y.ready.isSome = true) (hx : x.ready = none) :
    h.movePlanned n = h.setMot n (fun m => { m with queue := done ++ { x with ready := some h.bellNo } :: rest }) := by
  rw [Head.movePlanned_eq]
  refine h.setMot_congr ?_
  rw [hqueue, MoveEntry.foldl_plan _ rest hdone hx]

end Planning

/-! ## Publications of masters, the loss of a line, the end of holdover (R284, R285, R288) -/

section Masters

variable (h : Head) (v : Nat)

/-- The words of a publication after the first (Table 12-2), `x` being the master as it stands. -/
def Head.masterRecord (x : Vm) : List Nat :=
  let st := stampOf h.bell.instant 0
  let m := toBits 64 x.m
  [h.headNo * 2 ^ 24 + min 3 (h.fld (VM_STAT_STATE v)) * 65536 + h.bellTicks % 65536, st % 2 ^ 32, st / 2 ^ 32, m % 2 ^ 32, m / 2 ^ 32,
    toBits 32 x.v, toBits 32 x.a, h.rd (VM_MCYC v)]

/-- The head at a publication instant: a publication still unsent is replaced and counted (R285). -/
def Head.atPublication : Head :=
  if (h.vm v).unsent then (h.forward h.bell.edge).bump (VM_PUB_SKIP v) else h.forward h.bell.edge

theorem Head.atPublication_bell : (h.atPublication v).bell = h.bell := by
  rw [Head.atPublication, apply_ite Head.bell, Head.bump_bell, ite_self, Head.forward_bell]

theorem Head.atPublication_boot : (h.atPublication v).boot = h.boot :=
  Head.ite_boot ((Head.bump_boot _ _).trans (h.forward_boot _)) (h.forward_boot _)

/-- Only the count of replaced publications moves. -/
theorem Head.rd_atPublication {a : Nat} (ha : a ≠ VM_PUB_SKIP v) : (h.atPublication v).rd a = h.rd a := by
  rw [Head.atPublication, apply_ite (Head.rd · a), Head.bump, Head.rd_bumpBy_other _ 1 ha, ite_self, Head.rd_forward]

/-- What is published does not depend on the count of replaced publications. -/
theorem Head.masterRecord_atPublication (hv : v < 8) (x : Vm) : (h.atPublication v).masterRecord v x = h.masterRecord v x := by
  have hhead : RED_CFG ≠ VM_PUB_SKIP v := by simp only [RED_CFG, VM_PUB_SKIP]; omega
  have hstat : VM_STAT v ≠ VM_PUB_SKIP v := by simp only [VM_STAT, VM_PUB_SKIP]; omega
  have hcyc : VM_MCYC v ≠ VM_PUB_SKIP v := by simp only [VM_MCYC, VM_PUB_SKIP]; omega
  simp only [Head.masterRecord, Head.headNo, Head.bellTicks, Head.fld, Head.atPublication_bell, Head.atPublication_boot,
    Head.rd_atPublication h v hhead, Head.rd_atPublication h v hstat, Head.rd_atPublication h v hcyc]

theorem Head.on_forward (t : Nat) (f : Fld) : (h.forward t).on f = h.on f := by rw [Head.on, Head.fld_forward, ← Head.on]
theorem Head.substitute_forward (t : Nat) : (h.forward t).substitute = h.substitute := by
  rw [Head.substitute, Head.fld_forward, ← Head.substitute]
theorem Head.bellNo_forward (t : Nat) : (h.forward t).bellNo = h.bellNo := h.rd_forward t _

/-- A master publishes at its instants, on the Active head, while the Bell runs (R284). -/
def Head.Publishes : Prop :=
  h.on (VM_CFG_PUB v) = true ∧ h.substitute = false ∧ h.bell.running = true ∧ h.bellNo % max 1 (h.fld (VM_PUB_PUB_DIV v)) = 0

variable {h v}

/-- Where a master publishes, MASTER_PUB finds nothing that keeps it from it, however late the clock is. -/
theorem Head.Publishes.nothing_forbids (hp : h.Publishes v) (t : Nat) :
    ¬(!(h.forward t).on (VM_CFG_PUB v) ∨ (h.forward t).substitute ∨ !(h.forward t).bell.running ∨
      (h.forward t).bellNo % max 1 ((h.forward t).fld (VM_PUB_PUB_DIV v)) ≠ 0) := by
  obtain ⟨hon, hactive, hruns, hdue⟩ := hp
  simp [Head.on_forward, Head.substitute_forward, Head.bellNo_forward, hon, hactive, hruns, hdue]

/-- A due publication stays unsent where LL1 finds no gap for it (R285), and goes out under the next number otherwise (R284). -/
theorem Head.masterPub_due (hp : h.Publishes v) (busy : Bool) : h.masterPub v busy =
    if busy then (h.atPublication v).setVm v (fun x => { x with unsent := true })
    else ((h.atPublication v).setVm v (fun x => { x with unsent := false, pubSeq := ((h.vm v).pubSeq + 1) % 65536 })).sendLine 0xD false
      (mirrorWord 0x40 v (((h.vm v).pubSeq + 1) % 65536) :: ((h.atPublication v).masterRecord v (h.vm v)).map (BitVec.ofNat 32)) :=
  if_neg (hp.nothing_forbids _)

/-- A coupled follower whose publication is too old enters HOLDOVER (R288). -/
theorem Head.vmLineLoss_late (hsrc : h.fld (VM_CFG_SRC v) = 3) (hcoupled : (h.vm v).loose = false) (hlate : h.lineLate v = true) :
    h.vmLineLoss v = (h.setVm v (fun x => { x with loose := true, a := 0, holdover := some h.bellNo })).raise 5 0 v := by
  have hfound : ¬(h.fld (VM_CFG_SRC v) ≠ 3 ∨ (h.vm v).loose ∨ !h.lineLate v) := by simp [hsrc, hcoupled, hlate]
  exact if_neg hfound

/-- A holdover that has lasted longer than HOLD ms ends in LINE_LOST (R288). -/
theorem Head.vmLineLost_out {b : Nat} (hsrc : h.fld (VM_CFG_SRC v) = 3) (hloose : (h.vm v).loose = true) (hheld : (h.vm v).holdover = some b)
    (hout : h.bellsOfMs (h.fld (VM_LINE_HOLD v)) < bellsSince h.bellNo b) :
    h.vmLineLost v = h.setVm v (fun x => { x with lost := true }) := by
  rw [Head.vmLineLost, hheld, Option.any_some]
  exact if_pos ⟨hsrc, hloose, decide_eq_true hout⟩

end Masters

/-- Settles O52: the entries passed stay READY and those behind stay as they are, what is published does not depend on the count of
replaced publications, and the two ends of a line are each one guard met. -/
theorem movesAndMastersGoOn : Obligations.MovesAndMastersGoOn := by
  unfold Obligations.MovesAndMastersGoOn
  intro s hs
  refine ⟨fun n done rest x hqueue hdone hx => ?_, fun v hon hactive hruns hdue => ⟨?_, ?_⟩, fun v hsrc hcoupled hlate => ?_,
    fun v b hsrc hloose hheld hout => ?_⟩
  · exact State.onHead_next (f := fun h => h.movePlanned n.val) hs (Head.movePlanned_oldest hqueue hdone hx) (Head.setMot_boot _ _ _)
  · have hbusy := (Head.masterPub_due ⟨hon, hactive, hruns, hdue⟩ true).trans (if_pos rfl)
    exact State.onHead_next (f := fun h => h.masterPub v.val true) hs hbusy
      ((Head.setVm_boot _ _ _).trans (s.head.atPublication_boot v.val))
  · have hsent := (Head.masterPub_due ⟨hon, hactive, hruns, hdue⟩ false).trans (if_neg Bool.false_ne_true)
    rw [s.head.masterRecord_atPublication v.val v.isLt] at hsent
    exact State.onHead_next (f := fun h => h.masterPub v.val false) hs hsent
      (((Head.sendLine_boot _ _ _ _).trans (Head.setVm_boot _ _ _)).trans (s.head.atPublication_boot v.val))
  · exact State.onHead_next (f := fun h => h.vmLineLoss v.val) hs (Head.vmLineLoss_late hsrc hcoupled hlate)
      ((Head.raise_boot _ _ _ _).trans (Head.setVm_boot _ _ _))
  · exact State.onHead_next (f := fun h => h.vmLineLost v.val) hs (Head.vmLineLost_out hsrc hloose hheld hout) (Head.setVm_boot _ _ _)

end Sys2Proof.Machine
end

section
namespace Sys2Proof.Machine

/-! ## Edges at the pins: master encoders, index pulses, captures (R300 to R306) -/

section PinEdges

variable (h : Head)

@[simp] theorem Head.setEnc_boot (k : Nat) (f : Enc → Enc) : (h.setEnc k f).boot = h.boot := id rfl
@[simp] theorem Head.setCap_boot (k : Nat) (f : Capture → Capture) : (h.setCap k f).boot = h.boot := id rfl

theorem Head.enc_eq (k : Fin 4) : h.enc k.val = h.encs[k] := by simp [Head.enc]

/-- An encoder is replaced by what it becomes. -/
theorem Head.setEnc_congr {k : Fin 4} {f g : Enc → Enc} (hfg : f (h.enc k.val) = g (h.enc k.val)) : h.setEnc k.val f = h.setEnc k.val g := by
  unfold Head.setEnc
  congr 1
  ext i hi
  simp only [Vector.getElem_mapFinIdx]
  split_ifs with hk
  · subst hk
    rwa [Head.enc_eq] at hfg
  · rfl

theorem Head.enc_forward (t k : Nat) : (h.forward t).enc k = h.enc k := by simp only [Head.enc, Head.forward_eq]
theorem Head.cap_forward (t k : Nat) : (h.forward t).cap k = h.cap k := by simp only [Head.cap, Head.forward_eq]
theorem Head.cap_wr (a v k : Nat) : (h.wr a v).cap k = h.cap k := id rfl

/-- The stamp of a tick does not hang on the clock. -/
theorem Head.stampAt_forward (t u : Nat) : (h.forward t).stampAt u = h.stampAt u := by
  unfold Head.stampAt Head.mtInUse Head.stepped
  simp only [Head.on_forward, Head.fld_forward, Head.forward_time]

/-! ### Levels of A and B (R300, R301, R302) -/

section Levels

variable (k : Nat) (a b : Bool) (t : Nat)

/-- A change noted at a tick lies nearer to tick `t` than MIN_EDGE allows. -/
def Head.encSoon (noted : Option Nat) : Bool := noted.any (fun u => t - u < h.fld (ENC_CFG_MIN_EDGE k))

/-- When B last changed, and B before that, once it has come to `b` at tick `t`. -/
def Enc.changed (x : Enc) (b : Bool) (t : Nat) : Option Nat := if x.b = b then x.lastB else some t
def Enc.before (x : Enc) (b : Bool) : Bool := if x.b = b then x.bBefore else x.b

/-- STEP_SETUP of R301: in mode 4, B changed less than MIN_EDGE ahead of the rising A. -/
def Head.encSetup : Bool := h.fld (ENC_CFG_MODE k) == 4 && !(h.enc k).a && a && h.encSoon k t ((h.enc k).changed b t)

/-- The step of the new levels, and whether it is a double transition. -/
def Head.encMove : Int × Bool :=
  encStep (h.fld (ENC_CFG_MODE k)) (h.enc k).a (h.enc k).b a b (if h.encSetup k a b t then (h.enc k).before b else b)

/-- The new levels are taken over, whatever the mode. -/
def Head.encTaken : Head :=
  (h.forward (t + h.fld (ENC_CFG_FILT k) + 2)).setEnc k (fun x => { x with
    bBefore := (h.enc k).before b, a := a, b := b, lastEdge := some t, lastB := (h.enc k).changed b t })

/-- A fault of R301 where there is one. -/
def Head.encFaultIf (bad : Bool) (pos : Nat) : Head := if bad then h.encFault k pos else h

/-- The levels taken over with the faults of their change. -/
def Head.encChecked : Head :=
  (((h.encTaken k a b t).encFaultIf k (h.encMove k a b t).2 8).encFaultIf k (h.encSoon k t (h.enc k).lastEdge) 9).encFaultIf k
    (h.encSetup k a b t) 10

/-- The step with the sign of INV. -/
def Head.encDelta : Int :=
  if (h.encChecked k a b t).on (ENC_CFG_INV k) then -(h.encMove k a b t).1 else (h.encMove k a b t).1

variable {h k a b t} {stable : Nat}

/-- An edge that the filter does not pass, or that is none, changes nothing (R300). -/
theorem Head.encEdge_ignored (hno : h.fld (ENC_CFG_FILT k) > stable ∨ ((h.enc k).a = a ∧ (h.enc k).b = b)) : h.encEdge k a b t stable = h :=
  if_pos hno

/-- An edge that has stood FILT ticks is taken over, and in a counting mode it is checked and counted (R300, R301, R302). -/
theorem Head.encEdge_accepted {k : Fin 4} (hfilt : h.fld (ENC_CFG_FILT k.val) ≤ stable) (hnew : (h.enc k.val).a ≠ a ∨ (h.enc k.val).b ≠ b) :
    h.encEdge k.val a b t stable =
      if h.fld (ENC_CFG_MODE k.val) = 0 ∨ 5 < h.fld (ENC_CFG_MODE k.val) then h.encTaken k.val a b t
      else if h.encDelta k.val a b t = 0 then h.encChecked k.val a b t
        else (h.encChecked k.val a b t).encCount k.val (h.encDelta k.val a b t) t := by
  have hpass : ¬(stable < h.fld (ENC_CFG_FILT k.val) ∨ ((h.enc k.val).a = a ∧ (h.enc k.val).b = b)) := by
    rw [not_or, not_and_or]
    exact ⟨Nat.not_lt.mpr hfilt, hnew⟩
  unfold Head.encEdge
  extract_lets x g mode lim bChange setup bOld st fast seen c8 c9 c10 d
  rw [if_neg hpass]
  have hmode : mode = h.fld (ENC_CFG_MODE k.val) := h.fld_forward _ _
  have hlim : lim = h.fld (ENC_CFG_MIN_EDGE k.val) := h.fld_forward _ _
  have hchange : bChange = x.changed b t := ite_not ..
  have hbefore : (if x.b ≠ b then x.b else x.bBefore) = x.before b := ite_not ..
  have hsoon (noted : Option Nat) : noted.any (fun u => t - u < lim) = h.encSoon k.val t noted := by rw [hlim, Head.encSoon]
  have hsetup : setup ↔ h.encSetup k.val a b t = true := by
    simp only [setup, hmode, hchange, hsoon, Head.encSetup, Bool.and_eq_true, beq_iff_eq, and_assoc, x]
  have hst : st = h.encMove k.val a b t := by
    simp only [st, bOld, hmode, hsetup, hbefore, Head.encMove, x]
  have hseen : seen = h.encTaken k.val a b t := by
    rw [Head.encTaken, ← hchange]
    refine Head.setEnc_congr _ ?_
    simp only [g, Head.pinSeen, Head.enc_forward, ← hbefore, x]
  have hchecked : c10 = h.encChecked k.val a b t := by
    simp only [c10, c9, c8, hseen, hst, hsetup, fast, hsoon, Head.encChecked, Head.encFaultIf, x]
  have hd : d = h.encDelta k.val a b t := by rw [Head.encDelta, ← hst, ← hchecked]
  rw [hmode, hseen, hchecked, hd]

/-! What is known of loading stays as it is through an edge. -/

theorem Head.encFault_boot (pos : Nat) : (h.encFault k pos).boot = h.boot :=
  (Head.raise_boot _ _ _ _).trans ((Head.bump_boot _ _).trans (h.orReg_boot _ _))

theorem Head.encFaultIf_boot (bad : Bool) (pos : Nat) : (h.encFaultIf k bad pos).boot = h.boot := Head.ite_boot (h.encFault_boot pos) rfl

theorem Head.encTaken_boot : (h.encTaken k a b t).boot = h.boot := (Head.setEnc_boot _ _ _).trans (h.forward_boot _)

theorem Head.encChecked_boot : (h.encChecked k a b t).boot = h.boot := by
  simp only [Head.encChecked, Head.encFaultIf_boot, Head.encTaken_boot]

theorem Head.encCount_boot (d : Int) : (h.encCount k d t).boot = h.boot := by
  unfold Head.encCount
  extract_lets _ _ _ _ counted wrapped told _ _ _ _ noted turned routed
  have hwrapped : wrapped.boot = h.boot := Head.ite_boot (Head.put_boot _ _ _) (Head.ite_boot (Head.put_boot _ _ _) rfl)
  have hnoted : noted.boot = h.boot := (Head.setEnc_boot _ _ _).trans (Head.ite_boot ((Head.unitEvent_boot _ _ _).trans hwrapped) hwrapped)
  have hturned : turned.boot = h.boot := by simp only [turned, Head.setEnc_boot, Head.put_boot, Head.putBit_boot, hnoted]
  have hrouted : routed.boot = h.boot := (Head.unitEvent_boot _ _ _).trans hturned
  have hraised : ((routed.setEnc k (fun x => { x with dirRaised := true })).raise 5 2 k).boot = h.boot :=
    (Head.raise_boot _ _ _ _).trans hrouted
  exact Head.ite_boot hnoted (Head.ite_boot hnoted (Head.ite_boot hturned (Head.ite_boot hrouted hraised)))

end Levels

/-! ### The index pulse (R303) -/

section Index

variable {h} {k t stable : Nat}

/-- The head at an index edge that the filter passes, latched: the count and the stamp are those of the edge. -/
def Head.encZLatched (h : Head) (k t : Nat) : Head :=
  (((h.forward (t + h.fld (ENC_CFG_FILT k) + 2)).wr (ENC_Z_CNT k) (h.rd (ENC_CNT k))).wrPair (ENC_Z_NS k) (h.stampAt t)).put
    (ENC_STAT_Z_SEEN k) 1

theorem Head.encZLatched_boot : (h.encZLatched k t).boot = h.boot := by
  simp only [Head.encZLatched, Head.put_boot, Head.wrPair_boot, Head.wr_boot, Head.forward_boot]

theorem Head.encZLatch_pinSeen : (h.pinSeen t (h.fld (ENC_CFG_FILT k))).encZLatch k t = h.encZLatched k t := by
  rw [Head.pinSeen, Head.encZLatch, Head.rd_forward, Head.stampAt_forward, ← Head.encZLatched]

/-- With Z_MODE 1 every index edge latches. -/
theorem Head.encZ_every (hfilt : h.fld (ENC_CFG_FILT k) ≤ stable) (hmode : h.fld (ENC_CFG_Z_MODE k) = 1) :
    h.encZ k t stable = h.encZLatched k t := by
  have hseen : (h.pinSeen t (h.fld (ENC_CFG_FILT k))).fld (ENC_CFG_Z_MODE k) = 1 := (h.fld_forward _ _).trans hmode
  rw [Head.encZ, if_neg (Nat.not_lt.mpr hfilt)]
  simp only [hseen, Head.encZLatch_pinSeen]

/-- With Z_MODE 2 an armed index edge latches, clears the counter and disarms; any other passes. -/
theorem Head.encZ_armable (hfilt : h.fld (ENC_CFG_FILT k) ≤ stable) (hmode : h.fld (ENC_CFG_Z_MODE k) = 2) :
    h.encZ k t stable = if h.on (ENC_STAT_Z_ARMED k) then ((h.encZLatched k t).wr (ENC_CNT k) 0).put (ENC_STAT_Z_ARMED k) 0
      else h.forward (t + h.fld (ENC_CFG_FILT k) + 2) := by
  have hseen : (h.pinSeen t (h.fld (ENC_CFG_FILT k))).fld (ENC_CFG_Z_MODE k) = 2 := (h.fld_forward _ _).trans hmode
  rw [Head.encZ, if_neg (Nat.not_lt.mpr hfilt)]
  simp only [hseen, Head.encZLatch_pinSeen]
  rw [Head.pinSeen, Head.on_forward]

end Index

/-! ### Captures (R306) -/

section Captures

variable (k t : Nat)

/-- The FIFO's entry for an edge: its stamp, and the count of the encoder that LATCH selects. -/
def Head.capEntry : Word × Word × Word :=
  (BitVec.ofNat 32 (h.stampAt t), BitVec.ofNat 32 (h.stampAt t / 2 ^ 32),
    BitVec.ofNat 32 (if h.fld (CAP_CFG_LATCH k) < 4 then h.rd (ENC_CNT (h.fld (CAP_CFG_LATCH k))) else 0))

/-- An edge that the filter passes is counted. -/
def Head.capCounted : Head := (h.forward (t + h.fld (CAP_CFG_FILT k) + 2)).wr (CAP_TOTAL k) (h.rd (CAP_TOTAL k) + 1)

/-- Its entry joins the FIFO, or a full FIFO is marked. -/
def Head.capKept : Head :=
  if (h.cap k).fifo.length < 4 then ((h.capCounted k t).setCap k (fun c => { c with fifo := c.fifo ++ [h.capEntry k t] })).capShow k
  else (h.capCounted k t).put (CAP_STAT_OVR k) 1

/-- The tasks that wait for it are told. -/
def Head.capTold : Head := ((h.capKept k t).setCap k (fun c => { c with lastEdge := some t })).unitEvent 2 k

variable {h k t} {rising : Bool} {stable : Nat}

/-- A capture edge of a selected direction that the filter passes is counted, kept, and told to tasks and to every axis. -/
theorem Head.captureEdge_accepted (hfilt : h.fld (CAP_CFG_FILT k) ≤ stable)
    (hedge : bit (h.fld (CAP_CFG_EDGE k)) (if rising then 0 else 1) = true) :
    h.captureEdge k rising t stable = (h.capTold k t).allAxes.foldl (fun g n => g.captureAxis k t n) (h.capTold k t) := by
  have hpass : ¬(stable < h.fld (CAP_CFG_FILT k) ∨
      !(if rising then bit (h.fld (CAP_CFG_EDGE k)) 0 else bit (h.fld (CAP_CFG_EDGE k)) 1)) := by
    rw [← apply_ite (bit _), hedge, Bool.not_true]
    exact fun hc => hc.elim (Nat.not_lt.mpr hfilt) Bool.false_ne_true
  unfold Head.captureEdge
  extract_lets sel seen st e cnt counted kept noted told
  rw [if_neg hpass]
  have hst : st = h.stampAt t := h.stampAt_forward _ _
  have hcnt : cnt = if h.fld (CAP_CFG_LATCH k) < 4 then h.rd (ENC_CNT (h.fld (CAP_CFG_LATCH k))) else 0 := by
    simp only [cnt, e, seen, Head.pinSeen, Head.fld_forward, Head.rd_forward]
  have hcounted : counted = h.capCounted k t := by simp only [counted, seen, Head.pinSeen, Head.rd_forward, Head.capCounted]
  have hfifo : (h.capCounted k t).cap k = h.cap k := (Head.cap_wr _ _ _ _).trans (h.cap_forward _ _)
  have hkept : kept = h.capKept k t := by
    simp only [kept, hcounted, hfifo, hst, hcnt, Head.capKept, Head.capEntry, ge_iff_le, ← not_lt, ite_not]
  have htold : told = h.capTold k t := by simp only [told, noted, hkept, Head.capTold]
  rw [htold]

theorem Head.capShow_boot : (h.capShow k).boot = h.boot := by simp only [Head.capShow, Head.put_boot, Head.wr_boot]

theorem Head.captureAxis_boot (n : Nat) : (h.captureAxis k t n).boot = h.boot := by
  unfold Head.captureAxis
  extract_lets marked
  have hmarked : marked.boot = h.boot := Head.ite_boot (h.setFol_boot _ _) rfl
  exact Head.ite_boot ((Head.setFol_boot _ _ _).trans hmarked) hmarked

theorem Head.capTold_boot : (h.capTold k t).boot = h.boot := by
  have hcounted : (h.capCounted k t).boot = h.boot := (Head.wr_boot _ _ _).trans (h.forward_boot _)
  have hkept : (h.capKept k t).boot = h.boot :=
    Head.ite_boot (Head.capShow_boot.trans ((Head.setCap_boot _ _ _).trans hcounted)) ((Head.put_boot _ _ _).trans hcounted)
  rw [Head.capTold, Head.unitEvent_boot, Head.setCap_boot, hkept]

end Captures

end PinEdges

/-- Settles O53: each of the three edges is one guard met, after which the clock brought forward changes none of the words and levels
that the edge is judged by. -/
theorem edgesAreCountedAndStamped : Obligations.EdgesAreCountedAndStamped := by
  unfold Obligations.EdgesAreCountedAndStamped
  intro s tick stable hs
  refine ⟨fun k a b => ⟨fun hno => ?_, fun hfilt hnew => ⟨fun hmode => ?_, fun hlo hhi => ?_⟩⟩,
    fun k hfilt => ⟨fun hmode => ?_, fun hmode harmed => ?_, fun hmode harmed => ?_⟩, fun k rising hfilt hedge => ?_⟩
  · exact State.onHead_next (f := fun h => h.encEdge k.val a b tick stable) hs (Head.encEdge_ignored hno) rfl
  · have htaken := (Head.encEdge_accepted (t := tick) hfilt hnew).trans (if_pos hmode)
    exact State.onHead_next (f := fun h => h.encEdge k.val a b tick stable) hs htaken Head.encTaken_boot
  · have hcounted := (Head.encEdge_accepted (t := tick) hfilt hnew).trans (if_neg (by omega))
    exact State.onHead_next (f := fun h => h.encEdge k.val a b tick stable) hs hcounted
      (Head.ite_boot Head.encChecked_boot ((Head.encCount_boot _).trans Head.encChecked_boot))
  · exact State.onHead_next (f := fun h => h.encZ k.val tick stable) hs (Head.encZ_every hfilt hmode) Head.encZLatched_boot
  · have hcleared := (Head.encZ_armable (t := tick) hfilt hmode).trans (if_pos harmed)
    exact State.onHead_next (f := fun h => h.encZ k.val tick stable) hs hcleared
      ((Head.put_boot _ _ _).trans ((Head.wr_boot _ _ _).trans Head.encZLatched_boot))
  · have hpassed := (Head.encZ_armable (t := tick) hfilt hmode).trans (if_neg (Bool.eq_false_iff.mp harmed))
    exact State.onHead_next (f := fun h => h.encZ k.val tick stable) hs hpassed (Head.forward_boot _ _)
  · exact State.onHead_next (f := fun h => h.captureEdge k.val rising tick stable) hs (Head.captureEdge_accepted hfilt hedge)
      ((Head.foldl_boot _ _ (fun g n => g.captureAxis_boot n) _).trans Head.capTold_boot)

end Sys2Proof.Machine
end
